-- ==== Sys2Proof/Word.lean ====
section
/-! DEFINITION. The word types of the device: bytes, 32-bit and 64-bit words, and physical addresses of 48 bits
(00_scope R10, R11). -/

namespace Sys2Proof

/-- One byte. -/
abbrev Byte := BitVec 8

/-- A 64-bit register or descriptor word. -/
abbrev Word := BitVec 64

/-- A physical address (R11). -/
abbrev PAddr := BitVec 48

end Sys2Proof
end

