-- ==== Sys2Proof/Syntax.lean ====
section
/-! DEFINITION. The commands of the device: one constructor of `Instr` per row of spec/opcode_table.json, with the
operands its rule names. The table gives no fields and no bits; what an operand carries is the model's choice (log
entry 3): who acts, the register word written, the message or frame that arrives, and the outcomes that only the
outside decides (a signature's verdict, a sensor reading, a memory test's failing rows). -/

namespace Sys2Proof

/-- The initiator types of R278. -/
inductive InitKind where
  | apc | seat | ccc | fw | pcie | hubUnit | pair | debug
  deriving DecidableEq, Repr

/-- Who makes an access (R278). `index` is the INDEX of the initiator ID (application core, global Seat, cluster,
firmware processor, PCIe function, Hub unit); `ident` is the PASID of a PCIe transaction (R328), and for an access of the partner or of a Hub
unit the slice that its inbound window gives it (R347) or that the unit works for, plus 1, with 0 for no slice. -/
structure Initiator where
  kind : InitKind
  index : Nat
  ident : Nat
  deriving DecidableEq, Repr

/-- The operation of a RISC-V atomic memory operation (R341). -/
inductive AmoOp where
  | swap | add | and | or | xor | min | max | minu | maxu
  deriving DecidableEq, Repr

/-- A memory or register access on the bus: a read of `n` bytes, performed at once or split over a bridge read tag
(R339), a write of bytes, or a part of an exclusive sequence (R341): a reserved load of `n` bytes, a conditional store of
bytes, an atomic memory operation with the bytes of its operand. -/
inductive MemOp where
  | read (n : Nat) (split : Bool)
  | write (bytes : List Byte)
  | loadReserved (n : Nat)
  | storeCond (bytes : List Byte)
  | atomic (f : AmoOp) (bytes : List Byte)
  deriving DecidableEq, Repr

/-- What a register write names: a physical address with an access width in bytes, or the APC_PROCID register of an
application core, which has no address (R328). -/
inductive WriteTarget where
  | mem (addr : PAddr) (bytes : Nat)
  | apcProcId (core : Fin 24)
  deriving DecidableEq, Repr

/-- The firmware processors that restart under R322. -/
inductive FwProc where
  | pmc | registrar | ccc (cluster : Fin 16) | proctor
  deriving DecidableEq, Repr

/-- The firmware images that the Security Core verifies (R307). -/
inductive FwImage where
  | pmc | registrar | ccc | proctor
  deriving DecidableEq, Repr

/-- What a firmware processor finds at the end of its restart (R308): whether its instruction region has no uncorrectable word; where it has
one, the image that the Security Core reloads: whether its signature verifies, its SECURITY_VERSION and its digest (R307); and whether the CRCs of
the two persistent copies pass. -/
structure RestartFound where
  instrOk : Bool
  sigOk : Bool
  version : BitVec 16
  digest : BitVec 384
  copyA : Bool
  copyB : Bool
  deriving DecidableEq, Repr

/-- The root that the signature chain of an image verifies to (R149, R301); `bad` for a chain or signature that
fails. `developer k` is the root with digest key `k`. -/
inductive SigRoot where
  | bad | viforik | owner (slot : Fin 4) | developer (key : Nat)
  deriving DecidableEq, Repr

/-- One queue setting of the gateway image (R363): a network queue with its cell limits and its enable. -/
structure GwQueue where
  queue : Nat
  minCells : Nat
  maxCells : Nat
  enable : Bool
  deriving DecidableEq, Repr

/-- An IEEE 1722 template (R364): destination MAC, source MAC, tag control information, stream ID, can_bus_id. -/
structure Template where
  dst : List Byte
  src : List Byte
  tci : BitVec 16
  streamId : Word
  busId : Byte
  deriving DecidableEq, Repr

/-- A gate control list (R350): its base time in Vehicle Time, its cycle time in ns, and its entries, each the gate states, bit c for class c, and
the interval in ns. -/
structure GateList where
  base : Nat
  cycle : Nat
  entries : List (Byte × Nat)
  deriving DecidableEq, Repr

/-- What a counter of a port counts (R368, R401): frames, octets, and frames with a bad FCS, received or sent. -/
inductive MibKind where
  | rxFrames | rxOctets | rxBadFcs | txFrames | txOctets | txBadFcs
  deriving DecidableEq, Repr

/-- The managed objects of the gateway image whose records the device itself acts on (R350, R363, R366, R401): gate control lists, the idle slope in kb/s
of a class queue, and which object code and instance reads which counter of which port (R349). -/
structure GatewayObjects where
  gates : List (Fin 14 × GateList)
  slopes : List (Nat × Nat)
  counters : List (Nat × Nat × MibKind)
  deriving DecidableEq, Repr

/-- The time settings of the gateway image (R363, R370, R371): SYNC_EN, whether the external port configuration makes the device the grandmaster (R350),
and the PHY delay of each port in ns. -/
structure TimeSettings where
  syncEn : Bool
  master : Bool
  phyDelays : List (Fin 14 × Nat)
  deriving DecidableEq, Repr

/-- The contents of a gateway image (R363). -/
structure GatewayContent where
  entries : List (List Byte)
  ports : List (Fin 14 × Word)
  canPorts : List (Fin 16)
  queues : List GwQueue
  templates : List (Nat × Template)
  objects : List (Nat × Word)
  acts : GatewayObjects
  time : TimeSettings
  deriving DecidableEq, Repr

/-- The gateway image in boot flash: absent, failing verification, or good (R363). -/
inductive GatewayImage where
  | absent
  | invalid
  | good (root : SigRoot) (content : GatewayContent)
  deriving DecidableEq, Repr

/-- The records of a Rubric image (R256-R258): signal and check records of 32 bytes, its VERDICT_QUEUE for a load
from boot flash, and whether it fits Proctor's memory. -/
structure RubricContent where
  signals : List (List Byte)
  checks : List (List Byte)
  fits : Bool
  deriving DecidableEq, Repr

/-- What boot loads from flash (R395, R396). -/
inductive BootItem where
  | lesson (slice : Fin 64) (image : List Byte) (root : SigRoot) (readback : Bool)
  | rubric (content : RubricContent) (root : SigRoot) (queue : Nat)
  deriving DecidableEq, Repr

/-- The rails that have a reset threshold (R374, R375). `die r` counts as in PMC_RAIL_STATUS (R379). -/
inductive Rail where
  | die (r : Fin 6) | hub | aon | ddr | ddrq | io18 | io33
  deriving DecidableEq, Repr

/-- One power sample (R385): package power, its average over 100 us, the currents of VDD_CD0_T and VDD_CD1_T with
whether each has been above IMAX_A for 10 us, and the energy since the last sample in uJ (R399). -/
structure PowerSample where
  pkgW : Nat
  avg100W : Nat
  amps0 : Nat
  amps1 : Nat
  held0 : Bool
  held1 : Bool
  energyUj : Nat
  deriving DecidableEq, Repr

/-- The limit registers of R386. -/
inductive LimitReg where
  | cd (die : Fin 2) | pkg
  deriving DecidableEq, Repr

/-- The UCIe die links (R18). -/
inductive DieLink where
  | compute | hub0 | hub1
  deriving DecidableEq, Repr

/-- A failing row that a march group found (R107-R111). -/
structure RowFailure where
  bank : Nat
  row : Nat
  deriving DecidableEq, Repr

/-- The Drill units in the order of R245. -/
inductive DrillUnit where
  | core | locker | slate | compare | fcu | roll
  deriving DecidableEq, Repr

/-- A camera frame at its end (R252, R255): free of header ECC and payload CRC errors, its CSI-2 data type, the payload bytes of its image lines
from the top, and the bytes of its first embedded-data line. -/
structure CamFrame where
  valid : Bool
  dataType : BitVec 6
  lines : List (List Byte)
  embedded : List Byte
  deriving DecidableEq, Repr

/-- A node of the planning engine's store (R190, R195): its epoch, counted from the newest, which is 0, its level and its cell. -/
structure StoreNode where
  age : Nat
  level : Nat
  cell : Nat
  deriving DecidableEq, Repr

/-- What comes with the events of a cycle (R190, R218, R266): whether the conditions of the level sources hold from now on or have ended, and the
store nodes in which the ECC of the planning engine's private SRAM has found an uncorrectable word. -/
structure FcuInput where
  holds : Bool
  nodes : List StoreNode
  deriving DecidableEq, Repr

/-- An image of the Security Core firmware (R307, R395): whether its signature verifies, and its SECURITY_VERSION. -/
structure SecFwImage where
  sigOk : Bool
  version : BitVec 16
  deriving DecidableEq, Repr

/-- How LPDDR5X training ends (R290, R395): whether it succeeds, and whether the readback of a wipe that it lets run finds a word that is not zero. -/
structure DramTraining where
  ok : Bool
  nonZero : Bool
  deriving DecidableEq, Repr

/-- A fetch of a plane (R232): the plane, and the pixel of the active area that it was for. -/
structure PlaneFetch where
  plane : Fin 4
  x : Nat
  y : Nat
  deriving DecidableEq, Repr

/-- The violation logs of R279. -/
inductive ViolLog where
  | hub | core (core : Fin 128) | cluster (cluster : Fin 16) | wmark | bridge (bridge : Fin 5)
  deriving DecidableEq, Repr

/-- A lifecycle token (R302): whether it names this device, its target state and who signed it, an owner by the slot of its root. -/
structure LifecycleToken where
  namesDevice : Bool
  target : Fin 8
  byViforik : Bool
  byOwner : Option (Fin 4)
  deriving DecidableEq, Repr

/-- The tamper detectors (R303). -/
inductive TamperKind where
  | lid | glitch
  deriving DecidableEq, Repr

/-- A lock request that crosses from the other side of a link (R342): the other side's die ID, pair role or initiator
ID. -/
structure Crossing where
  rank : Nat
  deriving DecidableEq, Repr

/-- The window registers of the Pair Link (R347). -/
inductive PairWinReg where
  | outCfg (w : Fin 8) | outRemote (w : Fin 8) | inBase (w : Fin 8) | inCfg (w : Fin 8)
  deriving DecidableEq, Repr

/-- An Ethernet frame from the destination address to the end of the payload, and whether its FCS is good (R361). -/
structure EthFrame where
  bytes : List Byte
  fcsOk : Bool
  deriving DecidableEq, Repr

/-- A CAN frame (R361). -/
structure CanFrame where
  ident : Nat
  ide : Bool
  fdf : Bool
  brs : Bool
  xlf : Bool
  sdt : Byte
  vcid : Byte
  af : BitVec 32
  data : List Byte
  deriving DecidableEq, Repr

/-- What the standards' own state decides about a frame (R350): the Qci filter, gate and meter verdict, whether
802.1CB recovery discards it as a duplicate, whether it detects a latent error, and whether a cell of the frame turned out
uncorrectable (R360). -/
structure StdVerdict where
  qciPass : Bool
  frerDiscard : Bool
  frerLoss : Bool
  cellUe : Bool
  wayUe : List Nat
  deriving DecidableEq, Repr

/-- How a transmission goes (R360): whether a stored cell of the frame turns out uncorrectable. -/
structure TxEnd where
  cellUe : Bool
  deriving DecidableEq, Repr

/-- A transmission of a CAN controller, and how it goes (R360). -/
structure CanSend where
  ctl : Fin 16
  cellUe : Bool
  deriving DecidableEq, Repr

/-- What the protocol engine measures at a Sync (R370, R371): the port, the offset before the port's PHY delay is added to the path delay, and the
sequenceId. -/
structure SyncMeasure where
  port : Fin 14
  offset : Int
  seq : BitVec 16
  deriving DecidableEq, Repr

/-- The commands of the device, one per row of the opcode table, in the table's order. -/
inductive Instr where
  /-- R12: A write to a register that has no row of its own updates its fields according to their access codes, subject to the width, alignment and rights checks. -/
  | registerWrite (who : Initiator) (target : WriteTarget) (data : Word)
  /-- R32: An initiator reads or writes Locker, Slate or LPDDR5X, and the access is checked against watermarks, slice ranges, shares and bridge windows. -/
  | memoryAccess (who : Initiator) (addr : PAddr) (op : MemOp)
  /-- R392: VDD_AON rises through its reset threshold and resets the whole device, including the always-on fields. -/
  | powerOnReset
  /-- R392: RESET_N held low for 1 us or longer resets the device with cause PIN. -/
  | resetPin (lowNs : Nat)
  /-- R392: The Security Core writes KEY 0xA5 to AON_RESET_REQ, which resets the device with cause SOFT. -/
  | aonResetReq (who : Initiator) (data : Word)
  /-- R392: A reset through the debug access port while DBG_NS_INV is 1 resets the device with cause DEBUG. -/
  | debugReset
  /-- R392: The internal reset is released 100 us after RESET_N is high, the rails are good and XTAL_IN runs, and Vehicle Time and the boot ROM start. -/
  | resetRelease
  /-- R395: The boot ROM finishes reading and verifying the Security Core firmware, and SC_STATE becomes RUNNING. -/
  | bootSecFwLoad (image : SecFwImage) (digest : BitVec 384) (bootFlags : Word)
  /-- R307: The Security Core verifies a firmware image against signature and anti-rollback fuses, then loads the image or holds its processor in reset with FW_AUTH_FAIL. -/
  | fwImageVerify (image : FwImage) (sigOk : Bool) (version : BitVec 16) (digest : BitVec 384)
  /-- R272: Once the FCU start-up self-check passes, ALIVE_OUT starts toggling at ALIVE_HZ. -/
  | aliveOutStart
  /-- R363: The Security Core verifies the gateway image, inserts its entries into bank 0 and configures the ports, queues and time unit, or leaves every port disabled. -/
  | gatewayImageLoad (image : GatewayImage)
  /-- R395: LPDDR5X training completes, the wipe below PRIOR_1M runs, and inline ECC is enabled, or training fails with DRAM_TRAIN_FAIL. -/
  | lpddr5xTrainingEnd (training : DramTraining)
  /-- R410: The PMC drives PWR_EN_CDn high and the compute die's rails come up in order. -/
  | diePowerUp (die : Fin 2) (authOk : Bool)
  /-- R410: The rails of a die are not all good within 5 ms of PWR_EN_CDn, so the PMC drives the enable low and the die is held unpowered. -/
  | diePowerTimeout (die : Fin 2)
  /-- R96: The zero fill of a powered-up die's Locker and Slate completes. -/
  | zeroFillEnd (die : Fin 2)
  /-- R288: Once APC_LLC_PART is locked and the monitor is placed, the application cores leave reset. -/
  | apcResetRelease
  /-- R396: The device loads a supervision or perception Lesson or Rubric from boot flash, and a refusal is reported to the first mailbox that negotiates LESSONS. -/
  | bootLessonLoad (item : BootItem)
  /-- R376: A compute-die or SRAM rail falls below its warning threshold; the governor halts tensor issue on the die, runs it at OP0 and tags voltage_event. -/
  | railWarningDie (rail : Fin 6)
  /-- R377: VDD_HUB or VDD_AON falls below its warning threshold; the application clusters and raster drop to their lowest clocks, and jobs on both dies are tagged. -/
  | railWarningHub
  /-- R377: An LPDDR5X rail falls below its warning threshold, and the controller issues only refresh until the rail recovers. -/
  | railWarningDdr
  /-- R375: A rail has stayed above 96% for 10 us; issue or clocks resume, after a CONST check for an SRAM dip. -/
  | railRecovered (rail : Fin 8)
  /-- R379: A rail reaches its reset threshold; a die rail powers that die down, and any other rail resets the device with cause BROWNOUT. -/
  | railResetThreshold (rail : Rail)
  /-- R382: At the Registrar's request, the PMC raises a die's operating point, no higher than CEIL. -/
  | oppRaise (die : Fin 2) (point : Fin 5)
  /-- R381: One step of an operating-point change completes its voltage ramp and frequency switch, and the next step starts if the target has not been reached. -/
  | oppStepEnd (die : Fin 2)
  /-- R384: Every 50 us the governor samples each temperature site and applies or ends the clamp, the halt and the shutdown. -/
  | thermalSample (temps : List Int)
  /-- R384: 10 us after THERM_SHUTDOWN, every rail except VDD_AON and the I/O rails is switched off and the device is held in reset. -/
  | thermalPowerOff
  /-- R384: After 5 s in reset following a shutdown, the device starts with cause THERMAL. -/
  | thermalRestart
  /-- R385: Every 10 us the governor measures package power and rail current and applies the excursion, sustained and current limits. -/
  | powerSample (sample : PowerSample)
  /-- R386: A write to PMC_LIMIT_CDn or PMC_LIMIT_PKG lowers a limit and leaves unchanged any field it would raise. -/
  | pmcLimitWrite (who : Initiator) (reg : LimitReg) (data : Word)
  /-- R387: At each 1 ms boundary the PMC publishes the budget record atomically in PMC_BUDGET0-7. -/
  | budgetRecord (otherW pkgW : Nat)
  /-- R391: Every 10 us each PLL is checked against the AON domain, and a loss of lock or a frequency out of window raises PLL_UNLOCK or CLK_MON and stops the domain. -/
  | pllMonitorCheck (domain : Fin 44) (unlocked outOfWindow : Bool)
  /-- R391: A PLL relocks, and its domain resumes; for a tensor or CCC domain, recovery is counted as for a dip. -/
  | pllRelock (domain : Fin 44)
  /-- R280: A UCIe die link goes down, raising DIE_LINK_DOWN_C or DIE_LINK_DOWN_Hn, which powers down the far compute die. -/
  | dieLinkDown (link : DieLink)
  /-- R45: A write to CLC_SEAT_SHARE takes effect only for an EMPTY Seat with a fitting, non-overlapping range, and otherwise is refused with SHARE_OVERLAP. -/
  | clcSeatShareWrite (who : Initiator) (seat : Fin 1024) (data : Word)
  /-- R56: The DMA engine copies a three-dimensional block between Locker, Slate and LPDDR5X in checked bursts. -/
  | moveCopy (seat : Fin 1024)
  /-- R56: The DMA engine copies the source rows named by an index list into consecutive destination rows. -/
  | moveGather (seat : Fin 1024)
  /-- R56: The DMA engine writes FILL_VALUE to every destination element. -/
  | moveFill (seat : Fin 1024)
  /-- R56: The array computes C = A x B^T + ACC_IN for a dense tile on the exact or the 16-bit path. -/
  | mmaDense (seat : Fin 1024)
  /-- R57: The array computes a matrix product with 2:4 structured-sparse B, guided by the metadata. -/
  | mmaSparse24 (seat : Fin 1024)
  /-- R125: The array and the sliding-window engine compute a convolution output tile over all input channels. -/
  | convStandard (seat : Fin 1024)
  /-- R127: The array computes a grouped convolution tile, with each output channel reading only its group's input channels. -/
  | convGrouped (seat : Fin 1024)
  /-- R127: The array computes a depthwise convolution tile, with each output channel reading only its own input channel. -/
  | convDepthwise (seat : Fin 1024)
  /-- R57: The array computes a standard convolution with 2:4 sparse weights, applying the metadata along the weight order. -/
  | convSparse24 (seat : Fin 1024)
  /-- R135: The vector unit writes the maximum over each window, padding included. -/
  | poolMax (seat : Fin 1024)
  /-- R135: The vector unit averages each window over its in-image positions only. -/
  | poolAvgValid (seat : Fin 1024)
  /-- R135: The vector unit averages each window over all its positions and divides by the window size. -/
  | poolAvgAll (seat : Fin 1024)
  /-- R92: The vector unit adds A and B element-wise; the addition is exact when D is CARRY. -/
  | vecAdd (seat : Fin 1024)
  /-- R85: The vector unit multiplies A and B element-wise. -/
  | vecMul (seat : Fin 1024)
  /-- R85: The vector unit computes A x B + C with one rounding. -/
  | vecFma (seat : Fin 1024)
  /-- R86: The vector unit takes the element-wise maximum of A and B. -/
  | vecMax (seat : Fin 1024)
  /-- R86: The vector unit takes the element-wise minimum of A and B. -/
  | vecMin (seat : Fin 1024)
  /-- R88: The vector unit applies the activation that FUNC selects, by the fixed sequences. -/
  | vecAct (seat : Fin 1024)
  /-- R88: The vector unit computes a softmax per row, in the fixed order. -/
  | vecSoftmax (seat : Fin 1024)
  /-- R88: The vector unit computes a layer norm or an RMS norm per row. -/
  | vecNorm (seat : Fin 1024)
  /-- R87: The vector unit reduces each row by sum, max or min in the fixed tree order. -/
  | vecReduce (seat : Fin 1024)
  /-- R90: The vector unit converts elements to the destination format with one rounding, building MX scales where needed. -/
  | vecConvert (seat : Fin 1024)
  /-- R61: The vector unit computes A[r][l] x B[l] + C[l] per channel. -/
  | vecScale (seat : Fin 1024)
  /-- R139: The post-processing unit decodes anchor-based boxes and writes one record per position. -/
  | decodeAnchor (seat : Fin 1024)
  /-- R139: The post-processing unit decodes centre-based boxes and writes one record per position. -/
  | decodeCentre (seat : Fin 1024)
  /-- R142: The post-processing unit performs greedy suppression among candidates of equal class and writes KEPT and KEPT_N on completion. -/
  | suppressClassAware (seat : Fin 1024)
  /-- R142: The post-processing unit performs greedy suppression across all candidates and writes KEPT and KEPT_N on completion. -/
  | suppressClassAgnostic (seat : Fin 1024)
  /-- R47: The Seat waits until every earlier descriptor has completed. -/
  | syncFence (seat : Fin 1024)
  /-- R62: The Seat arrives at a barrier and becomes BLOCKED until all participants arrive. -/
  | syncBarrier (seat : Fin 1024)
  /-- R62: The Seat tests a semaphore and becomes BLOCKED until the comparison holds. -/
  | syncSemWait (seat : Fin 1024)
  /-- R62: The Seat adds VALUE to a semaphore, modulo 2^32. -/
  | syncSemSignal (seat : Fin 1024)
  /-- R46: The Seat sets its descriptor pointer to TARGET. -/
  | syncLink (seat : Fin 1024)
  /-- R63: The Seat issues a descriptor that does nothing. -/
  | syncNop (seat : Fin 1024)
  /-- R226: The vector unit shades the tile's fragments with the program, then applies the depth test and the blend in SEQ order. -/
  | rastShade (seat : Fin 1024)
  /-- R224: The DMA engine writes the tile's colour to the frame buffer target. -/
  | rastResolve (seat : Fin 1024)
  /-- R224: The DMA engine moves the tile's colour and depth to its spill slot. -/
  | rastSpill (seat : Fin 1024)
  /-- R224: The DMA engine restores the tile's colour and depth from its spill slot. -/
  | rastReload (seat : Fin 1024)
  /-- R64: A descriptor's outputs reach Locker; progress and signature are updated, and END completes the Seat's part of the job. -/
  | descriptorComplete (seat : Fin 1024) (slot : Nat)
  /-- R62: A BLOCKED Seat's barrier or semaphore condition holds, and the Seat becomes READY. -/
  | syncWaitSatisfied (seat : Fin 1024)
  /-- R62: TIMEOUT_US passes for a BLOCKED Seat, which halts with SYNC_TIMEOUT. -/
  | syncTimeout (seat : Fin 1024)
  /-- R66: The CCC signals a core to switch its issue path to a named READY or PARKED Seat. -/
  | preemptionSignal (core : Fin 128) (incoming : Fin 8)
  /-- R66: The drain and the 64-cycle switch end, the outgoing Seat is PARKED or IDLE, and the incoming Seat issues. -/
  | seatSwitchEnd (core : Fin 128)
  /-- R106: A DMA burst of at most 4 KiB completes, and the next burst starts, or the transfer pauses or is squashed at this boundary. -/
  | dmaBurstEnd (seat : Fin 1024)
  /-- R98: A corrected word is written back in the next cycle in which its bank is free, unless a newer write has superseded it. -/
  | eccWriteback (addr : PAddr)
  /-- R102: A scrub period ends; a pass that has not finished raises MEM_SCRUB_LATE, and otherwise the next pass starts. -/
  | scrubPeriodEnd (cluster : Fin 16) (mem : Fin 9)
  /-- R102: A scrub pass finishes reading every word, and a late pass starts the next one at once. -/
  | scrubPassEnd (cluster : Fin 16) (mem : Fin 9)
  /-- R109: A write of CLC_MARCH_CTRL.START starts a march test, or refuses it with RESULT REFUSED. -/
  | marchStart (who : Initiator) (cluster : Fin 16) (data : Word)
  /-- R108: A row group finishes its march and write-back or fill, the hold is released, and the next group starts. -/
  | marchRowGroupEnd (cluster : Fin 16) (failures : List RowFailure)
  /-- R116: A write of LEVEL_64K first wipes the range between the old and new levels, then applies the new level. -/
  | wmarkSlateLevelWrite (who : Initiator) (data : Word)
  /-- R115: A write of WIPE_REQ starts, or merges into, a wipe of every Slate's secure partition. -/
  | slateWipeReq (who : Initiator) (data : Word)
  /-- R114: A write of 1 to WMARK_SLATE_CTRL.LOCK locks LEVEL_64K and LOCK until reset. -/
  | slateWmarkLock (who : Initiator) (data : Word)
  /-- R115: A Slate wipe finishes its readback, counts WIPE_COUNT, and on a non-zero word sets WIPE_FAIL and raises SLATE_WIPE_FAIL. -/
  | slateWipeEnd (nonZero : List (Fin 16))
  /-- R14: A read of CLC_MEM_ECCCOUNT returns the ECC counts and clears them. -/
  | clcMemEcccountRead (who : Initiator) (cluster : Fin 16)
  /-- R151: The Registrar admits a Lesson image through checks, placement and content verification, or refuses it whole with a report. -/
  | lessonLoad (mb : Fin 68) (root : SigRoot) (readback : Bool)
  /-- R158: The request releases a Lesson's resources, returns MS_BUSY while jobs exist, or with FORCE aborts those jobs. -/
  | lessonUnload (mb : Fin 68)
  /-- R158: Once every job of a force-unloaded Lesson has ended, its Seats go to EMPTY and its shares and regions are zeroed. -/
  | lessonRelease (slice : Fin 64) (lesson : Word)
  /-- R161: The Registrar takes in a job record or a whole batch, assigns tag and generation, and sets QUEUED, or completes a bad record at once. -/
  | jobIntake (queue : Fin 32768)
  /-- R167: When a group becomes free, the Registrar seats the best QUEUED job, writes its arguments and sets its Seats READY. -/
  | jobSeat (slice : Fin 64) (lesson : Word)
  /-- R174: When all commit conditions hold, the job table swaps the job from RUNNING to COMMITTING. -/
  | jobCommit (tag : Fin 1024)
  /-- R177: A job's completion record is written when its completion queue has room, the job ends, and its tag is freed. -/
  | completionWrite (tag : Fin 1024)
  /-- R176: An ABORT request ends a job named by handle or ring position, or reports that it had already completed. -/
  | abort (mb : Fin 68)
  /-- R182: At ARM the Bell predicts whether the job will miss its deadline. -/
  | bellArm (tag : Fin 1024)
  /-- R184: At DEADLINE an uncommitted job either goes on to set LATE or, with ABORT_AT_DEADLINE, fails with MS_TIMEOUT. -/
  | bellDeadline (tag : Fin 1024)
  /-- R179: A new Roster entry is created in the home group with the fewest entries, or the request is refused with MS_NOFIT. -/
  | seqAdd (mb : Fin 68)
  /-- R179: A WAITING Roster entry becomes READY, or a RUNNING one sets FEED_PENDING. -/
  | seqFeed (mb : Fin 68)
  /-- R179: A READY or WAITING Roster entry is freed, or a RUNNING one becomes RETIRING. -/
  | seqRetire (mb : Fin 68)
  /-- R180: For a free home group with READY entries, the Roster builds a step job of up to BATCH_WIDTH entries and takes it in. -/
  | rosterStepBuild (slice : Fin 64) (lesson : Word) (group : Nat)
  /-- R186: The integrator sets up to 16 safety windows, which replace the old timetable at the end of every open window. -/
  | timetableSet (mb : Fin 68)
  /-- R187: 1 ms before a window opens, the Registrar requests the window's operating point for each die involved. -/
  | windowOppRequest (window : Fin 16)
  /-- R187: 1 us before a window opens, the CCC parks every ISSUING Seat on its clusters that is neither SAFETY nor a Quiz run. -/
  | windowPark (window : Fin 16)
  /-- R187: A safety window opens, and only SAFETY and Quiz Seats issue on its clusters. -/
  | windowOpen (window : Fin 16)
  /-- R187: A safety window closes, and other work and budget lowering may use its clusters again. -/
  | windowClose (window : Fin 16)
  /-- R197: A write to PLAN_SRCn_LESSON binds a Lesson to an update source, unless it is already bound to another. -/
  | planSrcBind (who : Initiator) (source : Fin 8) (data : Word)
  /-- R198: At a bound Lesson's commit, the engine copies the batch into staging once staging is free. -/
  | planBatchCopy (tag : Fin 1024)
  /-- R201: After the copy ends, the engine checks the batch and builds the new epoch in canonical form, or refuses the batch with a fault. -/
  | planBatchApply
  /-- R201: The newly built epoch becomes newest in a single swap. -/
  | planEpochSwap
  /-- R203: The Security Core writes PLAN_PRIV to mark at most two privileged channels, or locks it. -/
  | planPrivWrite (who : Initiator) (data : Word)
  /-- R205: A write of 1 to START releases a cycle on an ON_DEMAND channel, latching its records or counting an overrun. -/
  | planStart (who : Initiator) (ch : Fin 16) (data : Word)
  /-- R204: A PERIODIC channel releases a cycle at its phase in each period, or makes a refused release when its configuration is out of range. -/
  | planPeriodicRelease (ch : Fin 16)
  /-- R206: The free engine starts the highest-ranked pending cycle, takes its epoch snapshot and generates or fetches the candidates. -/
  | planCycleStart
  /-- R206: An ordinary cycle is suspended at the next block boundary when a privileged cycle is released. -/
  | planCycleSuspend
  /-- R206: A suspended ordinary cycle resumes when no privileged cycle is pending. -/
  | planCycleResume
  /-- R214: The reduction ends; the engine selects the output, re-checking it against a newer epoch where needed. -/
  | planReductionEnd
  /-- R215: 20 us before the deadline, an unfinished ordinary cycle emits the fallback choice with TIMEOUT. -/
  | planGuardPoint (ch : Fin 16)
  /-- R14: A read of PLAN_CHn_STATUS returns its fields and clears OVERRUNS. -/
  | planChStatusRead (who : Initiator) (ch : Fin 16)
  /-- R229: A write to DISP_RAST_CTRL enables the front end when bin memory is free, or abandons the current pass when ENABLE is cleared. -/
  | rastCtrlWrite (who : Initiator) (data : Word)
  /-- R220: Software advances HEAD, and the front end takes the new commands in ring order. -/
  | rastHeadWrite (who : Initiator) (data : Word)
  /-- R228: After the previous pass has ended, the front end starts a pass and fixes its target latch, deadline and ARM. -/
  | rastPassBegin
  /-- R221: The front end snaps, culls and bins the triangles of a draw into tile bin records. -/
  | rastDraw
  /-- R227: When every SPILL of a partial render has committed, the front end empties bin memory and resumes binning. -/
  | rastPartialResume
  /-- R227: At PASS_END the front end submits RELOAD, SHADE and RESOLVE for every tile of the pass. -/
  | rastPassEnd
  /-- R220: The front end consumes a NOP command. -/
  | rastNop
  /-- R225: After a tile's previous job has ended, the front end submits its next tile job as a job record. -/
  | rastTileJobSubmit
  /-- R14: A read of DISP_RAST_STATUS returns its fields and clears PARTIALS and ABANDONED. -/
  | rastStatusRead (who : Initiator)
  /-- R230: A write of ENABLE to DISP_PIPEn_CTRL starts the pipe, or leaves it off when a field is out of range. -/
  | dispPipeEnable (who : Initiator) (pipe : Fin 4) (data : Word)
  /-- R231: A write of POST marks ADDR as pending for the plane's next latch. -/
  | dispPlanePost (who : Initiator) (pipe plane : Fin 4) (data : Word)
  /-- R231: After the last active line, each plane switches to its posted buffer or repeats its current one, counting FRAME_REPEAT when a frame was expected. -/
  | dispLatch (pipe : Fin 4)
  /-- R232: A plane fetch is late or fails; the rest of the line shows black and DISP_UNDERRUN is raised. -/
  | dispUnderrun (pipe : Fin 4) (fetch : PlaneFetch)
  /-- R232: A display link is lost, which clears LINK_UP and raises DISP_LINK_LOST. -/
  | dispLinkLost (pipe : Fin 4)
  /-- R14: A read of DISP_PIPEn_STATUS returns its fields and clears REPEATS and UNDERRUNS. -/
  | dispPipeStatusRead (who : Initiator) (pipe : Fin 4)
  /-- R234: A Proctor lockstep mismatch raises PROC_LOCKSTEP and holds Proctor in reset until the device is reset. -/
  | procLockstep
  /-- R238: The compare path compares both replicas' Seat signatures and reports equality, or logs SIG_MISMATCH and fails the job. -/
  | signatureCompare (tag : Fin 1024)
  /-- R14: A read of PROC_STATUS returns its fields and clears MISMATCHES. -/
  | procStatusRead (who : Initiator)
  /-- R241: The integrator sets a Lesson's Quiz period, phase and maximum deferral, or is refused with MS_BADARG. -/
  | quizSet (mb : Fin 68)
  /-- R241: A Quiz slot opens and makes a run pending, or merges into the pending one. -/
  | quizSlot (slice : Fin 64) (lesson : Word)
  /-- R242: The Registrar seats a pending Quiz run in the lowest free group while no job of the Lesson is QUEUED. -/
  | quizSeat (slice : Fin 64) (lesson : Word)
  /-- R243: A Quiz run ends; its replica signatures are compared with QUIZ_SIG, and a failure raises QUIZ_FAIL and marks the Lesson. -/
  | quizRunEnd (slice : Fin 64) (lesson : Word)
  /-- R244: No Quiz run has ended within QUIZ_MAX_DEFER x QUIZ_PERIOD_US, so QUIZ_OVERDUE is raised once. -/
  | quizOverdue (slice : Fin 64) (lesson : Word)
  /-- R249: The integrator sets the Drill coverage interval of each unit type. -/
  | drillSet (mb : Fin 68)
  /-- R249: The Registrar starts the allowed Drill step with the least time left, parking the core where the step takes one. -/
  | drillStepStart (unit : DrillUnit) (inst : Nat)
  /-- R250: A Drill step ends and Proctor judges it; a failure raises the unit's DRILL_FAIL source with its effect. -/
  | drillStepEnd (unit : DrillUnit) (inst : Nat) (pass : Bool)
  /-- R249: A coverage interval ends with its pass incomplete; DRILL_STARVED is raised and a new interval starts. -/
  | drillIntervalEnd (unit : DrillUnit) (inst : Nat)
  /-- R254: A valid frame start on a guarded stream restarts the STALE time, clears STALE and sets SEEN. -/
  | rollFrameStart (stream : Fin 16) (valid : Bool)
  /-- R253: At frame end Roll Call computes the frame signature and counter, updates FROZEN, or counts an invalid frame. -/
  | rollFrameEnd (stream : Fin 16) (frame : CamFrame)
  /-- R254: STALE_US passes without a valid frame start, which sets STALE and raises ROLL_STALEn. -/
  | rollStale (stream : Fin 16)
  /-- R252: A write to ROLL_STRn_CFG configures the stream, and setting ENABLE clears its state and starts the STALE time. -/
  | rollCfgWrite (who : Initiator) (stream : Fin 16) (data : Word)
  /-- R14: A read of ROLL_STRn_STATUS returns its fields and clears BAD_FRAMES. -/
  | rollStatusRead (who : Initiator) (stream : Fin 16)
  /-- R256: Proctor verifies and loads a Rubric with its verdict queue, or refuses it. -/
  | rubricLoad (mb : Fin 68) (root : SigRoot) (content : RubricContent)
  /-- R256: Proctor removes the named Rubric. -/
  | rubricUnload (mb : Fin 68)
  /-- R261: A privileged planning channel writes no new output within 2 x PERIOD_US, and PROC_PLAN_STALE is raised. -/
  | procPlanStale (ch : Fin 16)
  /-- R267: An event of a fault source reaches the FCU, which classes it with promotion and escalation, logs it and drives the reactions. -/
  | fcuEvent (sources : List (Fin 512)) (input : FcuInput)
  /-- R272: The duplicated FCU class logic disagrees or the FCU clock is lost; ALIVE_OUT stops and FCU_SELFCHECK is raised. -/
  | fcuSelfcheckFail
  /-- R273: A write to FCU_SRC_ACKk acknowledges set sources and releases their interrupt contribution. -/
  | fcuAck (who : Initiator) (k : Fin 8) (data : Word)
  /-- R274: A write to FCU_SRC_STATUSk clears the sticky bits of sources that are not asserting and counts the ignored clears. -/
  | fcuClear (who : Initiator) (k : Fin 8) (data : Word)
  /-- R267: A write of GO raises one event of the source SW_FAULTn that SEL selects. -/
  | fcuSwRaise (who : Initiator) (data : Word)
  /-- R276: Clearing FCU_LOG_PTR.FROZEN resumes event logging at WR_IDX. -/
  | fcuLogUnfreeze (who : Initiator) (data : Word)
  /-- R272: The Security Core writes ALIVE_HZ, FREEZE_ON_CRIT or LOCK, and a new ALIVE_HZ takes effect at the next edge. -/
  | fcuCtrlWrite (who : Initiator) (data : Word)
  /-- R275: A privileged read of FCU_SUMMARY returns its fields and clears CLR_IGNORED. -/
  | fcuSummaryRead (who : Initiator)
  /-- R275: A privileged read of FCU_LOG_PTR returns its fields and clears DROPPED. -/
  | fcuLogPtrRead (who : Initiator)
  /-- R275: A privileged read of FCU_SRCn_STATE returns its fields and clears EVENTS. -/
  | fcuSrcStateRead (who : Initiator) (source : Fin 512)
  /-- R277: A read of a violation log's VIOL_INFO returns its fields and clears COUNT. -/
  | violInfoRead (who : Initiator) (log : ViolLog)
  /-- R275: Proctor acknowledges one or many fault sources on behalf of normal-world software. -/
  | faultAck (mb : Fin 68)
  /-- R275: Proctor clears one or many fault sources and returns the number of clears ignored. -/
  | faultClear (mb : Fin 68)
  /-- R285: A channel owner writes GO, and the Security Core takes the request header and payload. -/
  | secmbRequest (who : Initiator) (ch : Fin 32) (data : Word)
  /-- R285: The Security Core writes its reply into the header, sets DONE and clears BUSY. -/
  | secmbReply (ch : Fin 32) (status : BitVec 16) (arg : Word) (payload : List Byte)
  /-- R286: An application core's environment call enters the monitor, which flushes the caches, sets the world tag and submits the request on its SECMB channel. -/
  | monitorCall (core : Fin 24) (header : PAddr)
  /-- R286: No DONE arrives within 60 ms, and the monitor returns MS_TIMEOUT. -/
  | monitorTimeout (core : Fin 24)
  /-- R290: A write of LEVEL_1M wipes the range between the old and new levels, then applies the new level. -/
  | wmarkDramLevelWrite (who : Initiator) (data : Word)
  /-- R290: A write of WIPE_REQ starts, or merges into, a wipe of the secure LPDDR5X partition. -/
  | dramWipeReq (who : Initiator) (data : Word)
  /-- R289: A write of 1 to WMARK_DRAM_CTRL.LOCK locks LEVEL_1M and LOCK until reset. -/
  | dramWmarkLock (who : Initiator) (data : Word)
  /-- R290: An LPDDR5X partition wipe finishes its readback, and a non-zero word sets WIPE_FAIL and raises SLATE_WIPE_FAIL. -/
  | dramWipeEnd (nonZero : Bool)
  /-- R292: The PMC gates or ungates a unit's clock or power, or refuses a held unit with MS_DENIED_SECURE_HOLD. -/
  | powerGate (mb : Fin 68)
  /-- R293: The Security Core writes PMC_SEC_HOLD, which restores the power and clock of any newly held unit that is gated. -/
  | secHoldWrite (who : Initiator) (data : Word)
  /-- R14: A read of PMC_HOLD_LOG returns its fields and clears COUNT. -/
  | pmcHoldLogRead (who : Initiator)
  /-- R294: The Security Core watchdog expires; the Security Core alone restarts, and requests are answered with MS_RESTARTING. -/
  | secWdtExpiry
  /-- R294: A Security Core lockstep mismatch restarts the Security Core alone. -/
  | secLockstep
  /-- R295: The boot ROM re-measures the Security Core firmware and unseals the partitions, or wipes them and sets FAILED. -/
  | secRestartEnd (imageOk : Bool) (digest : BitVec 384)
  /-- R297: A debug certificate on channel 28 raises debug enables after verification, wiping the secure partitions first for secure debug. -/
  | debugCertificate (verified namesDevice : Bool) (root : SigRoot) (grants : BitVec 4)
  /-- R300: The Security Core returns up to 4,096 bytes of the device certificate chain from the given offset. -/
  | certChain (mb : Fin 68)
  /-- R304: The Security Core returns a signed attestation report with the nonce, the measurements and the slice's Lessons. -/
  | attest (mb : Fin 68)
  /-- R302: A signed token moves the lifecycle state: the secure partitions are wiped, the fuses are programmed and the device is reset. -/
  | lifecycleSet (mb : Fin 68) (token : LifecycleToken)
  /-- R301: A developer root is registered for Lessons and Rubrics in DEVELOP until reset. -/
  | devRootAdd (mb : Fin 68) (certOk : Bool)
  /-- R303: A lid or supply-glitch detector fires, which raises TAMPER_LID or TAMPER_GLITCH and wipes both secure partitions. -/
  | tamperEvent (kind : TamperKind)
  /-- R322: A PMC, Registrar or CCC watchdog expires; that processor alone restarts and its pending requests are answered. -/
  | fwWatchdogExpiry (proc : FwProc)
  /-- R322: A lockstep mismatch of a PMC, Registrar or CCC restarts that processor alone. -/
  | fwLockstepMismatch (proc : FwProc)
  /-- R323: The Registrar rebuilds its state from the persistent region, the job table, the Roster and the queues, then resumes seating. -/
  | registrarRestartEnd (found : RestartFound)
  /-- R324: A restarted CCC verifies the CONST CRCs and rewrites the non-CONST content, after which its Seats accept work. -/
  | cccRestartEnd (cluster : Fin 16) (found : RestartFound)
  /-- R325: The PMC completes its restart, and budget records resume at the next 1 ms boundary. -/
  | pmcRestartEnd (found : RestartFound)
  /-- R314: The MLMB block takes the next request of a mailbox in ring order, when its reply queue has room, checks it and routes it to its server. -/
  | mlmbRequestTake (mb : Fin 68)
  /-- R319: A HELLO negotiates a mailbox's version and features and resets EXPECT_SEQ. -/
  | hello (mb : Fin 68)
  /-- R321: Once a full reply queue has room again, an EVENTS_LOST event reports the events dropped. -/
  | eventsLost (mb : Fin 68)
  /-- R14: A read of MLMB_MBi_STATUS returns its fields and clears EVENTS_DROPPED. -/
  | mlmbStatusRead (who : Initiator) (mb : Fin 68)
  /-- R316: A privileged request writes the OPP_MAX ceiling of a compute die. -/
  | oppLimit (mb : Fin 68)
  /-- R327: An integrator tool configures a slice's identity, quotas, Seats, Slate and LPDDR5X range, or is refused. -/
  | sliceConfig (mb : Fin 68)
  /-- R331: A host attaches to its slice with a new token, or reclaims the slice during grace with its old token. -/
  | attach (mb : Fin 68)
  /-- R332: An idle host keeps its slice alive. -/
  | heartbeat (mb : Fin 68)
  /-- R332: HEARTBEAT_MS passes with no request, so the slice is detached as in R333. -/
  | hostHeartbeatLost (slice : Fin 64)
  /-- R333: The host detaches; intake stops, the jobs are aborted, the transfers drain, and the grace period follows. -/
  | detach (mb : Fin 68)
  /-- R333: The slice's jobs are aborted, its transfers drained or squashed, and its Lessons, Roster entries and queues released. -/
  | sliceReset (mb : Fin 68)
  /-- R333: DRAIN_MS after intake stopped, the slice's outstanding transfers are squashed, SLICE_SQUASH is raised, and the sequence completes. -/
  | sliceDrainEnd (slice : Fin 64)
  /-- R334: The grace period ends without a reclaiming ATTACH, and the slice is reset and unloaded. -/
  | sliceGraceEnd (slice : Fin 64)
  /-- R330: A 10 us strict-mode window ends, and the quota use of every strict slice is renewed. -/
  | strictQuotaWindow
  /-- R339: A read completion arrives, releasing its tag, or is discarded if the read has timed out. -/
  | bridgeCompletion (bridge : Fin 5) (readTag : Nat) (data : List Byte)
  /-- R339: A read has no completion after READ_TIMEOUT_US; it gets an error response and READ_TIMEOUTS counts it. -/
  | bridgeReadTimeout (bridge : Fin 5) (readTag : Nat)
  /-- R341: An exclusive sequence takes a bridge's semaphore or a far-side granule lock, with crossing requests resolved by die ID or pair role. -/
  | bridgeLockRequest (bridge : Fin 5) (who : Initiator) (addr : PAddr) (crossing : Option Crossing)
  /-- R341: A lock held past the lock limit is released and counted, and the sequence fails. -/
  | bridgeLockTimeout (bridge : Fin 5)
  /-- R343: In message mode, a side-band change arrives as a posted message, ordered behind earlier writes. -/
  | bridgeSidebandMessage (bridge : Fin 5) (signals : Word)
  /-- R345: A write-error message arrives, and the initiating bridge logs it in its Posted Error Log and raises its POSTED_ERR source. -/
  | postedWriteError (bridge : Fin 5) (who : Initiator) (addr : PAddr) (tag : Byte) (reason : Fin 10)
  /-- R346: An initiator reads BRG_BARRIER, which waits for its earlier posted writes through that bridge. -/
  | brgBarrierRead (who : Initiator) (bridge : Fin 5)
  /-- R346: Every earlier posted write has been performed or has failed, and the barrier read returns ERR and ENTRIES. -/
  | brgBarrierComplete (who : Initiator) (bridge : Fin 5)
  /-- R345: A write of BRG_PEL_STATUS.CLEAR invalidates every Posted Error Log entry. -/
  | pelClear (who : Initiator) (bridge : Fin 5) (data : Word)
  /-- R14: A read of BRG_STATUS returns its fields and clears READ_TIMEOUTS and LOCK_TIMEOUTS. -/
  | brgStatusRead (who : Initiator) (bridge : Fin 5)
  /-- R14: A read of BRG_PEL_STATUS returns its fields and clears OVERFLOW. -/
  | brgPelStatusRead (who : Initiator) (bridge : Fin 5)
  /-- R347: A write to a Pair Link window register applies to later accesses, unless enabling it would overlap another window or exceed its space. -/
  | pairWindowWrite (who : Initiator) (reg : PairWinReg) (data : Word)
  /-- R347: A partner access is admitted by an enabled inbound window as its slice, or refused with REASON WINDOW. -/
  | pairInboundAccess (addr : PAddr) (op : MemOp)
  /-- R33: An access in the Pair Link window is translated by an outbound window and carried to the partner, or refused. -/
  | pairOutboundAccess (who : Initiator) (addr : PAddr) (op : MemOp)
  /-- R348: The Pair Link trains, which clears PAIR_LINK_DOWN. -/
  | pairLinkUp
  /-- R348: A trained Pair Link goes down; PAIR_LINK_DOWN is raised, inbound transfers are squashed and outbound reads fail. -/
  | pairLinkDown
  /-- R348: The start allowance passes, and PAIR_ALIVE_LOST or PAIR_LINK_DOWN is raised if no edge has arrived or no link has trained. -/
  | pairStartAllowanceEnd
  /-- R348: An edge on ALIVE_IN counts EDGES and may clear PAIR_ALIVE_LOST. -/
  | aliveInEdge
  /-- R348: TIMEOUT_US passes without an ALIVE_IN edge, and PAIR_ALIVE_LOST is raised. -/
  | aliveInTimeout
  /-- R366: An Ethernet frame is received into the port reserve, classified, filtered and admitted to its queues, or dropped. -/
  | ethFrameReceive (port : Fin 14) (frame : EthFrame) (verdict : StdVerdict)
  /-- R368: A queued frame starts on its egress port, cut-through or store-and-forward, when its gate and shaper allow. -/
  | ethFrameTransmit (port : Fin 14) (cls : Fin 8) (end_ : TxEnd)
  /-- R366: A CAN frame is received, timestamped and looked up, then forwarded or dropped. -/
  | canFrameReceive (ctl : Fin 16) (frame : CanFrame) (verdict : StdVerdict)
  /-- R351: The head frame with the lowest identifier among a controller's four queues enters arbitration and is sent. -/
  | canFrameTransmit (send : CanSend)
  /-- R351: A CAN controller goes bus-off, which raises CAN_BUS_OFF. -/
  | canBusOff (ctl : Fin 16)
  /-- R351: After 128 occurrences of 11 recessive bits, the controller recovers and its queued frames proceed. -/
  | canBusOffRecovery (ctl : Fin 16)
  /-- R359: An Ethernet port's link goes down; its queued frames are freed and GW_PORT_DOWN asserts. -/
  | ethLinkDown (port : Fin 14)
  /-- R367: An Ethernet port's link comes up, which sets LINK. -/
  | ethLinkUp (port : Fin 14)
  /-- R350: A gate control list interval expires, and the next entry's gate states apply. -/
  | qbvGateChange (port : Fin 14)
  /-- R353: A write to QMGR_QCFG configures the selected queue; enabling it resets PROD and CONS, subject to the cell-pool check. -/
  | qmgrQcfgWrite (who : Initiator) (data : Word)
  /-- R355: The owner moves its PROD or CONS of a queue and may arm its interrupt, or the doorbell is refused. -/
  | qmgrDoorbell (who : Initiator) (data : Word)
  /-- R14: A read of QMGR_QCFG returns its fields and clears DROPPED. -/
  | qmgrQcfgRead (who : Initiator)
  /-- R362: The device consumes a host transmit entry, sends its frame and writes back its timestamp. -/
  | hostTxConsume (queue : Fin 24576) (verdict : StdVerdict)
  /-- R359: A write to GW_PORTp_CFG configures a port, and enabling it is refused when the pool reserves would exceed 65,536 cells. -/
  | gwPortCfgWrite (who : Initiator) (port : Fin 14) (data : Word)
  /-- R365: An entry is placed in the lowest free way of its bucket in the inactive bank. -/
  | gctInsert (who : Initiator) (data : Word)
  /-- R366: An entry is removed by key from the inactive bank. -/
  | gctDelete (who : Initiator) (data : Word)
  /-- R366: The entry at INDEX of READ_BANK is returned in GW_GCT_DATA0-3. -/
  | gctRead (who : Initiator) (data : Word)
  /-- R366: Copying of the active bank into the inactive bank starts. -/
  | gctCopy (who : Initiator) (data : Word)
  /-- R366: The bank copy completes and GO reads 0. -/
  | gctCopyEnd
  /-- R366: The inactive bank becomes active for lookups that start afterwards. -/
  | gctSwitch (who : Initiator) (data : Word)
  /-- R371: A Sync is received and its offset measured, which disciplines, refuses, steps or catches up Vehicle Time. -/
  | gptpSync (measure : SyncMeasure) (newMaster : Bool)
  /-- R371: The Sync receipt timeout passes, and the time unit enters HOLDOVER. -/
  | gptpSyncTimeout
  /-- R371: A write of ACCEPT in HOLDOVER enters CATCHUP. -/
  | timeAccept (who : Initiator) (data : Word)
  /-- R373: Enabling a time-triggered output arms its pulses, or raises TTO_MISSED when START is too near. -/
  | ttoEnable (who : Initiator) (output : Fin 8) (data : Word)
  /-- R373: A time-triggered output reaches its pulse time and produces a pulse of WIDTH_NS. -/
  | ttoPulse (output : Fin 8)
  /-- R68: The post-processing unit reaches the next 64-cycle step boundary of a DECODE or SUPPRESS, where the work of a PARKED or stopped Seat pauses or is squashed. -/
  | postprocStepBoundary (seat : Fin 1024)
  /-- R272: Each half period of 1 / ALIVE_HZ, ALIVE_OUT toggles, and a pending ALIVE_HZ write takes effect at this edge. -/
  | aliveOutEdge
  /-- R343: In polled mode, once per poll period the bridge samples the far side's side-band signals and delivers any change. -/
  | bridgeSidebandPoll (bridge : Fin 5) (signals : Word)
  /-- R344: A UCIe die link completes training or retraining, which sets LINK_UP and ends the retraining period of message mode. -/
  | dieLinkTrained (link : DieLink)
  /-- R232: A display pipe's DisplayPort or eDP link completes training and LINK_UP is set. -/
  | dispLinkTrained (pipe : Fin 4)
  /-- R351: A LIN controller detects a bus error and raises LIN_ERR. -/
  | linError (ctl : Fin 4)
  /-- R280: A PCIe controller detects a link or transaction error and raises PCIE_ERR. -/
  | pcieError
  deriving DecidableEq, Repr

end Sys2Proof
end

