-- ==== Sys2Proof/Config.lean ====
section
/-! DEFINITION. What the spec leaves open, as constants without a body: no proof can see a value of one (log entry 9).
Each is applied to what it depends on, or to the state's counter of fresh values. -/

namespace Sys2Proof.Config

/-- The Security Core's random source (14_slices R331): draw number `n`. A token is never 0, so a token is the draw
plus 1, modulo 2^64 - 1. -/
opaque freeToken : Nat → Fin 18446744073709551615

/-- A byte of the boot ROM (01_device_architecture R30): its contents are not given. -/
opaque romByte : Nat → Byte

/-- A byte of the DER certificate chain (12_worlds_identity R300), whose encoding is not given: by the Hub die's secret, from which the DeviceID
key comes, its Compound Device Identifier, from which the Alias key comes, the measurement of the Security Core firmware, the draw of the Alias
certificate, and the offset. -/
opaque chainByte : BitVec 256 → BitVec 384 → BitVec 384 → Nat → Nat → Byte

/-- The length of the certificate chain in bytes (12_worlds_identity R300), by the same. -/
opaque chainLen : BitVec 256 → BitVec 384 → BitVec 384 → Nat → BitVec 32

/-- The Alias signature over a report (12_worlds_identity R304): 96 bytes, by the Compound Device Identifier, from which the Alias key comes
(R299), the report's bytes and the draw. -/
opaque aliasSign : BitVec 384 → List Byte → Nat → Nat → Byte

/-- The DeviceID digest of a die (12_worlds_identity R299, R300): 48 bytes, by its secret alone. -/
opaque deviceIdByte : BitVec 256 → Nat → Byte

/-- exp of 03_arithmetic R88 where the product by 1/ln 2 leaves the FP32 range: the spec states no result. -/
opaque expOpen : BitVec 32 → BitVec 32

/-- Data that a device outside the spec's description supplies (a read of an undescribed register), by draw. -/
opaque freeWord : Nat → Word

/-- R252: the value of pixel `x` of a line in a CSI-2 data type whose packing the model does not give, by data type, line bytes and `x` (log entry
85). -/
opaque pixelValue : Nat → List Byte → Nat → BitVec 16

/-- The pixels of a line of so many bytes in such a data type (log entry 85). -/
opaque pixelCount : Nat → Nat → BitVec 16

/-- A byte that the peripheral bus or the partner returns (15_bridges_pair_link R336, 01_device_architecture R33), by draw and position. -/
opaque outsideByte : Nat → Nat → Byte

/-- The set of the last-level cache that a line of LPDDR5X belongs to (R287): the spec does not say. -/
opaque llcSet (line : Nat) : Nat

/-- The choice among the ways that a line may go into, from the lines that the cache holds in the order of their last use (as way, line and world) and the
new line (R287): the spec does not say. -/
opaque llcWay (lines : List (Nat × Nat × Bool)) (line : Nat) : Nat

end Sys2Proof.Config
end

