-- ==== Sys2Proof/Machine/Occ.lean ====
section
/-! DEFINITION. The Occupancy Store's contents (08_motion_planner R193-R195): a tree of six levels whose cells are uniform
or split. In canonical form no split cell is uniform, so equal leaf values are equal trees. -/

namespace Sys2Proof.Machine

/-- A cell: all its leaves hold `v`, or its children in child order (R193). -/
inductive OccCell (α : Type) where
  | uni (v : Nat)
  | split (kids : List α)
  deriving DecidableEq, Repr

/-- A brick: 16 leaf values. -/
abbrev Occ5 := OccCell Nat
abbrev Occ4 := OccCell Occ5
abbrev Occ3 := OccCell Occ4
abbrev Occ2 := OccCell Occ3
abbrev Occ1 := OccCell Occ2
/-- The root. -/
abbrev Occ0 := OccCell Occ1

end Sys2Proof.Machine
end

