-- ==== Sys2Proof/Machine/RegMap.lean ====
section
/-! DEFINITION. The register map of the device: one family per register of spec/ (00_scope R12-R16), with its
address, its fields, their access codes and their reset values, as the register tables of the chapters give them.
A register is named by its physical address, a field by the register and its bit range. -/

namespace Sys2Proof.Machine

/-- The access codes of R12. -/
inductive Acc where
  | ro | rw | rwl | w1c | w1s | wo | rc
  deriving DecidableEq, Repr

/-- One field of a register: bits `hi` to `lo` and its access code (R12). Bits in no field are reserved (R13). -/
structure Fld where
  hi : Nat
  lo : Nat
  acc : Acc
  deriving DecidableEq, Repr

/-- A register: its physical address (R11) and the value it holds at reset. -/
structure Reg where
  addr : Nat
  rst : Nat
  deriving DecidableEq, Repr

/-- A field of one register, by the bits it covers. -/
structure FRef where
  reg : Reg
  hi : Nat
  lo : Nat
  deriving DecidableEq, Repr

/-- Who may access a register: the classes of access rights that the chapters give (R44, R114, R203, R219, R239,
R255, R275, R284, R292, R345, R354, R367, R386, R393, R412). -/
inductive Rights where

  | readAll | cluster | secOnly | regSec | planCh | disp | proc | roll | fcuCfg | fcuRead | fcuAck | all | secmb | secWrite | barrier | pairWin | queue | gw | railStatus | pmcLimit
  deriving DecidableEq, Repr

/-- The register families. -/
inductive RegFam where
  | cfg_ident | aon_service | clc_seat_state | clc_seat_share | clc_seat_desc_ptr | clc_seat_progress 
  | clc_seat_padconst | clc_mem_uelog | clc_mem_ecccount | clc_march_ctrl | clc_march_status | wmark_slate 
  | wmark_slate_ctrl | wmark_dram | wmark_dram_ctrl | plan_store_status | plan_priv | plan_src_lesson 
  | plan_src_addr | plan_ch_ctrl | plan_ch_status | plan_ch_cfg | plan_ch_start | disp_rast_ctrl | disp_rast_ring 
  | disp_rast_ptr | disp_rast_spill | disp_rast_status | disp_rast_lesson | disp_pipe_ctrl | disp_pipe_timing_h 
  | disp_pipe_timing_v | disp_pipe_status | disp_plane_addr | disp_plane_cfg | proc_status | proc_cmp_log 
  | proc_cmp_sig0 | proc_cmp_sig1 | roll_str_cfg | roll_str_grid | roll_str_status | roll_str_sig | fcu_ctrl 
  | fcu_summary | fcu_log_ptr | fcu_sw_raise | fcu_src_status | fcu_src_ack | fcu_src_cfg | fcu_src_state 
  | fcu_log | hub_viol_addr | hub_viol_info | core_viol_addr | core_viol_info | clc_viol_addr | clc_viol_info 
  | wmark_viol_addr | wmark_viol_info | sec_state | secmb_ch_req | secmb_ch_rsp | apc_llc_part | pmc_sec_hold 
  | pmc_hold_log | mlmb_mb_status | mlmb_mb_features | mlmb_priv_owner | mlmb_fw_state | mlmb_fw_restarts 
  | mlmb_ccc_restarts | brg_ctrl | brg_status | brg_barrier | brg_pel_status | brg_viol_addr | brg_viol_info 
  | brg_pel_addr | brg_pel_info | pair_out_cfg | pair_out_remote | pair_in_base | pair_in_cfg | pair_alive 
  | qmgr_sel | qmgr_qbase | qmgr_qcfg | qmgr_qptr | qmgr_qcells | qmgr_doorbell | qmgr_pool | gw_port_cfg 
  | gw_admin | gw_gct_ctrl | gw_gct_data | gw_obj_sel | gw_obj_value | time_now | time_ctrl | time_status 
  | time_tick_us | time_tto_start | time_tto_cfg | pmc_rail_status | pmc_opp_cd | pmc_limit_cd | pmc_limit_pkg 
  | pmc_budget | pmc_energy | aon_reset_cause | aon_reset_req | cfg_pad 
  deriving DecidableEq, Repr

/-- Block base of bridge `b`: 0 the Peripheral Bridge, 1-3 the Die Bridges of the Hub die, CD0 and CD1, 4 the
Pair Bridge (R336). -/
def bridgeBase : Nat → Nat
  | 0 => 0x100C0000
  | 1 => 0x0FE00000
  | 2 => 0x0FE10000
  | 3 => 0x0FE20000
  | _ => 0x100D0000

/-- READ_TIMEOUT_US at reset of bridge `b` (R336). -/
def bridgeReadTimeout : Nat → Nat
  | 0 => 1000
  | 4 => 10000
  | _ => 100

/-- Class, counting threshold N, window W in ms and reaction bits (bit 0 I, 1 S, 2 X, 3 A) of fault source `n` at
reset (R280, R281); `none` for an ID that is not used (R282). N is the 8-bit field of FCU_SRCn_CFG: the 256 that the
table gives the corrected-error sources does not fit it and leaves 0, no promotion (log entry 10, DESIGN CHOICE). -/
def srcReset (n : Nat) : Option (Nat × Nat × Nat × Nat) :=
  let info := some (0, 32, 1000, 0)
  let infoCe := some (0, 0, 1000, 0)
  let minor := some (1, 8, 1000, 0)
  let major := some (2, 3, 10000, 0)
  let majorS := some (2, 3, 10000, 2)
  let majorX := some (2, 3, 10000, 4)
  let majorSX := some (2, 3, 10000, 6)
  let crit := some (3, 0, 10000, 0)
  if 0x200 ≤ n then none
  else if 0x100 ≤ n then
    match n % 16 with
    | 0 | 1 | 2 | 14 => minor
    | 3 | 5 => infoCe
    | 4 | 6 | 12 | 13 => major
    | 7 | 8 => info
    | 9 => majorX
    | 10 | 11 => majorSX
    | _ => none
  else if n = 0 then some (3, 0, 10000, 8)
  else if n ≤ 0x00A then crit
  else if n < 0x010 then none
  else if n ≤ 0x014 then minor
  else if n = 0x015 then major
  else if n = 0x016 then info
  else if n ≤ 0x018 then majorS
  else if n < 0x020 then none
  else if n ≤ 0x026 then major
  else if n = 0x027 then info
  else if n = 0x028 then minor
  else if n ≤ 0x02A then majorX
  else if n = 0x02B then major
  else if n < 0x030 then none
  else if n = 0x030 ∨ n = 0x033 ∨ n = 0x038 then infoCe
  else if n = 0x031 ∨ n = 0x034 ∨ n = 0x039 ∨ n = 0x032 then major
  else if 0x035 ≤ n ∧ n ≤ 0x037 then minor
  else if n < 0x040 then none
  else if n = 0x040 then infoCe
  else if n = 0x041 then major
  else if n ≤ 0x043 then majorX
  else if n ≤ 0x047 then minor
  else if n = 0x048 then major
  else if n ≤ 0x04A then minor
  else if n < 0x050 then none
  else if n ≤ 0x051 then minor
  else if n = 0x052 then some (0, 0, 1000, 0)
  else if n = 0x053 then info
  else if n = 0x054 then infoCe
  else if n ≤ 0x056 then major
  else if n = 0x057 then minor
  else if n ≤ 0x059 then info
  else if n < 0x060 then none
  else if n ≤ 0x061 then minor
  else if n ≤ 0x063 then info
  else if n = 0x064 then minor
  else if n ≤ 0x066 then info
  else if n < 0x070 then none
  else if n = 0x070 ∨ n = 0x074 ∨ n = 0x075 ∨ n = 0x077 then info
  else if n = 0x071 ∨ n = 0x078 then majorS
  else if n ≤ 0x076 then minor
  else if n < 0x080 then none
  else if n = 0x080 ∨ n = 0x083 ∨ n = 0x084 then minor
  else if n ≤ 0x082 then info
  else if n < 0x090 then none
  else if n ≤ 0x091 then majorS
  else if n = 0x092 then minor
  else if n = 0x093 then info
  else if n = 0x094 then minor
  else if n = 0x095 then majorS
  else if n = 0x096 then crit
  else if n < 0x0A0 then none
  else if n = 0x0A0 then major
  else if n ≤ 0x0A3 then majorS
  else if n = 0x0A4 then minor
  else if n = 0x0B0 then some (0, 30, 1000, 0)
  else if n < 0x0C0 then none
  else if n ≤ 0x0DF then majorS
  else if n ≤ 0x0EF then minor
  else none

/-- The reset value of FCU_SRCn_CFG (R280-R282): W_MS, N, REACT, DEFAULT_CLASS and CLASS. -/
def srcCfgReset (n : Nat) : Nat :=
  match srcReset n with
  | none => 0
  | some (c, k, wms, r) => wms * 2 ^ 48 + k * 2 ^ 40 + r * 2 ^ 36 + c * 4 + c

/-- Word `k` of a planning channel's configuration record at reset (R204): DEADLINE_US 2,000, OCC_THR 128, BAND_MASK
0b111, HOLD_MAX_SHIFT 20 and the eight STOP_DEC values; every other field zero. -/
def planCfgReset : Nat → Nat
  | 0 => 2000
  | 1 => 20 * 2 ^ 32 + 7 * 2 ^ 40 + 128 * 2 ^ 48
  | 8 => 5 + 10 * 2 ^ 8 + 15 * 2 ^ 16 + 20 * 2 ^ 24 + 30 * 2 ^ 32 + 40 * 2 ^ 40 + 50 * 2 ^ 48 + 60 * 2 ^ 56
  | _ => 0

/-- Bits of word `k` of the configuration record that hold a field (R204); the others are reserved. -/
def planCfgMask : Nat → Nat
  | 2 | 3 | 4 | 5 => 0x0000FFFFFFFFFFFF
  | 7 => 0x0000FFFFFFFFFFFF
  | 9 => 0xFFFFFFFF00FFFFFF
  | 10 => 0xFFFFFFFF0000FFFF
  | 13 | 14 | 15 => 0
  | _ => 0xFFFFFFFFFFFFFFFF

/-- Bits of word `k` of the start record that hold a field (R204). -/
def planStartMask : Nat → Nat
  | 1 => 0x0000FFFFFFFFFFFF
  | 0 | 2 | 3 => 0xFFFFFFFFFFFFFFFF
  | _ => 0

/-- CFG_IDENT (00_scope.md). -/
def CFG_IDENT : Reg := ⟨0xFF00000, 0x1640102010080800⟩
def CFG_IDENT.PART : FRef := ⟨CFG_IDENT, 63, 48⟩
def CFG_IDENT.STEPPING : FRef := ⟨CFG_IDENT, 47, 40⟩
def CFG_IDENT.COMPUTE_DIES : FRef := ⟨CFG_IDENT, 39, 36⟩
def CFG_IDENT.CLUSTERS : FRef := ⟨CFG_IDENT, 31, 24⟩
def CFG_IDENT.CORES_PER_CLUSTER : FRef := ⟨CFG_IDENT, 23, 16⟩
def CFG_IDENT.SEATS_PER_CORE : FRef := ⟨CFG_IDENT, 15, 8⟩

/-- AON_SERVICE (01_device_architecture.md). -/
def AON_SERVICE : Reg := ⟨0xF000010, 0x0⟩
def AON_SERVICE.LIMP_MS : FRef := ⟨AON_SERVICE, 23, 16⟩
def AON_SERVICE.PAIR_AVAIL : FRef := ⟨AON_SERVICE, 9, 9⟩
def AON_SERVICE.DISP_AVAIL : FRef := ⟨AON_SERVICE, 8, 8⟩
def AON_SERVICE.MEM_AVAIL : FRef := ⟨AON_SERVICE, 7, 7⟩
def AON_SERVICE.APC_AVAIL : FRef := ⟨AON_SERVICE, 6, 6⟩
def AON_SERVICE.CD1_AVAIL : FRef := ⟨AON_SERVICE, 5, 5⟩
def AON_SERVICE.CD0_AVAIL : FRef := ⟨AON_SERVICE, 4, 4⟩
def AON_SERVICE.LEVEL : FRef := ⟨AON_SERVICE, 2, 0⟩

/-- CLC_SEAT_STATE (02_tensor_core.md). -/
def CLC_SEAT_STATE (i j : Nat) : Reg := ⟨0x20004000 + i * 0x10000 + j * 0x40, 0x0⟩
def CLC_SEAT_STATE.LAST_DESC_ID (i j : Nat) : FRef := ⟨CLC_SEAT_STATE i j, 63, 32⟩
def CLC_SEAT_STATE.LAST_ERR (i j : Nat) : FRef := ⟨CLC_SEAT_STATE i j, 15, 8⟩
def CLC_SEAT_STATE.STATE (i j : Nat) : FRef := ⟨CLC_SEAT_STATE i j, 2, 0⟩

/-- CLC_SEAT_SHARE (02_tensor_core.md). -/
def CLC_SEAT_SHARE (i j : Nat) : Reg := ⟨0x20004008 + i * 0x10000 + j * 0x40, 0x0⟩
def CLC_SEAT_SHARE.SLICE_VALID (i j : Nat) : FRef := ⟨CLC_SEAT_SHARE i j, 38, 38⟩
def CLC_SEAT_SHARE.SLICE (i j : Nat) : FRef := ⟨CLC_SEAT_SHARE i j, 37, 32⟩
def CLC_SEAT_SHARE.SIZE_4K (i j : Nat) : FRef := ⟨CLC_SEAT_SHARE i j, 25, 16⟩
def CLC_SEAT_SHARE.BASE_4K (i j : Nat) : FRef := ⟨CLC_SEAT_SHARE i j, 8, 0⟩

/-- CLC_SEAT_DESC_PTR (02_tensor_core.md). -/
def CLC_SEAT_DESC_PTR (i j : Nat) : Reg := ⟨0x20004010 + i * 0x10000 + j * 0x40, 0x0⟩
def CLC_SEAT_DESC_PTR.PTR (i j : Nat) : FRef := ⟨CLC_SEAT_DESC_PTR i j, 20, 6⟩

/-- CLC_SEAT_PROGRESS (02_tensor_core.md). -/
def CLC_SEAT_PROGRESS (i j : Nat) : Reg := ⟨0x20004018 + i * 0x10000 + j * 0x40, 0x0⟩
def CLC_SEAT_PROGRESS.PROGRESS (i j : Nat) : FRef := ⟨CLC_SEAT_PROGRESS i j, 31, 0⟩

/-- CLC_SEAT_PADCONST (02_tensor_core.md). -/
def CLC_SEAT_PADCONST (i j : Nat) : Reg := ⟨0x20004020 + i * 0x10000 + j * 0x40, 0x0⟩
def CLC_SEAT_PADCONST.VALUE (i j : Nat) : FRef := ⟨CLC_SEAT_PADCONST i j, 31, 0⟩

/-- CLC_MEM_UELOG (04_locker_slate.md). -/
def CLC_MEM_UELOG (i : Nat) : Reg := ⟨0x20003000 + i * 0x10000, 0x0⟩
def CLC_MEM_UELOG.VALID (i : Nat) : FRef := ⟨CLC_MEM_UELOG i, 63, 63⟩
def CLC_MEM_UELOG.MEM (i : Nat) : FRef := ⟨CLC_MEM_UELOG i, 51, 48⟩
def CLC_MEM_UELOG.ADDR (i : Nat) : FRef := ⟨CLC_MEM_UELOG i, 47, 0⟩

/-- CLC_MEM_ECCCOUNT (04_locker_slate.md). -/
def CLC_MEM_ECCCOUNT (i : Nat) : Reg := ⟨0x20003008 + i * 0x10000, 0x0⟩
def CLC_MEM_ECCCOUNT.UE_COUNT (i : Nat) : FRef := ⟨CLC_MEM_ECCCOUNT i, 31, 16⟩
def CLC_MEM_ECCCOUNT.CE_COUNT (i : Nat) : FRef := ⟨CLC_MEM_ECCCOUNT i, 15, 0⟩

/-- CLC_MARCH_CTRL (04_locker_slate.md). -/
def CLC_MARCH_CTRL (i : Nat) : Reg := ⟨0x20003010 + i * 0x10000, 0x6400000000⟩
def CLC_MARCH_CTRL.SCRUB_MS (i : Nat) : FRef := ⟨CLC_MARCH_CTRL i, 41, 32⟩
def CLC_MARCH_CTRL.GROUP_COUNT (i : Nat) : FRef := ⟨CLC_MARCH_CTRL i, 30, 24⟩
def CLC_MARCH_CTRL.GROUP_FIRST (i : Nat) : FRef := ⟨CLC_MARCH_CTRL i, 22, 16⟩
def CLC_MARCH_CTRL.SLATE (i : Nat) : FRef := ⟨CLC_MARCH_CTRL i, 10, 10⟩
def CLC_MARCH_CTRL.LOCKER_MASK (i : Nat) : FRef := ⟨CLC_MARCH_CTRL i, 9, 2⟩
def CLC_MARCH_CTRL.MODE (i : Nat) : FRef := ⟨CLC_MARCH_CTRL i, 1, 1⟩
def CLC_MARCH_CTRL.START (i : Nat) : FRef := ⟨CLC_MARCH_CTRL i, 0, 0⟩

/-- CLC_MARCH_STATUS (04_locker_slate.md). -/
def CLC_MARCH_STATUS (i : Nat) : Reg := ⟨0x20003018 + i * 0x10000, 0x20080000000000⟩
def CLC_MARCH_STATUS.SLATE_SPARES (i : Nat) : FRef := ⟨CLC_MARCH_STATUS i, 53, 48⟩
def CLC_MARCH_STATUS.LOCKER_SPARES (i : Nat) : FRef := ⟨CLC_MARCH_STATUS i, 43, 40⟩
def CLC_MARCH_STATUS.FAIL_MEM (i : Nat) : FRef := ⟨CLC_MARCH_STATUS i, 39, 36⟩
def CLC_MARCH_STATUS.FAIL_ROW (i : Nat) : FRef := ⟨CLC_MARCH_STATUS i, 28, 16⟩
def CLC_MARCH_STATUS.FAIL_BANK (i : Nat) : FRef := ⟨CLC_MARCH_STATUS i, 13, 8⟩
def CLC_MARCH_STATUS.RESULT (i : Nat) : FRef := ⟨CLC_MARCH_STATUS i, 3, 1⟩
def CLC_MARCH_STATUS.BUSY (i : Nat) : FRef := ⟨CLC_MARCH_STATUS i, 0, 0⟩

/-- WMARK_SLATE (04_locker_slate.md). -/
def WMARK_SLATE : Reg := ⟨0x100F0010, 0x0⟩
def WMARK_SLATE.LEVEL_64K : FRef := ⟨WMARK_SLATE, 8, 0⟩

/-- WMARK_SLATE_CTRL (04_locker_slate.md). -/
def WMARK_SLATE_CTRL : Reg := ⟨0x100F0018, 0x0⟩
def WMARK_SLATE_CTRL.WIPE_COUNT : FRef := ⟨WMARK_SLATE_CTRL, 31, 16⟩
def WMARK_SLATE_CTRL.WIPE_REQ : FRef := ⟨WMARK_SLATE_CTRL, 3, 3⟩
def WMARK_SLATE_CTRL.WIPE_FAIL : FRef := ⟨WMARK_SLATE_CTRL, 2, 2⟩
def WMARK_SLATE_CTRL.WIPE_BUSY : FRef := ⟨WMARK_SLATE_CTRL, 1, 1⟩
def WMARK_SLATE_CTRL.LOCK : FRef := ⟨WMARK_SLATE_CTRL, 0, 0⟩

/-- WMARK_DRAM (12_worlds_identity.md). -/
def WMARK_DRAM : Reg := ⟨0x100F0000, 0x0⟩
def WMARK_DRAM.LEVEL_1M : FRef := ⟨WMARK_DRAM, 13, 0⟩

/-- WMARK_DRAM_CTRL (12_worlds_identity.md). -/
def WMARK_DRAM_CTRL : Reg := ⟨0x100F0008, 0x0⟩
def WMARK_DRAM_CTRL.WIPE_COUNT : FRef := ⟨WMARK_DRAM_CTRL, 63, 48⟩
def WMARK_DRAM_CTRL.PRIOR_1M : FRef := ⟨WMARK_DRAM_CTRL, 45, 32⟩
def WMARK_DRAM_CTRL.WIPE_REQ : FRef := ⟨WMARK_DRAM_CTRL, 3, 3⟩
def WMARK_DRAM_CTRL.WIPE_FAIL : FRef := ⟨WMARK_DRAM_CTRL, 2, 2⟩
def WMARK_DRAM_CTRL.WIPE_BUSY : FRef := ⟨WMARK_DRAM_CTRL, 1, 1⟩
def WMARK_DRAM_CTRL.LOCK : FRef := ⟨WMARK_DRAM_CTRL, 0, 0⟩

/-- PLAN_STORE_STATUS (08_motion_planner.md). -/
def PLAN_STORE_STATUS : Reg := ⟨0x10080000, 0x0⟩
def PLAN_STORE_STATUS.NEWEST_EPOCH : FRef := ⟨PLAN_STORE_STATUS, 63, 32⟩
def PLAN_STORE_STATUS.LIVE_EPOCHS : FRef := ⟨PLAN_STORE_STATUS, 27, 25⟩
def PLAN_STORE_STATUS.WORLD : FRef := ⟨PLAN_STORE_STATUS, 24, 24⟩
def PLAN_STORE_STATUS.LIVE_NODES : FRef := ⟨PLAN_STORE_STATUS, 18, 0⟩

/-- PLAN_PRIV (08_motion_planner.md). -/
def PLAN_PRIV : Reg := ⟨0x10080008, 0x0⟩
def PLAN_PRIV.LOCK : FRef := ⟨PLAN_PRIV, 16, 16⟩
def PLAN_PRIV.MASK : FRef := ⟨PLAN_PRIV, 15, 0⟩

/-- PLAN_SRC_LESSON (08_motion_planner.md). -/
def PLAN_SRC_LESSON (i : Nat) : Reg := ⟨0x10080100 + i * 0x10, 0x0⟩
def PLAN_SRC_LESSON.LESSON_ID (i : Nat) : FRef := ⟨PLAN_SRC_LESSON i, 63, 0⟩

/-- PLAN_SRC_ADDR (08_motion_planner.md). -/
def PLAN_SRC_ADDR (i : Nat) : Reg := ⟨0x10080108 + i * 0x10, 0x0⟩
def PLAN_SRC_ADDR.ENABLE (i : Nat) : FRef := ⟨PLAN_SRC_ADDR i, 63, 63⟩
def PLAN_SRC_ADDR.SLICE (i : Nat) : FRef := ⟨PLAN_SRC_ADDR i, 61, 56⟩
def PLAN_SRC_ADDR.ADDR (i : Nat) : FRef := ⟨PLAN_SRC_ADDR i, 47, 0⟩

/-- PLAN_CH_CTRL (08_motion_planner.md). -/
def PLAN_CH_CTRL (i : Nat) : Reg := ⟨0x10081000 + i * 0x200, 0x0⟩
def PLAN_CH_CTRL.SLICE (i : Nat) : FRef := ⟨PLAN_CH_CTRL i, 13, 8⟩
def PLAN_CH_CTRL.PRIVILEGED (i : Nat) : FRef := ⟨PLAN_CH_CTRL i, 5, 5⟩
def PLAN_CH_CTRL.CAND_SRC (i : Nat) : FRef := ⟨PLAN_CH_CTRL i, 4, 4⟩
def PLAN_CH_CTRL.TRIGGER (i : Nat) : FRef := ⟨PLAN_CH_CTRL i, 3, 2⟩
def PLAN_CH_CTRL.START (i : Nat) : FRef := ⟨PLAN_CH_CTRL i, 1, 1⟩
def PLAN_CH_CTRL.ENABLE (i : Nat) : FRef := ⟨PLAN_CH_CTRL i, 0, 0⟩

/-- PLAN_CH_STATUS (08_motion_planner.md). -/
def PLAN_CH_STATUS (i : Nat) : Reg := ⟨0x10081008 + i * 0x200, 0x0⟩
def PLAN_CH_STATUS.CYCLES (i : Nat) : FRef := ⟨PLAN_CH_STATUS i, 63, 32⟩
def PLAN_CH_STATUS.OVERRUNS (i : Nat) : FRef := ⟨PLAN_CH_STATUS i, 31, 16⟩
def PLAN_CH_STATUS.LAST_STATUS (i : Nat) : FRef := ⟨PLAN_CH_STATUS i, 15, 8⟩
def PLAN_CH_STATUS.CFG_ERR (i : Nat) : FRef := ⟨PLAN_CH_STATUS i, 3, 3⟩
def PLAN_CH_STATUS.STATE (i : Nat) : FRef := ⟨PLAN_CH_STATUS i, 2, 0⟩

/-- PLAN_CH_CFG (08_motion_planner.md). -/
def PLAN_CH_CFG (i j : Nat) : Reg := ⟨0x10081040 + i * 0x200 + j * 0x8, planCfgReset j⟩
def PLAN_CH_CFG.WORD (i j : Nat) : FRef := ⟨PLAN_CH_CFG i j, 63, 0⟩

/-- PLAN_CH_START (08_motion_planner.md). -/
def PLAN_CH_START (i j : Nat) : Reg := ⟨0x100810C0 + i * 0x200 + j * 0x8, 0x0⟩
def PLAN_CH_START.WORD (i j : Nat) : FRef := ⟨PLAN_CH_START i j, 63, 0⟩

/-- DISP_RAST_CTRL (09_raster_display.md). -/
def DISP_RAST_CTRL : Reg := ⟨0x10090000, 0x7D000000000⟩
def DISP_RAST_CTRL.RESERVE_US : FRef := ⟨DISP_RAST_CTRL, 47, 32⟩
def DISP_RAST_CTRL.SLICE : FRef := ⟨DISP_RAST_CTRL, 13, 8⟩
def DISP_RAST_CTRL.LESSON_MASK : FRef := ⟨DISP_RAST_CTRL, 7, 4⟩
def DISP_RAST_CTRL.ENABLE : FRef := ⟨DISP_RAST_CTRL, 0, 0⟩

/-- DISP_RAST_RING (09_raster_display.md). -/
def DISP_RAST_RING : Reg := ⟨0x10090008, 0x0⟩
def DISP_RAST_RING.SIZE : FRef := ⟨DISP_RAST_RING, 43, 40⟩
def DISP_RAST_RING.BASE : FRef := ⟨DISP_RAST_RING, 35, 0⟩

/-- DISP_RAST_PTR (09_raster_display.md). -/
def DISP_RAST_PTR : Reg := ⟨0x10090010, 0x0⟩
def DISP_RAST_PTR.TAIL : FRef := ⟨DISP_RAST_PTR, 51, 32⟩
def DISP_RAST_PTR.HEAD : FRef := ⟨DISP_RAST_PTR, 19, 0⟩

/-- DISP_RAST_SPILL (09_raster_display.md). -/
def DISP_RAST_SPILL : Reg := ⟨0x10090018, 0x0⟩
def DISP_RAST_SPILL.SIZE_4K : FRef := ⟨DISP_RAST_SPILL, 63, 40⟩
def DISP_RAST_SPILL.BASE : FRef := ⟨DISP_RAST_SPILL, 35, 12⟩

/-- DISP_RAST_STATUS (09_raster_display.md). -/
def DISP_RAST_STATUS : Reg := ⟨0x10090020, 0x0⟩
def DISP_RAST_STATUS.PASSES : FRef := ⟨DISP_RAST_STATUS, 63, 32⟩
def DISP_RAST_STATUS.PARTIALS : FRef := ⟨DISP_RAST_STATUS, 31, 16⟩
def DISP_RAST_STATUS.ABANDONED : FRef := ⟨DISP_RAST_STATUS, 15, 8⟩
def DISP_RAST_STATUS.PHASE : FRef := ⟨DISP_RAST_STATUS, 1, 0⟩

/-- DISP_RAST_LESSON (09_raster_display.md). -/
def DISP_RAST_LESSON (i : Nat) : Reg := ⟨0x10090040 + i * 0x8, 0x0⟩
def DISP_RAST_LESSON.LESSON_ID (i : Nat) : FRef := ⟨DISP_RAST_LESSON i, 63, 0⟩

/-- DISP_PIPE_CTRL (09_raster_display.md). -/
def DISP_PIPE_CTRL (i : Nat) : Reg := ⟨0x10091000 + i * 0x400, 0x0⟩
def DISP_PIPE_CTRL.PCLK_KHZ (i : Nat) : FRef := ⟨DISP_PIPE_CTRL i, 43, 24⟩
def DISP_PIPE_CTRL.DSC_SLICES (i : Nat) : FRef := ⟨DISP_PIPE_CTRL i, 23, 22⟩
def DISP_PIPE_CTRL.DSC_BPP_X16 (i : Nat) : FRef := ⟨DISP_PIPE_CTRL i, 19, 12⟩
def DISP_PIPE_CTRL.DSC_EN (i : Nat) : FRef := ⟨DISP_PIPE_CTRL i, 11, 11⟩
def DISP_PIPE_CTRL.LANES (i : Nat) : FRef := ⟨DISP_PIPE_CTRL i, 10, 9⟩
def DISP_PIPE_CTRL.RATE (i : Nat) : FRef := ⟨DISP_PIPE_CTRL i, 8, 6⟩
def DISP_PIPE_CTRL.OUTPUT (i : Nat) : FRef := ⟨DISP_PIPE_CTRL i, 5, 5⟩
def DISP_PIPE_CTRL.ENABLE (i : Nat) : FRef := ⟨DISP_PIPE_CTRL i, 0, 0⟩

/-- DISP_PIPE_TIMING_H (09_raster_display.md). -/
def DISP_PIPE_TIMING_H (i : Nat) : Reg := ⟨0x10091008 + i * 0x400, 0x0⟩
def DISP_PIPE_TIMING_H.BACK (i : Nat) : FRef := ⟨DISP_PIPE_TIMING_H i, 63, 48⟩
def DISP_PIPE_TIMING_H.SYNC (i : Nat) : FRef := ⟨DISP_PIPE_TIMING_H i, 47, 32⟩
def DISP_PIPE_TIMING_H.FRONT (i : Nat) : FRef := ⟨DISP_PIPE_TIMING_H i, 31, 16⟩
def DISP_PIPE_TIMING_H.ACTIVE (i : Nat) : FRef := ⟨DISP_PIPE_TIMING_H i, 15, 0⟩

/-- DISP_PIPE_TIMING_V (09_raster_display.md). -/
def DISP_PIPE_TIMING_V (i : Nat) : Reg := ⟨0x10091010 + i * 0x400, 0x0⟩
def DISP_PIPE_TIMING_V.BACK (i : Nat) : FRef := ⟨DISP_PIPE_TIMING_V i, 63, 48⟩
def DISP_PIPE_TIMING_V.SYNC (i : Nat) : FRef := ⟨DISP_PIPE_TIMING_V i, 47, 32⟩
def DISP_PIPE_TIMING_V.FRONT (i : Nat) : FRef := ⟨DISP_PIPE_TIMING_V i, 31, 16⟩
def DISP_PIPE_TIMING_V.ACTIVE (i : Nat) : FRef := ⟨DISP_PIPE_TIMING_V i, 15, 0⟩

/-- DISP_PIPE_STATUS (09_raster_display.md). -/
def DISP_PIPE_STATUS (i : Nat) : Reg := ⟨0x10091018 + i * 0x400, 0x0⟩
def DISP_PIPE_STATUS.FRAMES (i : Nat) : FRef := ⟨DISP_PIPE_STATUS i, 63, 32⟩
def DISP_PIPE_STATUS.REPEATS (i : Nat) : FRef := ⟨DISP_PIPE_STATUS i, 31, 16⟩
def DISP_PIPE_STATUS.UNDERRUNS (i : Nat) : FRef := ⟨DISP_PIPE_STATUS i, 15, 8⟩
def DISP_PIPE_STATUS.LINK_UP (i : Nat) : FRef := ⟨DISP_PIPE_STATUS i, 1, 1⟩
def DISP_PIPE_STATUS.ACTIVE (i : Nat) : FRef := ⟨DISP_PIPE_STATUS i, 0, 0⟩

/-- DISP_PLANE_ADDR (09_raster_display.md). -/
def DISP_PLANE_ADDR (i j : Nat) : Reg := ⟨0x10091100 + i * 0x400 + j * 0x10, 0x0⟩
def DISP_PLANE_ADDR.POST (i j : Nat) : FRef := ⟨DISP_PLANE_ADDR i j, 63, 63⟩
def DISP_PLANE_ADDR.EXPECT (i j : Nat) : FRef := ⟨DISP_PLANE_ADDR i j, 62, 62⟩
def DISP_PLANE_ADDR.ADDR (i j : Nat) : FRef := ⟨DISP_PLANE_ADDR i j, 47, 0⟩

/-- DISP_PLANE_CFG (09_raster_display.md). -/
def DISP_PLANE_CFG (i j : Nat) : Reg := ⟨0x10091108 + i * 0x400 + j * 0x10, 0x0⟩
def DISP_PLANE_CFG.ENABLE (i j : Nat) : FRef := ⟨DISP_PLANE_CFG i j, 63, 63⟩
def DISP_PLANE_CFG.OPAQUE (i j : Nat) : FRef := ⟨DISP_PLANE_CFG i j, 62, 62⟩
def DISP_PLANE_CFG.FMT (i j : Nat) : FRef := ⟨DISP_PLANE_CFG i j, 61, 61⟩
def DISP_PLANE_CFG.STRIDE_64 (i j : Nat) : FRef := ⟨DISP_PLANE_CFG i j, 60, 48⟩
def DISP_PLANE_CFG.X (i j : Nat) : FRef := ⟨DISP_PLANE_CFG i j, 47, 36⟩
def DISP_PLANE_CFG.Y (i j : Nat) : FRef := ⟨DISP_PLANE_CFG i j, 35, 24⟩
def DISP_PLANE_CFG.W (i j : Nat) : FRef := ⟨DISP_PLANE_CFG i j, 23, 12⟩
def DISP_PLANE_CFG.H (i j : Nat) : FRef := ⟨DISP_PLANE_CFG i j, 11, 0⟩

/-- PROC_STATUS (10_safety_mechanisms.md). -/
def PROC_STATUS : Reg := ⟨0x100A0000, 0x0⟩
def PROC_STATUS.COMPARES : FRef := ⟨PROC_STATUS, 63, 32⟩
def PROC_STATUS.MISMATCHES : FRef := ⟨PROC_STATUS, 31, 16⟩
def PROC_STATUS.RUBRICS : FRef := ⟨PROC_STATUS, 4, 1⟩
def PROC_STATUS.FULL : FRef := ⟨PROC_STATUS, 0, 0⟩

/-- PROC_CMP_LOG (10_safety_mechanisms.md). -/
def PROC_CMP_LOG : Reg := ⟨0x100A0008, 0x0⟩
def PROC_CMP_LOG.VALID : FRef := ⟨PROC_CMP_LOG, 63, 63⟩
def PROC_CMP_LOG.STAGE_SEAT : FRef := ⟨PROC_CMP_LOG, 47, 40⟩
def PROC_CMP_LOG.STAGE : FRef := ⟨PROC_CMP_LOG, 39, 36⟩
def PROC_CMP_LOG.CLUSTER1 : FRef := ⟨PROC_CMP_LOG, 35, 32⟩
def PROC_CMP_LOG.CLUSTER0 : FRef := ⟨PROC_CMP_LOG, 31, 28⟩
def PROC_CMP_LOG.SLICE : FRef := ⟨PROC_CMP_LOG, 27, 22⟩
def PROC_CMP_LOG.GEN : FRef := ⟨PROC_CMP_LOG, 21, 16⟩
def PROC_CMP_LOG.TAG : FRef := ⟨PROC_CMP_LOG, 9, 0⟩

/-- PROC_CMP_SIG0 (10_safety_mechanisms.md). -/
def PROC_CMP_SIG0 : Reg := ⟨0x100A0010, 0x0⟩
def PROC_CMP_SIG0.S : FRef := ⟨PROC_CMP_SIG0, 63, 0⟩

/-- PROC_CMP_SIG1 (10_safety_mechanisms.md). -/
def PROC_CMP_SIG1 : Reg := ⟨0x100A0018, 0x0⟩
def PROC_CMP_SIG1.S : FRef := ⟨PROC_CMP_SIG1, 63, 0⟩

/-- ROLL_STR_CFG (10_safety_mechanisms.md). -/
def ROLL_STR_CFG (i : Nat) : Reg := ⟨0x100B0000 + i * 0x20, 0xC35030000100000⟩
def ROLL_STR_CFG.STALE_US (i : Nat) : FRef := ⟨ROLL_STR_CFG i, 63, 44⟩
def ROLL_STR_CFG.K (i : Nat) : FRef := ⟨ROLL_STR_CFG i, 43, 40⟩
def ROLL_STR_CFG.EMB_OFFSET (i : Nat) : FRef := ⟨ROLL_STR_CFG i, 33, 24⟩
def ROLL_STR_CFG.EMB_BYTES (i : Nat) : FRef := ⟨ROLL_STR_CFG i, 23, 22⟩
def ROLL_STR_CFG.EMB_BE (i : Nat) : FRef := ⟨ROLL_STR_CFG i, 21, 21⟩
def ROLL_STR_CFG.SIG_COUNTER (i : Nat) : FRef := ⟨ROLL_STR_CFG i, 20, 20⟩
def ROLL_STR_CFG.ENABLE (i : Nat) : FRef := ⟨ROLL_STR_CFG i, 0, 0⟩

/-- ROLL_STR_GRID (10_safety_mechanisms.md). -/
def ROLL_STR_GRID (i : Nat) : Reg := ⟨0x100B0008 + i * 0x20, 0x10100000000⟩
def ROLL_STR_GRID.COUNT_Y (i : Nat) : FRef := ⟨ROLL_STR_GRID i, 63, 56⟩
def ROLL_STR_GRID.COUNT_X (i : Nat) : FRef := ⟨ROLL_STR_GRID i, 55, 48⟩
def ROLL_STR_GRID.STEP_Y (i : Nat) : FRef := ⟨ROLL_STR_GRID i, 47, 40⟩
def ROLL_STR_GRID.STEP_X (i : Nat) : FRef := ⟨ROLL_STR_GRID i, 39, 32⟩
def ROLL_STR_GRID.Y0 (i : Nat) : FRef := ⟨ROLL_STR_GRID i, 31, 16⟩
def ROLL_STR_GRID.X0 (i : Nat) : FRef := ⟨ROLL_STR_GRID i, 15, 0⟩

/-- ROLL_STR_STATUS (10_safety_mechanisms.md). -/
def ROLL_STR_STATUS (i : Nat) : Reg := ⟨0x100B0010 + i * 0x20, 0x0⟩
def ROLL_STR_STATUS.LAST_COUNTER (i : Nat) : FRef := ⟨ROLL_STR_STATUS i, 63, 32⟩
def ROLL_STR_STATUS.BAD_FRAMES (i : Nat) : FRef := ⟨ROLL_STR_STATUS i, 31, 24⟩
def ROLL_STR_STATUS.SAME_RUN (i : Nat) : FRef := ⟨ROLL_STR_STATUS i, 23, 20⟩
def ROLL_STR_STATUS.FROZEN (i : Nat) : FRef := ⟨ROLL_STR_STATUS i, 3, 3⟩
def ROLL_STR_STATUS.STALE (i : Nat) : FRef := ⟨ROLL_STR_STATUS i, 2, 2⟩
def ROLL_STR_STATUS.SEEN (i : Nat) : FRef := ⟨ROLL_STR_STATUS i, 1, 1⟩

/-- ROLL_STR_SIG (10_safety_mechanisms.md). -/
def ROLL_STR_SIG (i : Nat) : Reg := ⟨0x100B0018 + i * 0x20, 0x0⟩
def ROLL_STR_SIG.LAST_SIG (i : Nat) : FRef := ⟨ROLL_STR_SIG i, 63, 0⟩

/-- FCU_CTRL (11_fault_collection.md). -/
def FCU_CTRL : Reg := ⟨0x10000000, 0x3E800000000⟩
def FCU_CTRL.ALIVE_HZ : FRef := ⟨FCU_CTRL, 47, 32⟩
def FCU_CTRL.FREEZE_ON_CRIT : FRef := ⟨FCU_CTRL, 1, 1⟩
def FCU_CTRL.LOCK : FRef := ⟨FCU_CTRL, 0, 0⟩

/-- FCU_SUMMARY (11_fault_collection.md). -/
def FCU_SUMMARY : Reg := ⟨0x10000008, 0x0⟩
def FCU_SUMMARY.CLR_IGNORED : FRef := ⟨FCU_SUMMARY, 63, 48⟩
def FCU_SUMMARY.FIRST_CRIT_VALID : FRef := ⟨FCU_SUMMARY, 41, 41⟩
def FCU_SUMMARY.FIRST_CRIT : FRef := ⟨FCU_SUMMARY, 40, 32⟩
def FCU_SUMMARY.SELFCHECK_FAIL : FRef := ⟨FCU_SUMMARY, 7, 7⟩
def FCU_SUMMARY.ALIVE_STOPPED : FRef := ⟨FCU_SUMMARY, 6, 6⟩
def FCU_SUMMARY.SAFE1 : FRef := ⟨FCU_SUMMARY, 5, 5⟩
def FCU_SUMMARY.SAFE0 : FRef := ⟨FCU_SUMMARY, 4, 4⟩
def FCU_SUMMARY.IRQ : FRef := ⟨FCU_SUMMARY, 3, 3⟩
def FCU_SUMMARY.ANY : FRef := ⟨FCU_SUMMARY, 2, 2⟩
def FCU_SUMMARY.HIGHEST : FRef := ⟨FCU_SUMMARY, 1, 0⟩

/-- FCU_LOG_PTR (11_fault_collection.md). -/
def FCU_LOG_PTR : Reg := ⟨0x10000010, 0x0⟩
def FCU_LOG_PTR.DROPPED : FRef := ⟨FCU_LOG_PTR, 63, 48⟩
def FCU_LOG_PTR.FROZEN : FRef := ⟨FCU_LOG_PTR, 32, 32⟩
def FCU_LOG_PTR.LAPS : FRef := ⟨FCU_LOG_PTR, 31, 12⟩
def FCU_LOG_PTR.WR_IDX : FRef := ⟨FCU_LOG_PTR, 11, 0⟩

/-- FCU_SW_RAISE (11_fault_collection.md). -/
def FCU_SW_RAISE : Reg := ⟨0x10000018, 0x0⟩
def FCU_SW_RAISE.GO : FRef := ⟨FCU_SW_RAISE, 4, 4⟩
def FCU_SW_RAISE.SEL : FRef := ⟨FCU_SW_RAISE, 3, 0⟩

/-- FCU_SRC_STATUS (11_fault_collection.md). -/
def FCU_SRC_STATUS (i : Nat) : Reg := ⟨0x10000100 + i * 0x8, 0x0⟩
def FCU_SRC_STATUS.STATUS (i : Nat) : FRef := ⟨FCU_SRC_STATUS i, 63, 0⟩

/-- FCU_SRC_ACK (11_fault_collection.md). -/
def FCU_SRC_ACK (i : Nat) : Reg := ⟨0x10000200 + i * 0x8, 0x0⟩
def FCU_SRC_ACK.ACK (i : Nat) : FRef := ⟨FCU_SRC_ACK i, 63, 0⟩

/-- FCU_SRC_CFG (11_fault_collection.md). -/
def FCU_SRC_CFG (i : Nat) : Reg := ⟨0x10001000 + i * 0x8, srcCfgReset i⟩
def FCU_SRC_CFG.W_MS (i : Nat) : FRef := ⟨FCU_SRC_CFG i, 63, 48⟩
def FCU_SRC_CFG.N (i : Nat) : FRef := ⟨FCU_SRC_CFG i, 47, 40⟩
def FCU_SRC_CFG.REACT (i : Nat) : FRef := ⟨FCU_SRC_CFG i, 39, 36⟩
def FCU_SRC_CFG.DEFAULT_CLASS (i : Nat) : FRef := ⟨FCU_SRC_CFG i, 3, 2⟩
def FCU_SRC_CFG.CLASS (i : Nat) : FRef := ⟨FCU_SRC_CFG i, 1, 0⟩

/-- FCU_SRC_STATE (11_fault_collection.md). -/
def FCU_SRC_STATE (i : Nat) : Reg := ⟨0x10002000 + i * 0x8, 0x0⟩
def FCU_SRC_STATE.EVENTS (i : Nat) : FRef := ⟨FCU_SRC_STATE i, 63, 48⟩
def FCU_SRC_STATE.WIN_COUNT (i : Nat) : FRef := ⟨FCU_SRC_STATE i, 39, 32⟩
def FCU_SRC_STATE.ASSERTING (i : Nat) : FRef := ⟨FCU_SRC_STATE i, 28, 28⟩
def FCU_SRC_STATE.PROMOTE (i : Nat) : FRef := ⟨FCU_SRC_STATE i, 27, 27⟩
def FCU_SRC_STATE.RAISED_CLASS (i : Nat) : FRef := ⟨FCU_SRC_STATE i, 25, 24⟩

/-- FCU_LOG (11_fault_collection.md). -/
def FCU_LOG (i : Nat) : Reg := ⟨0x10008000 + i * 0x8, 0x0⟩
def FCU_LOG.ENTRY (i : Nat) : FRef := ⟨FCU_LOG i, 63, 0⟩

/-- HUB_VIOL_ADDR (11_fault_collection.md). -/
def HUB_VIOL_ADDR : Reg := ⟨0xFF00100, 0x0⟩
def HUB_VIOL_ADDR.VALID : FRef := ⟨HUB_VIOL_ADDR, 63, 63⟩
def HUB_VIOL_ADDR.WRITE : FRef := ⟨HUB_VIOL_ADDR, 48, 48⟩
def HUB_VIOL_ADDR.ADDR : FRef := ⟨HUB_VIOL_ADDR, 47, 0⟩

/-- HUB_VIOL_INFO (11_fault_collection.md). -/
def HUB_VIOL_INFO : Reg := ⟨0xFF00108, 0x0⟩
def HUB_VIOL_INFO.COUNT : FRef := ⟨HUB_VIOL_INFO, 63, 48⟩
def HUB_VIOL_INFO.SLICE_VALID : FRef := ⟨HUB_VIOL_INFO, 38, 38⟩
def HUB_VIOL_INFO.SLICE : FRef := ⟨HUB_VIOL_INFO, 37, 32⟩
def HUB_VIOL_INFO.REASON : FRef := ⟨HUB_VIOL_INFO, 19, 16⟩
def HUB_VIOL_INFO.INITIATOR : FRef := ⟨HUB_VIOL_INFO, 15, 0⟩

/-- CORE_VIOL_ADDR (11_fault_collection.md). -/
def CORE_VIOL_ADDR (i j : Nat) : Reg := ⟨0x20002000 + i * 0x10000 + j * 0x10, 0x0⟩
def CORE_VIOL_ADDR.VALID (i j : Nat) : FRef := ⟨CORE_VIOL_ADDR i j, 63, 63⟩
def CORE_VIOL_ADDR.WRITE (i j : Nat) : FRef := ⟨CORE_VIOL_ADDR i j, 48, 48⟩
def CORE_VIOL_ADDR.ADDR (i j : Nat) : FRef := ⟨CORE_VIOL_ADDR i j, 47, 0⟩

/-- CORE_VIOL_INFO (11_fault_collection.md). -/
def CORE_VIOL_INFO (i j : Nat) : Reg := ⟨0x20002008 + i * 0x10000 + j * 0x10, 0x0⟩
def CORE_VIOL_INFO.COUNT (i j : Nat) : FRef := ⟨CORE_VIOL_INFO i j, 63, 48⟩
def CORE_VIOL_INFO.SLICE_VALID (i j : Nat) : FRef := ⟨CORE_VIOL_INFO i j, 38, 38⟩
def CORE_VIOL_INFO.SLICE (i j : Nat) : FRef := ⟨CORE_VIOL_INFO i j, 37, 32⟩
def CORE_VIOL_INFO.REASON (i j : Nat) : FRef := ⟨CORE_VIOL_INFO i j, 19, 16⟩
def CORE_VIOL_INFO.INITIATOR (i j : Nat) : FRef := ⟨CORE_VIOL_INFO i j, 15, 0⟩

/-- CLC_VIOL_ADDR (11_fault_collection.md). -/
def CLC_VIOL_ADDR (i : Nat) : Reg := ⟨0x20002080 + i * 0x10000, 0x0⟩
def CLC_VIOL_ADDR.VALID (i : Nat) : FRef := ⟨CLC_VIOL_ADDR i, 63, 63⟩
def CLC_VIOL_ADDR.WRITE (i : Nat) : FRef := ⟨CLC_VIOL_ADDR i, 48, 48⟩
def CLC_VIOL_ADDR.ADDR (i : Nat) : FRef := ⟨CLC_VIOL_ADDR i, 47, 0⟩

/-- CLC_VIOL_INFO (11_fault_collection.md). -/
def CLC_VIOL_INFO (i : Nat) : Reg := ⟨0x20002088 + i * 0x10000, 0x0⟩
def CLC_VIOL_INFO.COUNT (i : Nat) : FRef := ⟨CLC_VIOL_INFO i, 63, 48⟩
def CLC_VIOL_INFO.SLICE_VALID (i : Nat) : FRef := ⟨CLC_VIOL_INFO i, 38, 38⟩
def CLC_VIOL_INFO.SLICE (i : Nat) : FRef := ⟨CLC_VIOL_INFO i, 37, 32⟩
def CLC_VIOL_INFO.REASON (i : Nat) : FRef := ⟨CLC_VIOL_INFO i, 19, 16⟩
def CLC_VIOL_INFO.INITIATOR (i : Nat) : FRef := ⟨CLC_VIOL_INFO i, 15, 0⟩

/-- WMARK_VIOL_ADDR (11_fault_collection.md). -/
def WMARK_VIOL_ADDR : Reg := ⟨0x100F0020, 0x0⟩
def WMARK_VIOL_ADDR.VALID : FRef := ⟨WMARK_VIOL_ADDR, 63, 63⟩
def WMARK_VIOL_ADDR.WRITE : FRef := ⟨WMARK_VIOL_ADDR, 48, 48⟩
def WMARK_VIOL_ADDR.ADDR : FRef := ⟨WMARK_VIOL_ADDR, 47, 0⟩

/-- WMARK_VIOL_INFO (11_fault_collection.md). -/
def WMARK_VIOL_INFO : Reg := ⟨0x100F0028, 0x0⟩
def WMARK_VIOL_INFO.COUNT : FRef := ⟨WMARK_VIOL_INFO, 63, 48⟩
def WMARK_VIOL_INFO.SLICE_VALID : FRef := ⟨WMARK_VIOL_INFO, 38, 38⟩
def WMARK_VIOL_INFO.SLICE : FRef := ⟨WMARK_VIOL_INFO, 37, 32⟩
def WMARK_VIOL_INFO.REASON : FRef := ⟨WMARK_VIOL_INFO, 19, 16⟩
def WMARK_VIOL_INFO.INITIATOR : FRef := ⟨WMARK_VIOL_INFO, 15, 0⟩

/-- SEC_STATE (12_worlds_identity.md). -/
def SEC_STATE : Reg := ⟨0x10020000, 0x1⟩
def SEC_STATE.RESTARTS : FRef := ⟨SEC_STATE, 63, 48⟩
def SEC_STATE.DBG_S_INV : FRef := ⟨SEC_STATE, 39, 39⟩
def SEC_STATE.DBG_S_NONINV : FRef := ⟨SEC_STATE, 38, 38⟩
def SEC_STATE.DBG_NS_INV : FRef := ⟨SEC_STATE, 37, 37⟩
def SEC_STATE.DBG_NS_NONINV : FRef := ⟨SEC_STATE, 36, 36⟩
def SEC_STATE.LIFECYCLE : FRef := ⟨SEC_STATE, 18, 16⟩
def SEC_STATE.SC_STATE : FRef := ⟨SEC_STATE, 2, 1⟩
def SEC_STATE.SEALED : FRef := ⟨SEC_STATE, 0, 0⟩

/-- SECMB_CH_REQ (12_worlds_identity.md). -/
def SECMB_CH_REQ (i : Nat) : Reg := ⟨0x10020100 + i * 0x10, 0x0⟩
def SECMB_CH_REQ.GO (i : Nat) : FRef := ⟨SECMB_CH_REQ i, 63, 63⟩
def SECMB_CH_REQ.ADDR (i : Nat) : FRef := ⟨SECMB_CH_REQ i, 47, 0⟩

/-- SECMB_CH_RSP (12_worlds_identity.md). -/
def SECMB_CH_RSP (i : Nat) : Reg := ⟨0x10020108 + i * 0x10, 0x0⟩
def SECMB_CH_RSP.BUSY (i : Nat) : FRef := ⟨SECMB_CH_RSP i, 63, 63⟩
def SECMB_CH_RSP.DONE (i : Nat) : FRef := ⟨SECMB_CH_RSP i, 62, 62⟩
def SECMB_CH_RSP.STATUS (i : Nat) : FRef := ⟨SECMB_CH_RSP i, 15, 0⟩

/-- APC_LLC_PART (12_worlds_identity.md). -/
def APC_LLC_PART : Reg := ⟨0xF108000, 0x0⟩
def APC_LLC_PART.LOCK : FRef := ⟨APC_LLC_PART, 63, 63⟩
def APC_LLC_PART.SECURE_WAYS : FRef := ⟨APC_LLC_PART, 15, 0⟩

/-- PMC_SEC_HOLD (12_worlds_identity.md). -/
def PMC_SEC_HOLD : Reg := ⟨0x10010400, 0x0⟩
def PMC_SEC_HOLD.ROLL : FRef := ⟨PMC_SEC_HOLD, 14, 14⟩
def PMC_SEC_HOLD.PAIR : FRef := ⟨PMC_SEC_HOLD, 13, 13⟩
def PMC_SEC_HOLD.PCIE : FRef := ⟨PMC_SEC_HOLD, 12, 12⟩
def PMC_SEC_HOLD.PLAN : FRef := ⟨PMC_SEC_HOLD, 11, 11⟩
def PMC_SEC_HOLD.DISP_PIPE : FRef := ⟨PMC_SEC_HOLD, 10, 7⟩
def PMC_SEC_HOLD.RAST : FRef := ⟨PMC_SEC_HOLD, 6, 6⟩
def PMC_SEC_HOLD.MEMC : FRef := ⟨PMC_SEC_HOLD, 5, 5⟩
def PMC_SEC_HOLD.APC : FRef := ⟨PMC_SEC_HOLD, 4, 2⟩
def PMC_SEC_HOLD.CD : FRef := ⟨PMC_SEC_HOLD, 1, 0⟩

/-- PMC_HOLD_LOG (12_worlds_identity.md). -/
def PMC_HOLD_LOG : Reg := ⟨0x10010408, 0x0⟩
def PMC_HOLD_LOG.VALID : FRef := ⟨PMC_HOLD_LOG, 63, 63⟩
def PMC_HOLD_LOG.COUNT : FRef := ⟨PMC_HOLD_LOG, 62, 48⟩
def PMC_HOLD_LOG.UNIT : FRef := ⟨PMC_HOLD_LOG, 35, 32⟩
def PMC_HOLD_LOG.POWER : FRef := ⟨PMC_HOLD_LOG, 16, 16⟩
def PMC_HOLD_LOG.INITIATOR : FRef := ⟨PMC_HOLD_LOG, 15, 0⟩

/-- MLMB_MB_STATUS (13_firmware_mladnel.md). -/
def MLMB_MB_STATUS (i : Nat) : Reg := ⟨0x10030000 + i * 0x10, 0x0⟩
def MLMB_MB_STATUS.EVENTS_DROPPED (i : Nat) : FRef := ⟨MLMB_MB_STATUS i, 63, 48⟩
def MLMB_MB_STATUS.EXPECT_SEQ (i : Nat) : FRef := ⟨MLMB_MB_STATUS i, 47, 32⟩
def MLMB_MB_STATUS.VERSION (i : Nat) : FRef := ⟨MLMB_MB_STATUS i, 31, 16⟩
def MLMB_MB_STATUS.NEGOTIATED (i : Nat) : FRef := ⟨MLMB_MB_STATUS i, 0, 0⟩

/-- MLMB_MB_FEATURES (13_firmware_mladnel.md). -/
def MLMB_MB_FEATURES (i : Nat) : Reg := ⟨0x10030008 + i * 0x10, 0x0⟩
def MLMB_MB_FEATURES.FEATURES (i : Nat) : FRef := ⟨MLMB_MB_FEATURES i, 63, 0⟩

/-- MLMB_PRIV_OWNER (13_firmware_mladnel.md). -/
def MLMB_PRIV_OWNER (i : Nat) : Reg := ⟨0x10030800 + i * 0x8, 0xFFFF0000⟩
def MLMB_PRIV_OWNER.LOCK (i : Nat) : FRef := ⟨MLMB_PRIV_OWNER i, 63, 63⟩
def MLMB_PRIV_OWNER.ENABLE (i : Nat) : FRef := ⟨MLMB_PRIV_OWNER i, 32, 32⟩
def MLMB_PRIV_OWNER.MASK (i : Nat) : FRef := ⟨MLMB_PRIV_OWNER i, 31, 16⟩
def MLMB_PRIV_OWNER.INITIATOR (i : Nat) : FRef := ⟨MLMB_PRIV_OWNER i, 15, 0⟩

/-- MLMB_FW_STATE (13_firmware_mladnel.md). -/
def MLMB_FW_STATE : Reg := ⟨0x10030900, 0x0⟩
def MLMB_FW_STATE.CCC : FRef := ⟨MLMB_FW_STATE, 63, 32⟩
def MLMB_FW_STATE.REGISTRAR : FRef := ⟨MLMB_FW_STATE, 5, 4⟩
def MLMB_FW_STATE.PMC : FRef := ⟨MLMB_FW_STATE, 3, 2⟩
def MLMB_FW_STATE.PROCTOR : FRef := ⟨MLMB_FW_STATE, 1, 0⟩

/-- MLMB_FW_RESTARTS (13_firmware_mladnel.md). -/
def MLMB_FW_RESTARTS : Reg := ⟨0x10030908, 0x0⟩
def MLMB_FW_RESTARTS.REGISTRAR : FRef := ⟨MLMB_FW_RESTARTS, 31, 16⟩
def MLMB_FW_RESTARTS.PMC : FRef := ⟨MLMB_FW_RESTARTS, 15, 0⟩

/-- MLMB_CCC_RESTARTS (13_firmware_mladnel.md). -/
def MLMB_CCC_RESTARTS : Reg := ⟨0x10030910, 0x0⟩
def MLMB_CCC_RESTARTS.COUNT : FRef := ⟨MLMB_CCC_RESTARTS, 63, 0⟩

/-- BRG_CTRL (15_bridges_pair_link.md). -/
def BRG_CTRL (i : Nat) : Reg := ⟨bridgeBase i + 0x0, bridgeReadTimeout i * 2 ^ 32⟩
def BRG_CTRL.READ_TIMEOUT_US (i : Nat) : FRef := ⟨BRG_CTRL i, 47, 32⟩
def BRG_CTRL.FORCE_MSG (i : Nat) : FRef := ⟨BRG_CTRL i, 0, 0⟩

/-- BRG_STATUS (15_bridges_pair_link.md). -/
def BRG_STATUS (i : Nat) : Reg := ⟨bridgeBase i + 0x8, 0x1000002 + (if i = 0 then 1 else 0)⟩
def BRG_STATUS.READ_TIMEOUTS (i : Nat) : FRef := ⟨BRG_STATUS i, 63, 48⟩
def BRG_STATUS.LOCK_TIMEOUTS (i : Nat) : FRef := ⟨BRG_STATUS i, 47, 32⟩
def BRG_STATUS.TAGS_FREE (i : Nat) : FRef := ⟨BRG_STATUS i, 24, 16⟩
def BRG_STATUS.MSG_MODE (i : Nat) : FRef := ⟨BRG_STATUS i, 1, 1⟩
def BRG_STATUS.LINK_UP (i : Nat) : FRef := ⟨BRG_STATUS i, 0, 0⟩

/-- BRG_BARRIER (15_bridges_pair_link.md). -/
def BRG_BARRIER (i : Nat) : Reg := ⟨bridgeBase i + 0x10, 0x0⟩
def BRG_BARRIER.ERR (i : Nat) : FRef := ⟨BRG_BARRIER i, 63, 63⟩
def BRG_BARRIER.ENTRIES (i : Nat) : FRef := ⟨BRG_BARRIER i, 6, 0⟩

/-- BRG_PEL_STATUS (15_bridges_pair_link.md). -/
def BRG_PEL_STATUS (i : Nat) : Reg := ⟨bridgeBase i + 0x18, 0x0⟩
def BRG_PEL_STATUS.OVERFLOW (i : Nat) : FRef := ⟨BRG_PEL_STATUS i, 63, 48⟩
def BRG_PEL_STATUS.CLEAR (i : Nat) : FRef := ⟨BRG_PEL_STATUS i, 0, 0⟩

/-- BRG_VIOL_ADDR (11_fault_collection.md). -/
def BRG_VIOL_ADDR (i : Nat) : Reg := ⟨bridgeBase i + 0x20, 0x0⟩
def BRG_VIOL_ADDR.VALID (i : Nat) : FRef := ⟨BRG_VIOL_ADDR i, 63, 63⟩
def BRG_VIOL_ADDR.WRITE (i : Nat) : FRef := ⟨BRG_VIOL_ADDR i, 48, 48⟩
def BRG_VIOL_ADDR.ADDR (i : Nat) : FRef := ⟨BRG_VIOL_ADDR i, 47, 0⟩

/-- BRG_VIOL_INFO (11_fault_collection.md). -/
def BRG_VIOL_INFO (i : Nat) : Reg := ⟨bridgeBase i + 0x28, 0x0⟩
def BRG_VIOL_INFO.COUNT (i : Nat) : FRef := ⟨BRG_VIOL_INFO i, 63, 48⟩
def BRG_VIOL_INFO.SLICE_VALID (i : Nat) : FRef := ⟨BRG_VIOL_INFO i, 38, 38⟩
def BRG_VIOL_INFO.SLICE (i : Nat) : FRef := ⟨BRG_VIOL_INFO i, 37, 32⟩
def BRG_VIOL_INFO.REASON (i : Nat) : FRef := ⟨BRG_VIOL_INFO i, 19, 16⟩
def BRG_VIOL_INFO.INITIATOR (i : Nat) : FRef := ⟨BRG_VIOL_INFO i, 15, 0⟩

/-- BRG_PEL_ADDR (15_bridges_pair_link.md). -/
def BRG_PEL_ADDR (i j : Nat) : Reg := ⟨bridgeBase i + 0x100 + j * 0x10, 0x0⟩
def BRG_PEL_ADDR.VALID (i j : Nat) : FRef := ⟨BRG_PEL_ADDR i j, 63, 63⟩
def BRG_PEL_ADDR.TAG (i j : Nat) : FRef := ⟨BRG_PEL_ADDR i j, 55, 48⟩
def BRG_PEL_ADDR.ADDR (i j : Nat) : FRef := ⟨BRG_PEL_ADDR i j, 47, 0⟩

/-- BRG_PEL_INFO (15_bridges_pair_link.md). -/
def BRG_PEL_INFO (i j : Nat) : Reg := ⟨bridgeBase i + 0x108 + j * 0x10, 0x0⟩
def BRG_PEL_INFO.TIME_US (i j : Nat) : FRef := ⟨BRG_PEL_INFO i j, 63, 32⟩
def BRG_PEL_INFO.REASON (i j : Nat) : FRef := ⟨BRG_PEL_INFO i j, 19, 16⟩
def BRG_PEL_INFO.INITIATOR (i j : Nat) : FRef := ⟨BRG_PEL_INFO i j, 15, 0⟩

/-- PAIR_OUT_CFG (15_bridges_pair_link.md). -/
def PAIR_OUT_CFG (i : Nat) : Reg := ⟨0x100D0600 + i * 0x10, 0x0⟩
def PAIR_OUT_CFG.ENABLE (i : Nat) : FRef := ⟨PAIR_OUT_CFG i, 63, 63⟩
def PAIR_OUT_CFG.SIZE_1M (i : Nat) : FRef := ⟨PAIR_OUT_CFG i, 32, 16⟩
def PAIR_OUT_CFG.OFFSET_1M (i : Nat) : FRef := ⟨PAIR_OUT_CFG i, 15, 0⟩

/-- PAIR_OUT_REMOTE (15_bridges_pair_link.md). -/
def PAIR_OUT_REMOTE (i : Nat) : Reg := ⟨0x100D0608 + i * 0x10, 0x0⟩
def PAIR_OUT_REMOTE.REMOTE (i : Nat) : FRef := ⟨PAIR_OUT_REMOTE i, 47, 20⟩

/-- PAIR_IN_BASE (15_bridges_pair_link.md). -/
def PAIR_IN_BASE (i : Nat) : Reg := ⟨0x100D0700 + i * 0x10, 0x0⟩
def PAIR_IN_BASE.BASE (i : Nat) : FRef := ⟨PAIR_IN_BASE i, 47, 20⟩

/-- PAIR_IN_CFG (15_bridges_pair_link.md). -/
def PAIR_IN_CFG (i : Nat) : Reg := ⟨0x100D0708 + i * 0x10, 0x0⟩
def PAIR_IN_CFG.ENABLE (i : Nat) : FRef := ⟨PAIR_IN_CFG i, 63, 63⟩
def PAIR_IN_CFG.WRITE_OK (i : Nat) : FRef := ⟨PAIR_IN_CFG i, 62, 62⟩
def PAIR_IN_CFG.READ_OK (i : Nat) : FRef := ⟨PAIR_IN_CFG i, 61, 61⟩
def PAIR_IN_CFG.SLICE_VALID (i : Nat) : FRef := ⟨PAIR_IN_CFG i, 38, 38⟩
def PAIR_IN_CFG.SLICE (i : Nat) : FRef := ⟨PAIR_IN_CFG i, 37, 32⟩
def PAIR_IN_CFG.SIZE_1M (i : Nat) : FRef := ⟨PAIR_IN_CFG i, 16, 0⟩

/-- PAIR_ALIVE (15_bridges_pair_link.md). -/
def PAIR_ALIVE : Reg := ⟨0x100D0800, 0x32001388⟩
def PAIR_ALIVE.EDGES : FRef := ⟨PAIR_ALIVE, 63, 32⟩
def PAIR_ALIVE.START_10MS : FRef := ⟨PAIR_ALIVE, 31, 24⟩
def PAIR_ALIVE.LOCK : FRef := ⟨PAIR_ALIVE, 17, 17⟩
def PAIR_ALIVE.LOST : FRef := ⟨PAIR_ALIVE, 16, 16⟩
def PAIR_ALIVE.TIMEOUT_US : FRef := ⟨PAIR_ALIVE, 15, 0⟩

/-- QMGR_SEL (16_gateway_time.md). -/
def QMGR_SEL : Reg := ⟨0x10040000, 0x0⟩
def QMGR_SEL.QUEUE : FRef := ⟨QMGR_SEL, 15, 0⟩

/-- QMGR_QBASE (16_gateway_time.md). -/
def QMGR_QBASE : Reg := ⟨0x10040008, 0x0⟩
def QMGR_QBASE.BASE : FRef := ⟨QMGR_QBASE, 47, 6⟩

/-- QMGR_QCFG (16_gateway_time.md). -/
def QMGR_QCFG : Reg := ⟨0x10040010, 0x0⟩
def QMGR_QCFG.DROPPED : FRef := ⟨QMGR_QCFG, 63, 48⟩
def QMGR_QCFG.VECTOR : FRef := ⟨QMGR_QCFG, 35, 24⟩
def QMGR_QCFG.ARMED : FRef := ⟨QMGR_QCFG, 23, 23⟩
def QMGR_QCFG.OWNER_VALID : FRef := ⟨QMGR_QCFG, 22, 22⟩
def QMGR_QCFG.OWNER : FRef := ⟨QMGR_QCFG, 21, 16⟩
def QMGR_QCFG.ENABLE : FRef := ⟨QMGR_QCFG, 15, 15⟩
def QMGR_QCFG.ENTRY : FRef := ⟨QMGR_QCFG, 14, 13⟩
def QMGR_QCFG.LOG2_SIZE : FRef := ⟨QMGR_QCFG, 12, 8⟩
def QMGR_QCFG.SLOT_LOG2 : FRef := ⟨QMGR_QCFG, 7, 4⟩
def QMGR_QCFG.HOST_TX : FRef := ⟨QMGR_QCFG, 3, 3⟩

/-- QMGR_QPTR (16_gateway_time.md). -/
def QMGR_QPTR : Reg := ⟨0x10040018, 0x0⟩
def QMGR_QPTR.PROD : FRef := ⟨QMGR_QPTR, 63, 32⟩
def QMGR_QPTR.CONS : FRef := ⟨QMGR_QPTR, 31, 0⟩

/-- QMGR_QCELLS (16_gateway_time.md). -/
def QMGR_QCELLS : Reg := ⟨0x10040020, 0x0⟩
def QMGR_QCELLS.USED : FRef := ⟨QMGR_QCELLS, 47, 32⟩
def QMGR_QCELLS.MAX_CELLS : FRef := ⟨QMGR_QCELLS, 31, 16⟩
def QMGR_QCELLS.MIN_CELLS : FRef := ⟨QMGR_QCELLS, 15, 0⟩

/-- QMGR_DOORBELL (16_gateway_time.md). -/
def QMGR_DOORBELL : Reg := ⟨0x10040040, 0x0⟩
def QMGR_DOORBELL.SIDE : FRef := ⟨QMGR_DOORBELL, 63, 63⟩
def QMGR_DOORBELL.ARM : FRef := ⟨QMGR_DOORBELL, 62, 62⟩
def QMGR_DOORBELL.QUEUE : FRef := ⟨QMGR_DOORBELL, 47, 32⟩
def QMGR_DOORBELL.COUNT : FRef := ⟨QMGR_DOORBELL, 31, 0⟩

/-- QMGR_POOL (16_gateway_time.md). -/
def QMGR_POOL : Reg := ⟨0x10040048, 0x2001000000010000⟩
def QMGR_POOL.LOW_CELLS : FRef := ⟨QMGR_POOL, 63, 49⟩
def QMGR_POOL.SHARED_FREE : FRef := ⟨QMGR_POOL, 48, 32⟩
def QMGR_POOL.FREE : FRef := ⟨QMGR_POOL, 16, 0⟩

/-- GW_PORT_CFG (16_gateway_time.md). -/
def GW_PORT_CFG (i : Nat) : Reg := ⟨0x10050000 + i * 0x40, 0x5F2000004000⟩
def GW_PORT_CFG.MTU (i : Nat) : FRef := ⟨GW_PORT_CFG i, 49, 36⟩
def GW_PORT_CFG.DEFAULT_QUEUE (i : Nat) : FRef := ⟨GW_PORT_CFG i, 34, 20⟩
def GW_PORT_CFG.DEFAULT (i : Nat) : FRef := ⟨GW_PORT_CFG i, 19, 18⟩
def GW_PORT_CFG.UNTAGGED_PCP (i : Nat) : FRef := ⟨GW_PORT_CFG i, 17, 15⟩
def GW_PORT_CFG.CUT_THROUGH (i : Nat) : FRef := ⟨GW_PORT_CFG i, 14, 14⟩
def GW_PORT_CFG.FEC (i : Nat) : FRef := ⟨GW_PORT_CFG i, 13, 12⟩
def GW_PORT_CFG.SPEED (i : Nat) : FRef := ⟨GW_PORT_CFG i, 11, 10⟩
def GW_PORT_CFG.LINK (i : Nat) : FRef := ⟨GW_PORT_CFG i, 1, 1⟩
def GW_PORT_CFG.ENABLE (i : Nat) : FRef := ⟨GW_PORT_CFG i, 0, 0⟩

/-- GW_ADMIN (16_gateway_time.md). -/
def GW_ADMIN : Reg := ⟨0x10050FF0, 0xFFFF0000⟩
def GW_ADMIN.LOCK : FRef := ⟨GW_ADMIN, 63, 63⟩
def GW_ADMIN.ENABLE : FRef := ⟨GW_ADMIN, 32, 32⟩
def GW_ADMIN.MASK : FRef := ⟨GW_ADMIN, 31, 16⟩
def GW_ADMIN.INITIATOR : FRef := ⟨GW_ADMIN, 15, 0⟩

/-- GW_GCT_CTRL (16_gateway_time.md). -/
def GW_GCT_CTRL : Reg := ⟨0x10051000, 0x0⟩
def GW_GCT_CTRL.GO : FRef := ⟨GW_GCT_CTRL, 63, 63⟩
def GW_GCT_CTRL.OP : FRef := ⟨GW_GCT_CTRL, 62, 60⟩
def GW_GCT_CTRL.RESULT : FRef := ⟨GW_GCT_CTRL, 59, 57⟩
def GW_GCT_CTRL.ACTIVE : FRef := ⟨GW_GCT_CTRL, 56, 56⟩
def GW_GCT_CTRL.ENTRIES : FRef := ⟨GW_GCT_CTRL, 48, 32⟩
def GW_GCT_CTRL.SKIPPED : FRef := ⟨GW_GCT_CTRL, 31, 17⟩
def GW_GCT_CTRL.READ_BANK : FRef := ⟨GW_GCT_CTRL, 16, 16⟩
def GW_GCT_CTRL.INDEX : FRef := ⟨GW_GCT_CTRL, 15, 0⟩

/-- GW_GCT_DATA (16_gateway_time.md). -/
def GW_GCT_DATA (i : Nat) : Reg := ⟨0x10051008 + i * 0x8, 0x0⟩
def GW_GCT_DATA.DATA (i : Nat) : FRef := ⟨GW_GCT_DATA i, 63, 0⟩

/-- GW_OBJ_SEL (16_gateway_time.md). -/
def GW_OBJ_SEL : Reg := ⟨0x10051040, 0x0⟩
def GW_OBJ_SEL.CODE : FRef := ⟨GW_OBJ_SEL, 31, 16⟩
def GW_OBJ_SEL.INSTANCE : FRef := ⟨GW_OBJ_SEL, 15, 0⟩

/-- GW_OBJ_VALUE (16_gateway_time.md). -/
def GW_OBJ_VALUE : Reg := ⟨0x10051048, 0x0⟩
def GW_OBJ_VALUE.VALUE : FRef := ⟨GW_OBJ_VALUE, 63, 0⟩

/-- TIME_NOW (16_gateway_time.md). -/
def TIME_NOW : Reg := ⟨0x10070000, 0x0⟩
def TIME_NOW.NOW : FRef := ⟨TIME_NOW, 63, 0⟩

/-- TIME_CTRL (16_gateway_time.md). -/
def TIME_CTRL : Reg := ⟨0x10070008, 0x3E800000004⟩
def TIME_CTRL.JUMP_THR_US : FRef := ⟨TIME_CTRL, 47, 32⟩
def TIME_CTRL.INIT_STEP : FRef := ⟨TIME_CTRL, 2, 2⟩
def TIME_CTRL.ACCEPT : FRef := ⟨TIME_CTRL, 1, 1⟩
def TIME_CTRL.SYNC_EN : FRef := ⟨TIME_CTRL, 0, 0⟩

/-- TIME_STATUS (16_gateway_time.md). -/
def TIME_STATUS : Reg := ⟨0x10070010, 0x0⟩
def TIME_STATUS.OFFSET_NS : FRef := ⟨TIME_STATUS, 63, 32⟩
def TIME_STATUS.RATE_PPB : FRef := ⟨TIME_STATUS, 31, 11⟩
def TIME_STATUS.STATE : FRef := ⟨TIME_STATUS, 2, 0⟩

/-- TIME_TICK_US (18_long_run.md). -/
def TIME_TICK_US : Reg := ⟨0x10070018, 0x0⟩
def TIME_TICK_US.TICK : FRef := ⟨TIME_TICK_US, 31, 0⟩

/-- TIME_TTO_START (16_gateway_time.md). -/
def TIME_TTO_START (i : Nat) : Reg := ⟨0x10070100 + i * 0x10, 0x0⟩
def TIME_TTO_START.START (i : Nat) : FRef := ⟨TIME_TTO_START i, 63, 0⟩

/-- TIME_TTO_CFG (16_gateway_time.md). -/
def TIME_TTO_CFG (i : Nat) : Reg := ⟨0x10070108 + i * 0x10, 0x0⟩
def TIME_TTO_CFG.PERIOD_NS (i : Nat) : FRef := ⟨TIME_TTO_CFG i, 63, 32⟩
def TIME_TTO_CFG.WIDTH_NS (i : Nat) : FRef := ⟨TIME_TTO_CFG i, 31, 4⟩
def TIME_TTO_CFG.POLARITY (i : Nat) : FRef := ⟨TIME_TTO_CFG i, 2, 2⟩
def TIME_TTO_CFG.ENABLE (i : Nat) : FRef := ⟨TIME_TTO_CFG i, 0, 0⟩

/-- PMC_RAIL_STATUS (17_power_clocks_reset.md). -/
def PMC_RAIL_STATUS : Reg := ⟨0x10010320, 0x0⟩
def PMC_RAIL_STATUS.BELOW : FRef := ⟨PMC_RAIL_STATUS, 15, 8⟩
def PMC_RAIL_STATUS.WARNED : FRef := ⟨PMC_RAIL_STATUS, 7, 0⟩

/-- PMC_OPP_CD (17_power_clocks_reset.md). -/
def PMC_OPP_CD (i : Nat) : Reg := ⟨0x10010200 + i * 0x8, 0x0⟩
def PMC_OPP_CD.STEPS (i : Nat) : FRef := ⟨PMC_OPP_CD i, 63, 32⟩
def PMC_OPP_CD.HALTED (i : Nat) : FRef := ⟨PMC_OPP_CD i, 15, 15⟩
def PMC_OPP_CD.CLAMPED (i : Nat) : FRef := ⟨PMC_OPP_CD i, 14, 14⟩
def PMC_OPP_CD.BUSY (i : Nat) : FRef := ⟨PMC_OPP_CD i, 13, 13⟩
def PMC_OPP_CD.CEIL (i : Nat) : FRef := ⟨PMC_OPP_CD i, 10, 8⟩
def PMC_OPP_CD.TARGET (i : Nat) : FRef := ⟨PMC_OPP_CD i, 6, 4⟩
def PMC_OPP_CD.CUR (i : Nat) : FRef := ⟨PMC_OPP_CD i, 2, 0⟩

/-- PMC_LIMIT_CD (17_power_clocks_reset.md). -/
def PMC_LIMIT_CD (i : Nat) : Reg := ⟨0x10010300 + i * 0x8, 0xDC0004⟩
def PMC_LIMIT_CD.IMAX_A (i : Nat) : FRef := ⟨PMC_LIMIT_CD i, 31, 16⟩
def PMC_LIMIT_CD.OPP_MAX (i : Nat) : FRef := ⟨PMC_LIMIT_CD i, 2, 0⟩

/-- PMC_LIMIT_PKG (17_power_clocks_reset.md). -/
def PMC_LIMIT_PKG : Reg := ⟨0x10010310, 0x7D0A01C2017C⟩
def PMC_LIMIT_PKG.TJ_CLAMP_C : FRef := ⟨PMC_LIMIT_PKG, 47, 40⟩
def PMC_LIMIT_PKG.EXC_MS : FRef := ⟨PMC_LIMIT_PKG, 39, 32⟩
def PMC_LIMIT_PKG.P_EXC_W : FRef := ⟨PMC_LIMIT_PKG, 31, 16⟩
def PMC_LIMIT_PKG.P_SUST_W : FRef := ⟨PMC_LIMIT_PKG, 15, 0⟩

/-- PMC_BUDGET (17_power_clocks_reset.md). -/
def PMC_BUDGET (i : Nat) : Reg := ⟨0x10010100 + i * 0x8, 0x0⟩
def PMC_BUDGET.WORD (i : Nat) : FRef := ⟨PMC_BUDGET i, 63, 0⟩

/-- PMC_ENERGY (18_long_run.md). -/
def PMC_ENERGY : Reg := ⟨0x10010330, 0x0⟩
def PMC_ENERGY.ENERGY_UJ : FRef := ⟨PMC_ENERGY, 63, 0⟩

/-- AON_RESET_CAUSE (17_power_clocks_reset.md). -/
def AON_RESET_CAUSE : Reg := ⟨0xF000020, 0x0⟩
def AON_RESET_CAUSE.CAUSE : FRef := ⟨AON_RESET_CAUSE, 6, 0⟩

/-- AON_RESET_REQ (17_power_clocks_reset.md). -/
def AON_RESET_REQ : Reg := ⟨0xF000028, 0x0⟩
def AON_RESET_REQ.KEY : FRef := ⟨AON_RESET_REQ, 7, 0⟩

/-- CFG_PAD (19_package_electrical.md). -/
def CFG_PAD (i : Nat) : Reg := ⟨0xFF01000 + i * 0x8, if i = 3 then 0x881 else 0xC81⟩
def CFG_PAD.LOCK (i : Nat) : FRef := ⟨CFG_PAD i, 63, 63⟩
def CFG_PAD.GLITCH (i : Nat) : FRef := ⟨CFG_PAD i, 14, 12⟩
def CFG_PAD.HYST (i : Nat) : FRef := ⟨CFG_PAD i, 11, 11⟩
def CFG_PAD.PULL (i : Nat) : FRef := ⟨CFG_PAD i, 10, 9⟩
def CFG_PAD.SLEW (i : Nat) : FRef := ⟨CFG_PAD i, 7, 6⟩
def CFG_PAD.DRIVE (i : Nat) : FRef := ⟨CFG_PAD i, 1, 0⟩

/-- The fields of each family with their access codes (R12); bits in no field are reserved (R13). -/
def RegFam.fields : RegFam → List Fld
  | .cfg_ident => [⟨63, 48, .ro⟩, ⟨47, 40, .ro⟩, ⟨39, 36, .ro⟩, ⟨31, 24, .ro⟩, ⟨23, 16, .ro⟩, ⟨15, 8, .ro⟩]
  | .aon_service => [⟨23, 16, .ro⟩, ⟨9, 9, .ro⟩, ⟨8, 8, .ro⟩, ⟨7, 7, .ro⟩, ⟨6, 6, .ro⟩, ⟨5, 5, .ro⟩, ⟨4, 4, .ro⟩, ⟨2, 0, .ro⟩]
  | .clc_seat_state => [⟨63, 32, .ro⟩, ⟨15, 8, .ro⟩, ⟨2, 0, .ro⟩]
  | .clc_seat_share => [⟨38, 38, .rw⟩, ⟨37, 32, .rw⟩, ⟨25, 16, .rw⟩, ⟨8, 0, .rw⟩]
  | .clc_seat_desc_ptr => [⟨20, 6, .rw⟩]
  | .clc_seat_progress => [⟨31, 0, .ro⟩]
  | .clc_seat_padconst => [⟨31, 0, .rw⟩]
  | .clc_mem_uelog => [⟨63, 63, .w1c⟩, ⟨51, 48, .ro⟩, ⟨47, 0, .ro⟩]
  | .clc_mem_ecccount => [⟨31, 16, .rc⟩, ⟨15, 0, .rc⟩]
  | .clc_march_ctrl => [⟨41, 32, .rw⟩, ⟨30, 24, .rw⟩, ⟨22, 16, .rw⟩, ⟨10, 10, .rw⟩, ⟨9, 2, .rw⟩, ⟨1, 1, .rw⟩, ⟨0, 0, .w1s⟩]
  | .clc_march_status => [⟨53, 48, .ro⟩, ⟨43, 40, .ro⟩, ⟨39, 36, .ro⟩, ⟨28, 16, .ro⟩, ⟨13, 8, .ro⟩, ⟨3, 1, .ro⟩, ⟨0, 0, .ro⟩]
  | .wmark_slate => [⟨8, 0, .rwl⟩]
  | .wmark_slate_ctrl => [⟨31, 16, .ro⟩, ⟨3, 3, .w1s⟩, ⟨2, 2, .ro⟩, ⟨1, 1, .ro⟩, ⟨0, 0, .rwl⟩]
  | .wmark_dram => [⟨13, 0, .rwl⟩]
  | .wmark_dram_ctrl => [⟨63, 48, .ro⟩, ⟨45, 32, .ro⟩, ⟨3, 3, .w1s⟩, ⟨2, 2, .ro⟩, ⟨1, 1, .ro⟩, ⟨0, 0, .rwl⟩]
  | .plan_store_status => [⟨63, 32, .ro⟩, ⟨27, 25, .ro⟩, ⟨24, 24, .ro⟩, ⟨18, 0, .ro⟩]
  | .plan_priv => [⟨16, 16, .rwl⟩, ⟨15, 0, .rwl⟩]
  | .plan_src_lesson => [⟨63, 0, .rw⟩]
  | .plan_src_addr => [⟨63, 63, .rw⟩, ⟨61, 56, .rw⟩, ⟨47, 0, .rw⟩]
  | .plan_ch_ctrl => [⟨13, 8, .rw⟩, ⟨5, 5, .ro⟩, ⟨4, 4, .rw⟩, ⟨3, 2, .rw⟩, ⟨1, 1, .w1s⟩, ⟨0, 0, .rw⟩]
  | .plan_ch_status => [⟨63, 32, .ro⟩, ⟨31, 16, .rc⟩, ⟨15, 8, .ro⟩, ⟨3, 3, .ro⟩, ⟨2, 0, .ro⟩]
  | .plan_ch_cfg => [⟨63, 0, .rw⟩]
  | .plan_ch_start => [⟨63, 0, .rw⟩]
  | .disp_rast_ctrl => [⟨47, 32, .rw⟩, ⟨13, 8, .rw⟩, ⟨7, 4, .rw⟩, ⟨0, 0, .rw⟩]
  | .disp_rast_ring => [⟨43, 40, .rw⟩, ⟨35, 0, .rw⟩]
  | .disp_rast_ptr => [⟨51, 32, .ro⟩, ⟨19, 0, .rw⟩]
  | .disp_rast_spill => [⟨63, 40, .rw⟩, ⟨35, 12, .rw⟩]
  | .disp_rast_status => [⟨63, 32, .ro⟩, ⟨31, 16, .rc⟩, ⟨15, 8, .rc⟩, ⟨1, 0, .ro⟩]
  | .disp_rast_lesson => [⟨63, 0, .rw⟩]
  | .disp_pipe_ctrl => [⟨43, 24, .rw⟩, ⟨23, 22, .rw⟩, ⟨19, 12, .rw⟩, ⟨11, 11, .rw⟩, ⟨10, 9, .rw⟩, ⟨8, 6, .rw⟩, ⟨5, 5, .rw⟩, ⟨0, 0, .rw⟩]
  | .disp_pipe_timing_h => [⟨63, 48, .rw⟩, ⟨47, 32, .rw⟩, ⟨31, 16, .rw⟩, ⟨15, 0, .rw⟩]
  | .disp_pipe_timing_v => [⟨63, 48, .rw⟩, ⟨47, 32, .rw⟩, ⟨31, 16, .rw⟩, ⟨15, 0, .rw⟩]
  | .disp_pipe_status => [⟨63, 32, .ro⟩, ⟨31, 16, .rc⟩, ⟨15, 8, .rc⟩, ⟨1, 1, .ro⟩, ⟨0, 0, .ro⟩]
  | .disp_plane_addr => [⟨63, 63, .w1s⟩, ⟨62, 62, .ro⟩, ⟨47, 0, .rw⟩]
  | .disp_plane_cfg => [⟨63, 63, .rw⟩, ⟨62, 62, .rw⟩, ⟨61, 61, .rw⟩, ⟨60, 48, .rw⟩, ⟨47, 36, .rw⟩, ⟨35, 24, .rw⟩, ⟨23, 12, .rw⟩, ⟨11, 0, .rw⟩]
  | .proc_status => [⟨63, 32, .ro⟩, ⟨31, 16, .rc⟩, ⟨4, 1, .ro⟩, ⟨0, 0, .ro⟩]
  | .proc_cmp_log => [⟨63, 63, .w1c⟩, ⟨47, 40, .ro⟩, ⟨39, 36, .ro⟩, ⟨35, 32, .ro⟩, ⟨31, 28, .ro⟩, ⟨27, 22, .ro⟩, ⟨21, 16, .ro⟩, ⟨9, 0, .ro⟩]
  | .proc_cmp_sig0 => [⟨63, 0, .ro⟩]
  | .proc_cmp_sig1 => [⟨63, 0, .ro⟩]
  | .roll_str_cfg => [⟨63, 44, .rw⟩, ⟨43, 40, .rw⟩, ⟨33, 24, .rw⟩, ⟨23, 22, .rw⟩, ⟨21, 21, .rw⟩, ⟨20, 20, .rw⟩, ⟨0, 0, .rw⟩]
  | .roll_str_grid => [⟨63, 56, .rw⟩, ⟨55, 48, .rw⟩, ⟨47, 40, .rw⟩, ⟨39, 32, .rw⟩, ⟨31, 16, .rw⟩, ⟨15, 0, .rw⟩]
  | .roll_str_status => [⟨63, 32, .ro⟩, ⟨31, 24, .rc⟩, ⟨23, 20, .ro⟩, ⟨3, 3, .ro⟩, ⟨2, 2, .ro⟩, ⟨1, 1, .ro⟩]
  | .roll_str_sig => [⟨63, 0, .ro⟩]
  | .fcu_ctrl => [⟨47, 32, .rwl⟩, ⟨1, 1, .rw⟩, ⟨0, 0, .rwl⟩]
  | .fcu_summary => [⟨63, 48, .rc⟩, ⟨41, 41, .ro⟩, ⟨40, 32, .ro⟩, ⟨7, 7, .ro⟩, ⟨6, 6, .ro⟩, ⟨5, 5, .ro⟩, ⟨4, 4, .ro⟩, ⟨3, 3, .ro⟩, ⟨2, 2, .ro⟩, ⟨1, 0, .ro⟩]
  | .fcu_log_ptr => [⟨63, 48, .rc⟩, ⟨32, 32, .w1c⟩, ⟨31, 12, .ro⟩, ⟨11, 0, .ro⟩]
  | .fcu_sw_raise => [⟨4, 4, .wo⟩, ⟨3, 0, .wo⟩]
  | .fcu_src_status => [⟨63, 0, .w1c⟩]
  | .fcu_src_ack => [⟨63, 0, .w1s⟩]
  | .fcu_src_cfg => [⟨63, 48, .rwl⟩, ⟨47, 40, .rwl⟩, ⟨39, 36, .rwl⟩, ⟨3, 2, .ro⟩, ⟨1, 0, .rwl⟩]
  | .fcu_src_state => [⟨63, 48, .rc⟩, ⟨39, 32, .ro⟩, ⟨28, 28, .ro⟩, ⟨27, 27, .ro⟩, ⟨25, 24, .ro⟩]
  | .fcu_log => [⟨63, 0, .ro⟩]
  | .hub_viol_addr => [⟨63, 63, .w1c⟩, ⟨48, 48, .ro⟩, ⟨47, 0, .ro⟩]
  | .hub_viol_info => [⟨63, 48, .rc⟩, ⟨38, 38, .ro⟩, ⟨37, 32, .ro⟩, ⟨19, 16, .ro⟩, ⟨15, 0, .ro⟩]
  | .core_viol_addr => [⟨63, 63, .w1c⟩, ⟨48, 48, .ro⟩, ⟨47, 0, .ro⟩]
  | .core_viol_info => [⟨63, 48, .rc⟩, ⟨38, 38, .ro⟩, ⟨37, 32, .ro⟩, ⟨19, 16, .ro⟩, ⟨15, 0, .ro⟩]
  | .clc_viol_addr => [⟨63, 63, .w1c⟩, ⟨48, 48, .ro⟩, ⟨47, 0, .ro⟩]
  | .clc_viol_info => [⟨63, 48, .rc⟩, ⟨38, 38, .ro⟩, ⟨37, 32, .ro⟩, ⟨19, 16, .ro⟩, ⟨15, 0, .ro⟩]
  | .wmark_viol_addr => [⟨63, 63, .w1c⟩, ⟨48, 48, .ro⟩, ⟨47, 0, .ro⟩]
  | .wmark_viol_info => [⟨63, 48, .rc⟩, ⟨38, 38, .ro⟩, ⟨37, 32, .ro⟩, ⟨19, 16, .ro⟩, ⟨15, 0, .ro⟩]
  | .sec_state => [⟨63, 48, .ro⟩, ⟨39, 39, .ro⟩, ⟨38, 38, .ro⟩, ⟨37, 37, .ro⟩, ⟨36, 36, .ro⟩, ⟨18, 16, .ro⟩, ⟨2, 1, .ro⟩, ⟨0, 0, .ro⟩]
  | .secmb_ch_req => [⟨63, 63, .w1s⟩, ⟨47, 0, .rw⟩]
  | .secmb_ch_rsp => [⟨63, 63, .ro⟩, ⟨62, 62, .w1c⟩, ⟨15, 0, .ro⟩]
  | .apc_llc_part => [⟨63, 63, .rwl⟩, ⟨15, 0, .rwl⟩]
  | .pmc_sec_hold => [⟨14, 14, .rw⟩, ⟨13, 13, .rw⟩, ⟨12, 12, .rw⟩, ⟨11, 11, .rw⟩, ⟨10, 7, .rw⟩, ⟨6, 6, .rw⟩, ⟨5, 5, .rw⟩, ⟨4, 2, .rw⟩, ⟨1, 0, .rw⟩]
  | .pmc_hold_log => [⟨63, 63, .w1c⟩, ⟨62, 48, .rc⟩, ⟨35, 32, .ro⟩, ⟨16, 16, .ro⟩, ⟨15, 0, .ro⟩]
  | .mlmb_mb_status => [⟨63, 48, .rc⟩, ⟨47, 32, .ro⟩, ⟨31, 16, .ro⟩, ⟨0, 0, .ro⟩]
  | .mlmb_mb_features => [⟨63, 0, .ro⟩]
  | .mlmb_priv_owner => [⟨63, 63, .rwl⟩, ⟨32, 32, .rwl⟩, ⟨31, 16, .rwl⟩, ⟨15, 0, .rwl⟩]
  | .mlmb_fw_state => [⟨63, 32, .ro⟩, ⟨5, 4, .ro⟩, ⟨3, 2, .ro⟩, ⟨1, 0, .ro⟩]
  | .mlmb_fw_restarts => [⟨31, 16, .ro⟩, ⟨15, 0, .ro⟩]
  | .mlmb_ccc_restarts => [⟨63, 0, .ro⟩]
  | .brg_ctrl => [⟨47, 32, .rw⟩, ⟨0, 0, .rw⟩]
  | .brg_status => [⟨63, 48, .rc⟩, ⟨47, 32, .rc⟩, ⟨24, 16, .ro⟩, ⟨1, 1, .ro⟩, ⟨0, 0, .ro⟩]
  | .brg_barrier => [⟨63, 63, .ro⟩, ⟨6, 0, .ro⟩]
  | .brg_pel_status => [⟨63, 48, .rc⟩, ⟨0, 0, .w1s⟩]
  | .brg_viol_addr => [⟨63, 63, .w1c⟩, ⟨48, 48, .ro⟩, ⟨47, 0, .ro⟩]
  | .brg_viol_info => [⟨63, 48, .rc⟩, ⟨38, 38, .ro⟩, ⟨37, 32, .ro⟩, ⟨19, 16, .ro⟩, ⟨15, 0, .ro⟩]
  | .brg_pel_addr => [⟨63, 63, .ro⟩, ⟨55, 48, .ro⟩, ⟨47, 0, .ro⟩]
  | .brg_pel_info => [⟨63, 32, .ro⟩, ⟨19, 16, .ro⟩, ⟨15, 0, .ro⟩]
  | .pair_out_cfg => [⟨63, 63, .rw⟩, ⟨32, 16, .rw⟩, ⟨15, 0, .rw⟩]
  | .pair_out_remote => [⟨47, 20, .rw⟩]
  | .pair_in_base => [⟨47, 20, .rw⟩]
  | .pair_in_cfg => [⟨63, 63, .rw⟩, ⟨62, 62, .rw⟩, ⟨61, 61, .rw⟩, ⟨38, 38, .rw⟩, ⟨37, 32, .rw⟩, ⟨16, 0, .rw⟩]
  | .pair_alive => [⟨63, 32, .ro⟩, ⟨31, 24, .rwl⟩, ⟨17, 17, .rwl⟩, ⟨16, 16, .ro⟩, ⟨15, 0, .rwl⟩]
  | .qmgr_sel => [⟨15, 0, .rw⟩]
  | .qmgr_qbase => [⟨47, 6, .rw⟩]
  | .qmgr_qcfg => [⟨63, 48, .rc⟩, ⟨35, 24, .rw⟩, ⟨23, 23, .ro⟩, ⟨22, 22, .rw⟩, ⟨21, 16, .rw⟩, ⟨15, 15, .rw⟩, ⟨14, 13, .rw⟩, ⟨12, 8, .rw⟩, ⟨7, 4, .rw⟩, ⟨3, 3, .rw⟩]
  | .qmgr_qptr => [⟨63, 32, .ro⟩, ⟨31, 0, .ro⟩]
  | .qmgr_qcells => [⟨47, 32, .ro⟩, ⟨31, 16, .rw⟩, ⟨15, 0, .rw⟩]
  | .qmgr_doorbell => [⟨63, 63, .wo⟩, ⟨62, 62, .wo⟩, ⟨47, 32, .wo⟩, ⟨31, 0, .wo⟩]
  | .qmgr_pool => [⟨63, 49, .rw⟩, ⟨48, 32, .ro⟩, ⟨16, 0, .ro⟩]
  | .gw_port_cfg => [⟨49, 36, .rw⟩, ⟨34, 20, .rw⟩, ⟨19, 18, .rw⟩, ⟨17, 15, .rw⟩, ⟨14, 14, .rw⟩, ⟨13, 12, .rw⟩, ⟨11, 10, .rw⟩, ⟨1, 1, .ro⟩, ⟨0, 0, .rw⟩]
  | .gw_admin => [⟨63, 63, .rwl⟩, ⟨32, 32, .rwl⟩, ⟨31, 16, .rwl⟩, ⟨15, 0, .rwl⟩]
  | .gw_gct_ctrl => [⟨63, 63, .w1s⟩, ⟨62, 60, .rw⟩, ⟨59, 57, .ro⟩, ⟨56, 56, .ro⟩, ⟨48, 32, .ro⟩, ⟨31, 17, .ro⟩, ⟨16, 16, .rw⟩, ⟨15, 0, .rw⟩]
  | .gw_gct_data => [⟨63, 0, .rw⟩]
  | .gw_obj_sel => [⟨31, 16, .rw⟩, ⟨15, 0, .rw⟩]
  | .gw_obj_value => [⟨63, 0, .rw⟩]
  | .time_now => [⟨63, 0, .ro⟩]
  | .time_ctrl => [⟨47, 32, .rw⟩, ⟨2, 2, .rw⟩, ⟨1, 1, .w1s⟩, ⟨0, 0, .rw⟩]
  | .time_status => [⟨63, 32, .ro⟩, ⟨31, 11, .ro⟩, ⟨2, 0, .ro⟩]
  | .time_tick_us => [⟨31, 0, .ro⟩]
  | .time_tto_start => [⟨63, 0, .rw⟩]
  | .time_tto_cfg => [⟨63, 32, .rw⟩, ⟨31, 4, .rw⟩, ⟨2, 2, .rw⟩, ⟨0, 0, .rw⟩]
  | .pmc_rail_status => [⟨15, 8, .ro⟩, ⟨7, 0, .w1c⟩]
  | .pmc_opp_cd => [⟨63, 32, .ro⟩, ⟨15, 15, .ro⟩, ⟨14, 14, .ro⟩, ⟨13, 13, .ro⟩, ⟨10, 8, .ro⟩, ⟨6, 4, .ro⟩, ⟨2, 0, .ro⟩]
  | .pmc_limit_cd => [⟨31, 16, .rw⟩, ⟨2, 0, .rw⟩]
  | .pmc_limit_pkg => [⟨47, 40, .rw⟩, ⟨39, 32, .rw⟩, ⟨31, 16, .rw⟩, ⟨15, 0, .rw⟩]
  | .pmc_budget => [⟨63, 0, .ro⟩]
  | .pmc_energy => [⟨63, 0, .ro⟩]
  | .aon_reset_cause => [⟨6, 0, .w1c⟩]
  | .aon_reset_req => [⟨7, 0, .wo⟩]
  | .cfg_pad => [⟨63, 63, .rwl⟩, ⟨14, 12, .rwl⟩, ⟨11, 11, .rwl⟩, ⟨10, 9, .rwl⟩, ⟨7, 6, .rwl⟩, ⟨1, 0, .rwl⟩]

/-- The rights class of each family. -/
def RegFam.rights : RegFam → Rights
  | .cfg_ident => .readAll
  | .aon_service => .readAll
  | .clc_seat_state => .cluster
  | .clc_seat_share => .cluster
  | .clc_seat_desc_ptr => .cluster
  | .clc_seat_progress => .cluster
  | .clc_seat_padconst => .cluster
  | .clc_mem_uelog => .cluster
  | .clc_mem_ecccount => .cluster
  | .clc_march_ctrl => .cluster
  | .clc_march_status => .cluster
  | .wmark_slate => .secOnly
  | .wmark_slate_ctrl => .secOnly
  | .wmark_dram => .secOnly
  | .wmark_dram_ctrl => .secOnly
  | .plan_store_status => .readAll
  | .plan_priv => .secOnly
  | .plan_src_lesson => .regSec
  | .plan_src_addr => .regSec
  | .plan_ch_ctrl => .planCh
  | .plan_ch_status => .planCh
  | .plan_ch_cfg => .planCh
  | .plan_ch_start => .planCh
  | .disp_rast_ctrl => .disp
  | .disp_rast_ring => .disp
  | .disp_rast_ptr => .disp
  | .disp_rast_spill => .disp
  | .disp_rast_status => .disp
  | .disp_rast_lesson => .disp
  | .disp_pipe_ctrl => .disp
  | .disp_pipe_timing_h => .disp
  | .disp_pipe_timing_v => .disp
  | .disp_pipe_status => .disp
  | .disp_plane_addr => .disp
  | .disp_plane_cfg => .disp
  | .proc_status => .proc
  | .proc_cmp_log => .proc
  | .proc_cmp_sig0 => .proc
  | .proc_cmp_sig1 => .proc
  | .roll_str_cfg => .roll
  | .roll_str_grid => .roll
  | .roll_str_status => .roll
  | .roll_str_sig => .roll
  | .fcu_ctrl => .fcuCfg
  | .fcu_summary => .fcuRead
  | .fcu_log_ptr => .fcuAck
  | .fcu_sw_raise => .fcuAck
  | .fcu_src_status => .fcuAck
  | .fcu_src_ack => .fcuAck
  | .fcu_src_cfg => .fcuCfg
  | .fcu_src_state => .fcuRead
  | .fcu_log => .fcuRead
  | .hub_viol_addr => .all
  | .hub_viol_info => .all
  | .core_viol_addr => .cluster
  | .core_viol_info => .cluster
  | .clc_viol_addr => .cluster
  | .clc_viol_info => .cluster
  | .wmark_viol_addr => .secOnly
  | .wmark_viol_info => .secOnly
  | .sec_state => .readAll
  | .secmb_ch_req => .secmb
  | .secmb_ch_rsp => .secmb
  | .apc_llc_part => .secOnly
  | .pmc_sec_hold => .secWrite
  | .pmc_hold_log => .all
  | .mlmb_mb_status => .readAll
  | .mlmb_mb_features => .readAll
  | .mlmb_priv_owner => .secWrite
  | .mlmb_fw_state => .readAll
  | .mlmb_fw_restarts => .readAll
  | .mlmb_ccc_restarts => .readAll
  | .brg_ctrl => .regSec
  | .brg_status => .regSec
  | .brg_barrier => .barrier
  | .brg_pel_status => .regSec
  | .brg_viol_addr => .regSec
  | .brg_viol_info => .regSec
  | .brg_pel_addr => .regSec
  | .brg_pel_info => .regSec
  | .pair_out_cfg => .pairWin
  | .pair_out_remote => .pairWin
  | .pair_in_base => .pairWin
  | .pair_in_cfg => .pairWin
  | .pair_alive => .pairWin
  | .qmgr_sel => .all
  | .qmgr_qbase => .queue
  | .qmgr_qcfg => .queue
  | .qmgr_qptr => .queue
  | .qmgr_qcells => .queue
  | .qmgr_doorbell => .all
  | .qmgr_pool => .gw
  | .gw_port_cfg => .gw
  | .gw_admin => .secWrite
  | .gw_gct_ctrl => .gw
  | .gw_gct_data => .gw
  | .gw_obj_sel => .gw
  | .gw_obj_value => .gw
  | .time_now => .gw
  | .time_ctrl => .gw
  | .time_status => .gw
  | .time_tick_us => .gw
  | .time_tto_start => .gw
  | .time_tto_cfg => .gw
  | .pmc_rail_status => .railStatus
  | .pmc_opp_cd => .readAll
  | .pmc_limit_cd => .pmcLimit
  | .pmc_limit_pkg => .pmcLimit
  | .pmc_budget => .readAll
  | .pmc_energy => .readAll
  | .aon_reset_cause => .secWrite
  | .aon_reset_req => .secWrite
  | .cfg_pad => .secWrite

/-- The register of a family with indices `i` and `j` (0 where the family has none). -/
def RegFam.reg (f : RegFam) (i j : Nat) : Reg :=
  match f with
  | .cfg_ident => CFG_IDENT
  | .aon_service => AON_SERVICE
  | .clc_seat_state => CLC_SEAT_STATE i j
  | .clc_seat_share => CLC_SEAT_SHARE i j
  | .clc_seat_desc_ptr => CLC_SEAT_DESC_PTR i j
  | .clc_seat_progress => CLC_SEAT_PROGRESS i j
  | .clc_seat_padconst => CLC_SEAT_PADCONST i j
  | .clc_mem_uelog => CLC_MEM_UELOG i
  | .clc_mem_ecccount => CLC_MEM_ECCCOUNT i
  | .clc_march_ctrl => CLC_MARCH_CTRL i
  | .clc_march_status => CLC_MARCH_STATUS i
  | .wmark_slate => WMARK_SLATE
  | .wmark_slate_ctrl => WMARK_SLATE_CTRL
  | .wmark_dram => WMARK_DRAM
  | .wmark_dram_ctrl => WMARK_DRAM_CTRL
  | .plan_store_status => PLAN_STORE_STATUS
  | .plan_priv => PLAN_PRIV
  | .plan_src_lesson => PLAN_SRC_LESSON i
  | .plan_src_addr => PLAN_SRC_ADDR i
  | .plan_ch_ctrl => PLAN_CH_CTRL i
  | .plan_ch_status => PLAN_CH_STATUS i
  | .plan_ch_cfg => PLAN_CH_CFG i j
  | .plan_ch_start => PLAN_CH_START i j
  | .disp_rast_ctrl => DISP_RAST_CTRL
  | .disp_rast_ring => DISP_RAST_RING
  | .disp_rast_ptr => DISP_RAST_PTR
  | .disp_rast_spill => DISP_RAST_SPILL
  | .disp_rast_status => DISP_RAST_STATUS
  | .disp_rast_lesson => DISP_RAST_LESSON i
  | .disp_pipe_ctrl => DISP_PIPE_CTRL i
  | .disp_pipe_timing_h => DISP_PIPE_TIMING_H i
  | .disp_pipe_timing_v => DISP_PIPE_TIMING_V i
  | .disp_pipe_status => DISP_PIPE_STATUS i
  | .disp_plane_addr => DISP_PLANE_ADDR i j
  | .disp_plane_cfg => DISP_PLANE_CFG i j
  | .proc_status => PROC_STATUS
  | .proc_cmp_log => PROC_CMP_LOG
  | .proc_cmp_sig0 => PROC_CMP_SIG0
  | .proc_cmp_sig1 => PROC_CMP_SIG1
  | .roll_str_cfg => ROLL_STR_CFG i
  | .roll_str_grid => ROLL_STR_GRID i
  | .roll_str_status => ROLL_STR_STATUS i
  | .roll_str_sig => ROLL_STR_SIG i
  | .fcu_ctrl => FCU_CTRL
  | .fcu_summary => FCU_SUMMARY
  | .fcu_log_ptr => FCU_LOG_PTR
  | .fcu_sw_raise => FCU_SW_RAISE
  | .fcu_src_status => FCU_SRC_STATUS i
  | .fcu_src_ack => FCU_SRC_ACK i
  | .fcu_src_cfg => FCU_SRC_CFG i
  | .fcu_src_state => FCU_SRC_STATE i
  | .fcu_log => FCU_LOG i
  | .hub_viol_addr => HUB_VIOL_ADDR
  | .hub_viol_info => HUB_VIOL_INFO
  | .core_viol_addr => CORE_VIOL_ADDR i j
  | .core_viol_info => CORE_VIOL_INFO i j
  | .clc_viol_addr => CLC_VIOL_ADDR i
  | .clc_viol_info => CLC_VIOL_INFO i
  | .wmark_viol_addr => WMARK_VIOL_ADDR
  | .wmark_viol_info => WMARK_VIOL_INFO
  | .sec_state => SEC_STATE
  | .secmb_ch_req => SECMB_CH_REQ i
  | .secmb_ch_rsp => SECMB_CH_RSP i
  | .apc_llc_part => APC_LLC_PART
  | .pmc_sec_hold => PMC_SEC_HOLD
  | .pmc_hold_log => PMC_HOLD_LOG
  | .mlmb_mb_status => MLMB_MB_STATUS i
  | .mlmb_mb_features => MLMB_MB_FEATURES i
  | .mlmb_priv_owner => MLMB_PRIV_OWNER i
  | .mlmb_fw_state => MLMB_FW_STATE
  | .mlmb_fw_restarts => MLMB_FW_RESTARTS
  | .mlmb_ccc_restarts => MLMB_CCC_RESTARTS
  | .brg_ctrl => BRG_CTRL i
  | .brg_status => BRG_STATUS i
  | .brg_barrier => BRG_BARRIER i
  | .brg_pel_status => BRG_PEL_STATUS i
  | .brg_viol_addr => BRG_VIOL_ADDR i
  | .brg_viol_info => BRG_VIOL_INFO i
  | .brg_pel_addr => BRG_PEL_ADDR i j
  | .brg_pel_info => BRG_PEL_INFO i j
  | .pair_out_cfg => PAIR_OUT_CFG i
  | .pair_out_remote => PAIR_OUT_REMOTE i
  | .pair_in_base => PAIR_IN_BASE i
  | .pair_in_cfg => PAIR_IN_CFG i
  | .pair_alive => PAIR_ALIVE
  | .qmgr_sel => QMGR_SEL
  | .qmgr_qbase => QMGR_QBASE
  | .qmgr_qcfg => QMGR_QCFG
  | .qmgr_qptr => QMGR_QPTR
  | .qmgr_qcells => QMGR_QCELLS
  | .qmgr_doorbell => QMGR_DOORBELL
  | .qmgr_pool => QMGR_POOL
  | .gw_port_cfg => GW_PORT_CFG i
  | .gw_admin => GW_ADMIN
  | .gw_gct_ctrl => GW_GCT_CTRL
  | .gw_gct_data => GW_GCT_DATA i
  | .gw_obj_sel => GW_OBJ_SEL
  | .gw_obj_value => GW_OBJ_VALUE
  | .time_now => TIME_NOW
  | .time_ctrl => TIME_CTRL
  | .time_status => TIME_STATUS
  | .time_tick_us => TIME_TICK_US
  | .time_tto_start => TIME_TTO_START i
  | .time_tto_cfg => TIME_TTO_CFG i
  | .pmc_rail_status => PMC_RAIL_STATUS
  | .pmc_opp_cd => PMC_OPP_CD i
  | .pmc_limit_cd => PMC_LIMIT_CD i
  | .pmc_limit_pkg => PMC_LIMIT_PKG
  | .pmc_budget => PMC_BUDGET i
  | .pmc_energy => PMC_ENERGY
  | .aon_reset_cause => AON_RESET_CAUSE
  | .aon_reset_req => AON_RESET_REQ
  | .cfg_pad => CFG_PAD i

/-- Where a family lies: base, count and stride of `i`, count and stride of `j`. -/
structure Layout where
  base : Nat
  n : Nat
  st : Nat
  n2 : Nat
  st2 : Nat

/-- The indices of the register of layout `l` at address `a`, if it has one there. -/
def Layout.find (l : Layout) (a : Nat) : Option (Nat × Nat) :=
  if a < l.base then none
  else
    let d := a - l.base
    let i := if l.st = 0 then 0 else d / l.st
    let r := d - i * l.st
    let j := if l.st2 = 0 then 0 else r / l.st2
    if i < l.n && j < l.n2 && i * l.st + j * l.st2 = d then some (i, j) else none

/-- The families outside the bridges with their layouts. -/
def plainFams : List (RegFam × Layout) :=
  [(.cfg_ident, ⟨0xFF00000, 1, 0x0, 1, 0x0⟩),
   (.aon_service, ⟨0xF000010, 1, 0x0, 1, 0x0⟩),
   (.clc_seat_state, ⟨0x20004000, 16, 0x10000, 64, 0x40⟩),
   (.clc_seat_share, ⟨0x20004008, 16, 0x10000, 64, 0x40⟩),
   (.clc_seat_desc_ptr, ⟨0x20004010, 16, 0x10000, 64, 0x40⟩),
   (.clc_seat_progress, ⟨0x20004018, 16, 0x10000, 64, 0x40⟩),
   (.clc_seat_padconst, ⟨0x20004020, 16, 0x10000, 64, 0x40⟩),
   (.clc_mem_uelog, ⟨0x20003000, 16, 0x10000, 1, 0x0⟩),
   (.clc_mem_ecccount, ⟨0x20003008, 16, 0x10000, 1, 0x0⟩),
   (.clc_march_ctrl, ⟨0x20003010, 16, 0x10000, 1, 0x0⟩),
   (.clc_march_status, ⟨0x20003018, 16, 0x10000, 1, 0x0⟩),
   (.wmark_slate, ⟨0x100F0010, 1, 0x0, 1, 0x0⟩),
   (.wmark_slate_ctrl, ⟨0x100F0018, 1, 0x0, 1, 0x0⟩),
   (.wmark_dram, ⟨0x100F0000, 1, 0x0, 1, 0x0⟩),
   (.wmark_dram_ctrl, ⟨0x100F0008, 1, 0x0, 1, 0x0⟩),
   (.plan_store_status, ⟨0x10080000, 1, 0x0, 1, 0x0⟩),
   (.plan_priv, ⟨0x10080008, 1, 0x0, 1, 0x0⟩),
   (.plan_src_lesson, ⟨0x10080100, 8, 0x10, 1, 0x0⟩),
   (.plan_src_addr, ⟨0x10080108, 8, 0x10, 1, 0x0⟩),
   (.plan_ch_ctrl, ⟨0x10081000, 16, 0x200, 1, 0x0⟩),
   (.plan_ch_status, ⟨0x10081008, 16, 0x200, 1, 0x0⟩),
   (.plan_ch_cfg, ⟨0x10081040, 16, 0x200, 16, 0x8⟩),
   (.plan_ch_start, ⟨0x100810C0, 16, 0x200, 8, 0x8⟩),
   (.disp_rast_ctrl, ⟨0x10090000, 1, 0x0, 1, 0x0⟩)] ++
  [(.disp_rast_ring, ⟨0x10090008, 1, 0x0, 1, 0x0⟩),
   (.disp_rast_ptr, ⟨0x10090010, 1, 0x0, 1, 0x0⟩),
   (.disp_rast_spill, ⟨0x10090018, 1, 0x0, 1, 0x0⟩),
   (.disp_rast_status, ⟨0x10090020, 1, 0x0, 1, 0x0⟩),
   (.disp_rast_lesson, ⟨0x10090040, 4, 0x8, 1, 0x0⟩),
   (.disp_pipe_ctrl, ⟨0x10091000, 4, 0x400, 1, 0x0⟩),
   (.disp_pipe_timing_h, ⟨0x10091008, 4, 0x400, 1, 0x0⟩),
   (.disp_pipe_timing_v, ⟨0x10091010, 4, 0x400, 1, 0x0⟩),
   (.disp_pipe_status, ⟨0x10091018, 4, 0x400, 1, 0x0⟩),
   (.disp_plane_addr, ⟨0x10091100, 4, 0x400, 4, 0x10⟩),
   (.disp_plane_cfg, ⟨0x10091108, 4, 0x400, 4, 0x10⟩),
   (.proc_status, ⟨0x100A0000, 1, 0x0, 1, 0x0⟩),
   (.proc_cmp_log, ⟨0x100A0008, 1, 0x0, 1, 0x0⟩),
   (.proc_cmp_sig0, ⟨0x100A0010, 1, 0x0, 1, 0x0⟩),
   (.proc_cmp_sig1, ⟨0x100A0018, 1, 0x0, 1, 0x0⟩),
   (.roll_str_cfg, ⟨0x100B0000, 16, 0x20, 1, 0x0⟩),
   (.roll_str_grid, ⟨0x100B0008, 16, 0x20, 1, 0x0⟩),
   (.roll_str_status, ⟨0x100B0010, 16, 0x20, 1, 0x0⟩),
   (.roll_str_sig, ⟨0x100B0018, 16, 0x20, 1, 0x0⟩),
   (.fcu_ctrl, ⟨0x10000000, 1, 0x0, 1, 0x0⟩),
   (.fcu_summary, ⟨0x10000008, 1, 0x0, 1, 0x0⟩),
   (.fcu_log_ptr, ⟨0x10000010, 1, 0x0, 1, 0x0⟩),
   (.fcu_sw_raise, ⟨0x10000018, 1, 0x0, 1, 0x0⟩),
   (.fcu_src_status, ⟨0x10000100, 8, 0x8, 1, 0x0⟩)] ++
  [(.fcu_src_ack, ⟨0x10000200, 8, 0x8, 1, 0x0⟩),
   (.fcu_src_cfg, ⟨0x10001000, 512, 0x8, 1, 0x0⟩),
   (.fcu_src_state, ⟨0x10002000, 512, 0x8, 1, 0x0⟩),
   (.fcu_log, ⟨0x10008000, 4096, 0x8, 1, 0x0⟩),
   (.hub_viol_addr, ⟨0xFF00100, 1, 0x0, 1, 0x0⟩),
   (.hub_viol_info, ⟨0xFF00108, 1, 0x0, 1, 0x0⟩),
   (.core_viol_addr, ⟨0x20002000, 16, 0x10000, 8, 0x10⟩),
   (.core_viol_info, ⟨0x20002008, 16, 0x10000, 8, 0x10⟩),
   (.clc_viol_addr, ⟨0x20002080, 16, 0x10000, 1, 0x0⟩),
   (.clc_viol_info, ⟨0x20002088, 16, 0x10000, 1, 0x0⟩),
   (.wmark_viol_addr, ⟨0x100F0020, 1, 0x0, 1, 0x0⟩),
   (.wmark_viol_info, ⟨0x100F0028, 1, 0x0, 1, 0x0⟩),
   (.sec_state, ⟨0x10020000, 1, 0x0, 1, 0x0⟩),
   (.secmb_ch_req, ⟨0x10020100, 32, 0x10, 1, 0x0⟩),
   (.secmb_ch_rsp, ⟨0x10020108, 32, 0x10, 1, 0x0⟩),
   (.apc_llc_part, ⟨0xF108000, 1, 0x0, 1, 0x0⟩),
   (.pmc_sec_hold, ⟨0x10010400, 1, 0x0, 1, 0x0⟩),
   (.pmc_hold_log, ⟨0x10010408, 1, 0x0, 1, 0x0⟩),
   (.mlmb_mb_status, ⟨0x10030000, 68, 0x10, 1, 0x0⟩),
   (.mlmb_mb_features, ⟨0x10030008, 68, 0x10, 1, 0x0⟩),
   (.mlmb_priv_owner, ⟨0x10030800, 4, 0x8, 1, 0x0⟩),
   (.mlmb_fw_state, ⟨0x10030900, 1, 0x0, 1, 0x0⟩),
   (.mlmb_fw_restarts, ⟨0x10030908, 1, 0x0, 1, 0x0⟩),
   (.mlmb_ccc_restarts, ⟨0x10030910, 1, 0x0, 1, 0x0⟩)] ++
  [(.pair_out_cfg, ⟨0x100D0600, 8, 0x10, 1, 0x0⟩),
   (.pair_out_remote, ⟨0x100D0608, 8, 0x10, 1, 0x0⟩),
   (.pair_in_base, ⟨0x100D0700, 8, 0x10, 1, 0x0⟩),
   (.pair_in_cfg, ⟨0x100D0708, 8, 0x10, 1, 0x0⟩),
   (.pair_alive, ⟨0x100D0800, 1, 0x0, 1, 0x0⟩),
   (.qmgr_sel, ⟨0x10040000, 1, 0x0, 1, 0x0⟩),
   (.qmgr_qbase, ⟨0x10040008, 1, 0x0, 1, 0x0⟩),
   (.qmgr_qcfg, ⟨0x10040010, 1, 0x0, 1, 0x0⟩),
   (.qmgr_qptr, ⟨0x10040018, 1, 0x0, 1, 0x0⟩),
   (.qmgr_qcells, ⟨0x10040020, 1, 0x0, 1, 0x0⟩),
   (.qmgr_doorbell, ⟨0x10040040, 1, 0x0, 1, 0x0⟩),
   (.qmgr_pool, ⟨0x10040048, 1, 0x0, 1, 0x0⟩),
   (.gw_port_cfg, ⟨0x10050000, 14, 0x40, 1, 0x0⟩),
   (.gw_admin, ⟨0x10050FF0, 1, 0x0, 1, 0x0⟩),
   (.gw_gct_ctrl, ⟨0x10051000, 1, 0x0, 1, 0x0⟩),
   (.gw_gct_data, ⟨0x10051008, 4, 0x8, 1, 0x0⟩),
   (.gw_obj_sel, ⟨0x10051040, 1, 0x0, 1, 0x0⟩),
   (.gw_obj_value, ⟨0x10051048, 1, 0x0, 1, 0x0⟩),
   (.time_now, ⟨0x10070000, 1, 0x0, 1, 0x0⟩),
   (.time_ctrl, ⟨0x10070008, 1, 0x0, 1, 0x0⟩),
   (.time_status, ⟨0x10070010, 1, 0x0, 1, 0x0⟩),
   (.time_tick_us, ⟨0x10070018, 1, 0x0, 1, 0x0⟩),
   (.time_tto_start, ⟨0x10070100, 8, 0x10, 1, 0x0⟩),
   (.time_tto_cfg, ⟨0x10070108, 8, 0x10, 1, 0x0⟩)] ++
  [(.pmc_rail_status, ⟨0x10010320, 1, 0x0, 1, 0x0⟩),
   (.pmc_opp_cd, ⟨0x10010200, 2, 0x8, 1, 0x0⟩),
   (.pmc_limit_cd, ⟨0x10010300, 2, 0x8, 1, 0x0⟩),
   (.pmc_limit_pkg, ⟨0x10010310, 1, 0x0, 1, 0x0⟩),
   (.pmc_budget, ⟨0x10010100, 8, 0x8, 1, 0x0⟩),
   (.pmc_energy, ⟨0x10010330, 1, 0x0, 1, 0x0⟩),
   (.aon_reset_cause, ⟨0xF000020, 1, 0x0, 1, 0x0⟩),
   (.aon_reset_req, ⟨0xF000028, 1, 0x0, 1, 0x0⟩),
   (.cfg_pad, ⟨0xFF01000, 8, 0x8, 1, 0x0⟩)]

/-- The families of a bridge block, by their offset in it (R336). -/
def bridgeFams : List (RegFam × Layout) :=
  [(.brg_ctrl, ⟨0x0, 1, 0, 1, 0x0⟩),
   (.brg_status, ⟨0x8, 1, 0, 1, 0x0⟩),
   (.brg_barrier, ⟨0x10, 1, 0, 1, 0x0⟩),
   (.brg_pel_status, ⟨0x18, 1, 0, 1, 0x0⟩),
   (.brg_viol_addr, ⟨0x20, 1, 0, 1, 0x0⟩),
   (.brg_viol_info, ⟨0x28, 1, 0, 1, 0x0⟩),
   (.brg_pel_addr, ⟨0x100, 1, 0, 64, 0x10⟩),
   (.brg_pel_info, ⟨0x108, 1, 0, 64, 0x10⟩)]

/-- The first family of `l` with a register at `a`. -/
def findFam : List (RegFam × Layout) → Nat → Option (RegFam × Nat × Nat)
  | [], _ => none
  | (f, lay) :: t, a =>
    match lay.find a with
    | some (i, j) => some (f, i, j)
    | none => findFam t a

/-- The bridge whose register block holds `a` (R336). -/
def bridgeAt (a : Nat) : Option Nat :=
  [0, 1, 2, 3, 4].find? (fun b => decide (bridgeBase b ≤ a ∧ a < bridgeBase b + 0x10000))

/-- The register at physical address `a`, with its indices; `none` where the map holds no register (R16). -/
def regAt (a : Nat) : Option (RegFam × Nat × Nat) :=
  match findFam plainFams a with
  | some r => some r
  | none =>
    match bridgeAt a with
    | none => none
    | some b => (findFam bridgeFams (a - bridgeBase b)).map (fun r => (r.1, b, r.2.2))

end Sys2Proof.Machine
end

