-- ==== Sys2Proof/Machine/Table.lean ====
section
/-! DEFINITION. Tables: data by a numeric key, as a list in one canonical form (keys strictly rising; where a table has
a default, no entry equals it), so that equal contents are equal data. -/

namespace Sys2Proof.Machine

/-- Data by a numeric key. -/
abbrev Table (α : Type) := List (Nat × α)

/-- The entry at `k`. -/
def Table.find {α : Type} : Table α → Nat → Option α
  | [], _ => none
  | (i, v) :: t, k => if i = k then some v else Table.find t k

/-- The table with `v` at `k`. -/
def Table.put {α : Type} : Table α → Nat → α → Table α
  | [], k, v => [(k, v)]
  | (i, w) :: t, k, v =>
    if k < i then (k, v) :: (i, w) :: t
    else if k = i then (k, v) :: t
    else (i, w) :: Table.put t k v

/-- The table without an entry at `k`. -/
def Table.del {α : Type} : Table α → Nat → Table α
  | [], _ => []
  | (i, w) :: t, k => if i = k then Table.del t k else (i, w) :: Table.del t k

/-- The value at `k`, where `d` is what an unlisted key holds. -/
def Table.get {α : Type} (t : Table α) (d : α) (k : Nat) : α := (Table.find t k).getD d

/-- Write `v` at `k` of a table with default `d`: an entry equal to the default is removed. -/
def Table.set {α : Type} [DecidableEq α] (t : Table α) (d : α) (k : Nat) (v : α) : Table α :=
  if v = d then Table.del t k else Table.put t k v

/-- The table without its entries from `lo` to below `hi`. -/
def Table.cut {α : Type} (t : Table α) (lo hi : Nat) : Table α := t.filter (fun p => p.1 < lo || hi ≤ p.1)

/-- Every key of the list is above `n`, and the keys rise strictly. -/
def Table.above {α : Type} : Nat → Table α → Bool
  | _, [] => true
  | n, (i, _) :: t => decide (n < i) && Table.above i t

/-- The keys rise strictly. -/
def Table.sorted {α : Type} : Table α → Bool
  | [] => true
  | (i, _) :: t => Table.above i t

/-- Canonical form: keys strictly rising, and no entry equal to the default of its key. -/
def Table.wf {α : Type} [DecidableEq α] (d : Nat → α) (t : Table α) : Bool :=
  Table.sorted t && t.all (fun p => decide (p.2 ≠ d p.1))

end Sys2Proof.Machine
end

