-- ==== Sys2Proof/Machine/State.lean ====
section
/-! DEFINITION. The state of the device as plain data: its registers, its memories, and for every unit the state that
no register shows. INVENTORY.md lists each piece with the rule that names it and its value at reset. -/

namespace Sys2Proof.Machine

/-- Why the machine stops. No command of this device stops it: what the spec calls an error is an error response, a
status code or a fault source, all of them effects on the state. The type has one constructor, which no meaning raises;
its absence from every run is safe. -/
inductive Fault where
  /-- Raised by no command. -/
  | none
  deriving DecidableEq, Repr

/-- Why a command has no meaning. -/
inductive Refusal where
  /-- Raised by an arm of `exec` whose command has no meaning yet; safe: nothing can be proved of the command. -/
  | notModelled (mnemonic : String)
  deriving DecidableEq, Repr

/-! ### The bus -/

/-- The response of the last register or memory access (R15, R32): data or an error; `wait` while a bridge or a barrier
still holds the access. -/
inductive BusReply where
  | none
  | data (value : Nat)
  | bytes (data : List Byte)
  | done
  | error
  | wait (tag : Nat)
  deriving DecidableEq, Repr

/-- What the checks know of an access: the initiator ID (R278), its slice (R328), its world (R283), and the initiator itself. -/
structure Ctx where
  id : Nat
  slice : Option Nat
  secure : Bool
  kind : InitKind
  index : Nat
  ident : Nat
  deriving DecidableEq, Repr

/-- A write of the device itself that has not reached its target yet (R108, R337): its context, its address and its bytes; for an entry of a queue
that the device produces, the queue, whose ring then gives the address (R356). -/
structure LateWrite where
  ctx : Ctx
  addr : Nat
  bytes : List Byte
  queue : Option Nat
  deriving DecidableEq, Repr

/-! ### Pins, boot, fuses, time -/

/-- The balls that the device samples or drives (R34, R410, R413) and the fitted LPDDR5X capacity in MiB (R31). -/
structure Pins where
  pairEn : Bool
  pairRole : Bool
  aliveOut : Bool
  pwrEn0 : Bool
  pwrEn1 : Bool
  fittedMiB : Nat
  deriving DecidableEq, Repr

/-- Fuses (R111, R299, R301, R302, R307, R309): the lifecycle state, revoked owner slots, destroyed secrets, the anti-rollback
minimum of each firmware image, the lifecycle transition in progress that the always-on island keeps (R393), the limits, the Unique Device
Secrets of the Hub die, CD0 and CD1, and the rows replaced at manufacturing test, as cluster, memory, bank and row. -/
structure Fuses where
  lifecycle : Nat
  ownersFused : Nat
  ownersRevoked : Nat
  secretsDestroyed : Bool
  minVersion : List Nat
  transition : Option Nat
  imaxA0 : Nat
  imaxA1 : Nat
  oppMax0 : Nat
  oppMax1 : Nat
  tjClamp : Nat
  excMs : Nat
  pExcW : Nat
  pSustW : Nat
  secrets : List (BitVec 256)
  fusedRows : List (Nat × Nat × Nat × Nat)
  deriving DecidableEq, Repr

/-- Reset and boot (R392-R396, R384): the device is held in reset; the straps sampled (R35); the boot ROM has stopped;
boot steps that have happened; refusals of boot Lessons still to be reported and the mailbox that they are reported to (R396); LIMP_MS has been written (R26); the compute
dies that have been available since reset, and whether the pair has (R344); the dies (0 the Hub die, 1 and 2 the compute dies) whose boot ROM has made its secret
unreadable, the Compound Device Identifier of each, and the draw that stands for the Alias certificate of this reset (R299, R300). -/
structure Boot where
  inReset : Bool
  thermOff : Nat
  strapEn : Bool
  strapRole : Bool
  fcuPassed : Bool
  scFailed : Bool
  regHeld : Bool
  pmcHeld : Bool
  procHeld : Bool
  cccHeld : Bool
  cccVerified : Bool
  dramTrained : Bool
  dramServing : Bool
  apcOut : Bool
  bootFlags : Nat
  gwDone : Bool
  measure : List (BitVec 384)
  firstSecDigest : Option (BitVec 384)
  devRoots : Nat
  bootRefusals : List Nat
  reportMb : Option Nat
  limpNoted : Bool
  cdSeen : List Nat
  pairSeen : Bool
  secretShut : List Nat
  cdi : Table (BitVec 384)
  aliasCert : Nat
  deriving DecidableEq, Repr

/-- Vehicle Time (R369-R372): nanoseconds, the fraction of the current tick in 1e-9 ns, whether it runs; and `up`, the nanoseconds of the TIME
clock since the internal reset was released, which no Sync moves. -/
structure Clock where
  now : Nat
  frac : Nat
  running : Bool
  up : Nat
  deriving DecidableEq, Repr

/-! ### Faults -/

/-- The FCU's hidden state (R267-R272): per source the window start in ms, whether its last event brought I and whether
its events brought S; the self-check; a pending ALIVE_HZ. -/
structure FcuHid where
  winStart : Table Nat
  broughtI : List Nat
  broughtS : List Nat
  aliveRun : Bool
  aliveHz : Nat
  isolated : List Nat
  deriving DecidableEq, Repr

/-! ### Power -/

/-- The state of a compute die (R28, R96, R300, R376-R385, R394, R410): powered, held until reset, a dip of its SRAM rail in the
dip in progress, zero filled; issue halted by a dip or by heat; where the operating-point move in progress began; the highest point
that the power and current limits allow; the PMC may raise its point; consecutive samples at OP0; the current limit acts; when PWR_EN was last driven
high, and low. -/
structure Die where
  powered : Bool
  held : Bool
  sramDip : Bool
  filled : Bool
  dipHalt : Bool
  heatHalt : Bool
  moveFrom : Nat
  moveBusy : Bool
  govCeil : Nat
  allowed : Bool
  clampSamples : Nat
  overAmps : Bool
  enAt : Nat
  offAt : Option Nat
  deriving DecidableEq, Repr

/-- The governor and the PMC (R292, R293, R376-R391): the temperature readings, sites of the clusters first, then of the Hub; the Hub clamp;
consecutive samples above P_SUST_W, samples since the last excursion ended, the sustained limit acting and its samples; a limit has
acted in this budget period, and in the one before; Hub clocks lowered by a dip; LPDDR5X refresh only; gated units, by clock and by power; stopped clock
domains; THERM_SHUTDOWN raised; hold bits waiting for their unit; the die links that are trained, bit 0 the compute link, bits 1 and 2
the Hub links (R18). -/
structure Pwr where
  temps : List Int
  clampHub : Bool
  overSamples : Nat
  sinceExc : Option Nat
  sustaining : Bool
  sustCount : Nat
  acted : Bool
  actedLast : Bool
  hubLow : Bool
  ddrRefreshOnly : Bool
  gatedClock : Nat
  gatedPower : Nat
  stopped : List Nat
  shutdown : Bool
  holdPending : Nat
  linksUp : Nat
  deriving DecidableEq, Repr

/-! ### Tensor cores -/

/-- A descriptor in flight (R48, R64, R68): its eight words, the unit that carries it out (0 issue path, 1 post-processing
unit, 2 DMA engine), the physical Locker ranges it reads and writes, the outputs that completion writes (bit
address, width in bits, value), the bytes it folds
into the signature (R236), its position and length in DMA elements or 64-cycle steps, the source bytes read at the start where they overlap the destination (`none` for a byte of an uncorrectable word), the row list of a GATHER, whether it
is paused at a boundary or will be squashed there. -/
structure InFlight where
  words : List Nat
  unit : Nat
  reads : List (Nat × Nat)
  writes : List (Nat × Nat)
  out : List (Nat × Nat × Nat)
  sigBytes : List Byte
  pos : Nat
  total : Nat
  snap : Option (List (Option Byte))
  rows : List Nat
  paused : Bool
  squash : Bool
  deriving DecidableEq, Repr

/-- What a BLOCKED Seat waits for (R62): a barrier with its participants or a semaphore comparison; `sat` once the
condition has held; when the wait began (`Clock.up`) and its timeout. -/
structure Wait where
  isBarrier : Bool
  key : Nat
  mask : Nat
  cmp : Nat
  value : Nat
  since : Nat
  timeoutUs : Nat
  sat : Bool
  deriving DecidableEq, Repr

/-- What a Seat runs: a job's part, by tag, or a Quiz run, by Lesson key; `fallback` for the fallback run of a tag. -/
structure SeatJob where
  quiz : Bool
  ref : Nat
  fallback : Bool
  replica : Nat
  deriving DecidableEq, Repr

/-- A Seat's state beyond its registers (R39): vector registers (lane l of register r at 64r + l), the signature S
(R235), descriptors in flight, the wait, the job, END completed, the C.BASE and outputs of the preceding array descriptor that
wrote CARRY (R59), whether it has issued since it became READY, whether its pointer has advanced past the largest offset, and the CONV descriptors
that it has issued in chains that may still go on, latest first (R124, R130). -/
structure SeatX where
  vregs : Table (BitVec 32)
  sig : Word
  flight : List InFlight
  wait : Option Wait
  job : Option SeatJob
  ended : Bool
  lastC : Option (Nat × List (Nat × Nat × Nat))
  issued : Bool
  ptrOver : Bool
  convs : List (List (List Nat))
  deriving DecidableEq, Repr

/-- A Tensor Core's issue-path switch and Drill hold (R66, R69, R249), and its withdrawal (R112, R250). -/
structure CoreX where
  incoming : Option Nat
  outgoing : Option Nat
  drill : Bool
  withdrawn : Bool
  deriving DecidableEq, Repr

/-- The march engine of a cluster (R107-R113): memories still to test, the memory and group in hand, the range of
groups, the mode, whether rows were replaced, the memories without a spare, the group held, and whether this is the start-up test. -/
structure March where
  mems : List Nat
  mem : Nat
  group : Nat
  first : Nat
  last : Nat
  destructive : Bool
  repaired : Bool
  failed : List Nat
  held : Option (Nat × Nat)
  startup : Bool
  deriving DecidableEq, Repr

/-- A cluster beyond its registers: withdrawal, synchronisation blocks in use (slice and Lesson key), the march engine, spare rows used
per bank (memory x 64 + bank), rows remapped, scrub state per memory (0 done, 1 running, 2 late), parked for a window. -/
structure ClusterX where
  withdrawn : Bool
  blocks : Table Nat
  sems : Table Nat
  march : March
  sparesUsed : Table Nat
  remapped : List (Nat × Nat × Nat)
  scrub : Table Nat
  cccLoaded : Bool
  deriving DecidableEq, Repr

/-- What the memory controllers hold of single words: ECC marks of 64-bit words by address (R98-R101), which are words holding a
single-bit error, words marked uncorrectable and corrected write-backs pending; the reservations of reserved loads (R341), as initiator
ID and 64-byte granule (log entry 68); and the device's own writes that have not reached their targets, oldest first (log entry 64). -/
structure Ecc where
  ce : List Nat
  ue : List Nat
  wb : List Nat
  resv : List (Nat × Nat)
  late : List LateWrite
  deriving DecidableEq, Repr

/-! ### Lessons, jobs, the Roster -/

/-- A stage of a resident Lesson as placed (R152, R153): its Seats in stage order, its Slate region and its
synchronisation block. -/
structure StagePlace where
  stage : Nat
  replica : Nat
  cluster : Nat
  seats : List Nat
  slateOff : Nat
  slate64k : Nat
  block : Option Nat
  deriving DecidableEq, Repr

/-- A resident Lesson (R145-R155): its image, its class in force, its measurement and signer, its placement, its CRCs,
its queues, the Quiz settings (R241) and marks (R243), a force-unload in progress (R158) and where its reply goes. -/
structure Lesson where
  slice : Nat
  id : Nat
  image : List Byte
  cls : Nat
  degradable : Bool
  digest : List Byte
  places : List StagePlace
  seatCrc : List (Nat × Nat)
  regionCrc : List (Nat × Nat)
  queueFirst : Nat
  cqFirst : Nat
  order : Nat
  quizPeriod : Nat
  quizPhase : Nat
  quizDefer : Nat
  quizPending : Bool
  quizSince : Nat
  quizOverdue : Bool
  quizFailed : Bool
  quizSeats : List (Nat × Nat)
  quizLast : Option Nat
  releasing : Bool
  releaseMb : Option (Nat × List Byte)
  deriving DecidableEq, Repr

/-- The fallback run that shares a job's tag (R183): its Lesson, its Seats with their replicas, the Seats whose END has
completed. -/
structure FbRun where
  lesson : Nat
  seats : List (Nat × Nat)
  sigEqual : Bool
  deriving DecidableEq, Repr

/-- A tile job of the raster front end or another device client that waits for a job's end (R225). -/
structure TileRef where
  pass : Nat
  tile : Nat
  step : Nat
  deriving DecidableEq, Repr

/-- A job in flight: one entry of the job table (R160-R165, R174, R177, R182-R184). States count as in R165. -/
structure Job where
  gen : Nat
  state : Nat
  status : Nat
  slice : Nat
  lesson : Nat
  origLesson : Nat
  jobRef : Nat
  flags : Nat
  deadline : Nat
  arm : Nat
  args : List Nat
  queue : Nat
  index : Nat
  cq : Nat
  cls : Nat
  intake : Nat
  group : Option Nat
  seats : List (Nat × Nat)
  firstIssue : Option Nat
  boosted : Bool
  fbUnavail : Bool
  late : Bool
  voltage : Bool
  rerun : Bool
  reruns : Nat
  degraded : Bool
  usedFallback : Bool
  sigEqual : Bool
  origStopped : Bool
  fb : Option FbRun
  entries : List Nat
  home : Option Nat
  sigOut : Word
  endTime : Nat
  armed : Bool
  passedArm : Bool
  discard : Bool
  tile : Option TileRef
  deriving DecidableEq, Repr

/-- A Roster entry (R178). `slot` counts within the home group. -/
structure RosterEntry where
  state : Nat
  slice : Nat
  lesson : Nat
  group : Nat
  slot : Nat
  step : Nat
  position : Nat
  advance : Nat
  fedMode : Bool
  feedPending : Bool
  budgetUs : Nat
  seqRef : Nat
  readyTime : Nat
  deriving DecidableEq, Repr

/-- A safety window (R186, R187, R316): whether its operating point has been requested, other Seats have been parked for it, it is
open. -/
structure Window where
  periodMs : Nat
  offsetUs : Nat
  lengthUs : Nat
  mask : Nat
  opp0 : Nat
  opp1 : Nat
  asked : Bool
  soon : Bool
  isOpen : Bool
  deriving DecidableEq, Repr

/-- A load in progress (R151, R159): the mailbox, the request and its requester, and the Lesson as it is placed, its content still to be written. -/
structure Loading where
  mb : Nat
  header : List Byte
  who : Initiator
  lesson : Lesson
  deriving DecidableEq, Repr

/-- The Registrar's own state (R151, R161-R163, R185-R189, R249): tags never issued (from `freshTag`) and freed tags in their order of reissue, the last generation of
each tag, intake order, records named by an ABORT before intake (queue, index), round-robin places, the rotation, the
budget steps in force, the timetable and the one that waits, the requests (mailbox, header) that are answered MS_RESTARTING once a restart
has ended (R322), the mailboxes of the LESSON_LOADs in the order in which these reached the Registrar, the mailbox of the latest, and the load in
progress. -/
structure Registrar where
  freshTag : Nat
  freeTags : List Nat
  gens : Table Nat
  nextIntake : Nat
  preAborts : List (Nat × Nat)
  badRuns : Table Nat
  lastSlice : Nat
  lastQueue : Table Nat
  rotation : List Nat
  short : Bool
  holdBest : Bool
  holdDisplay : Bool
  loadOrder : Nat
  windows : List Window
  nextWindows : Option (List Window)
  owed : List (Nat × List Byte)
  arrivals : List Nat
  lastLoad : Nat
  loading : Option Loading
  deriving DecidableEq, Repr

/-! ### Queues and mailboxes -/

/-- A queue (R353-R359): BASE, the QCFG fields and the counts. `cfg` is the word of QMGR_QCFG. -/
structure QRec where
  base : Nat
  cfg : Word
  prod : Nat
  cons : Nat
  used : Nat
  maxCells : Nat
  minCells : Nat
  deriving DecidableEq, Repr

/-- A request that a server has taken (R314): the header bytes, the requester, the features then in force, and whether a run of R333 has
met it, which a LESSON_LOAD does not survive (R335). -/
structure Req where
  header : List Byte
  who : Initiator
  features : Nat
  met : Bool
  deriving DecidableEq, Repr

/-- A Mladnel mailbox beyond its registers (R313, R314, R320, R321, R332): requests taken, replies and events held for room or for their memory,
the event counter, events dropped since the last EVENTS_LOST, who enqueued the requests that still wait in the ring, oldest first, and
whether the mailbox loses its negotiation once a held reply of DETACH has been written. -/
structure Mailbox where
  taken : List Req
  held : List (List Byte)
  evSeq : Nat
  lost : Nat
  lostPending : Bool
  senders : List Initiator
  negEnds : Bool
  deriving DecidableEq, Repr

/-! ### Slices -/

/-- A slice (R327-R335): its configuration, where `seatMask` holds SEAT_MASK by cluster; `phase` 0 not attached, 1 attached, 2 in grace, and the
token; the sequence of R333 while `running` (with the unload of SLICE_RESET, with the grace period of a detach, the requests that it
answers, its counts, and whether DRAIN_MS has passed); the last heartbeat; the bytes used of its quotas in the window of R330; when the
sequence and when the grace period began. Times are by `Clock.up`. -/
structure Slice where
  kind : Nat
  function : Nat
  ident : Nat
  strict : Bool
  heartbeatMs : Nat
  graceS : Nat
  dramBase : Nat
  dramSize : Nat
  tags : Nat
  workQueues : Nat
  roster : Nat
  drainMs : Nat
  dramQuota : Nat
  linkQuota : Nat
  slateBase : List Nat
  slateSize : List Nat
  seatMask : List Nat
  phase : Nat
  token : Word
  running : Bool
  runReset : Bool
  runDetach : Bool
  runReplies : List (Nat × List Byte)
  drained : Bool
  aborted : Nat
  squashed : Nat
  lastBeat : Nat
  dramUsed : Nat
  linkUsed : Table Nat
  runAt : Nat
  graceAt : Nat
  deriving DecidableEq, Repr

/-! ### Secure world -/

/-- A SECMB request that the Security Core has taken (R285, R286): where its reply header goes (for a monitor call the caller's header), the
bytes of header and payload, and whether the monitor submitted it. -/
structure SecReq where
  addr : Nat
  header : List Byte
  payload : List Byte
  call : Bool
  deriving DecidableEq, Repr

/-- The secure world beyond its registers (R283-R303, R308, R322): the APC_PROCID registers, the application cores in a monitor call with the
time of each, the status that the last call of a core returned in a0, the SECMB requests
that the Security Core has taken and the channel that it serves, wipes (the range in bytes from `lo` to below `hi`, counted from the memory's
start), sealed-off partitions, a level waiting for its wipe, a wipe of LPDDR5X at full bandwidth, what happens when both wipes
have ended (debug enables, a mailbox's lifecycle request, the Security Core's failure), the causes of the restarts in progress by the number of
R321, when each began (`Clock.up`) until a second event of that moment has joined it, and the processors, by that number, whose image is to be reloaded. -/
structure Sec where
  procId : Table Nat
  calls : Table Nat
  a0 : Table Nat
  chans : Table SecReq
  serving : Option Nat
  slateWipe : Option (Nat × Nat)
  slateLevel : Option Nat
  slateShut : List Nat
  dramWipe : Option (Nat × Nat)
  dramLevel : Option Nat
  dramShut : Bool
  dramFull : Bool
  tamperDram : Bool
  pendingDebug : Option Nat
  pendingLife : Option (Nat × Nat)
  lifeHeader : List Byte
  pendingFail : Bool
  pairAuth : Bool
  causes : Table Nat
  began : Table Nat
  reloads : List Nat
  deriving DecidableEq, Repr

/-- A line of the last-level cache (R287): its way, its number in LPDDR5X in units of 64 bytes, and its world tag. -/
structure LlcLine where
  way : Nat
  line : Nat
  secure : Bool
  deriving DecidableEq, Repr

/-! ### Bridges -/

/-- What a read that holds a tag is (R337, R339): a read of the bus; an atomic memory operation with its operand, at the peripheral bus the read of
its read and write, at the partner the whole of it (R341); the Die Bridge's part of a read that goes on through the Peripheral or the Pair
Bridge, whose tag there is `outer`; a barrier read. -/
inductive ReadKind where
  | bus
  | atomic (f : AmoOp) (operand : List Byte)
  | leg (outer : Nat)
  | barrier
  deriving DecidableEq, Repr

/-- A read that a bridge holds a tag for (R339). `tag` is 256 x link + the tag on that link, where the link is the die at its far end, or 0 for
the one link of the Peripheral and of the Pair Bridge; `target` is the address at the far side (R33); `after` counts the posted writes that
went out through the bridge before it; `since` is when it went out (`Clock.up`). -/
structure BridgeRead where
  tag : Nat
  who : Initiator
  addr : Nat
  target : Nat
  bytes : Nat
  kind : ReadKind
  after : Nat
  since : Nat
  timedOut : Bool
  squashed : Bool
  deriving DecidableEq, Repr

/-- A lock of a bridge (R341): the initiator ID of its holder, the granule, and when it was taken (`Clock.up`). -/
structure BridgeLock where
  holder : Nat
  granule : Nat
  since : Nat
  deriving DecidableEq, Repr

/-- A posted write that is not yet known to have been performed (R337, R345): its initiator ID, its slice plus 1 (0: no slice), its number
among the posted writes of the bridge, of which the sequence tag is the low 8 bits, the link that it took (as for a read), its target as
the initiator sees it and at the far side (R33), its bytes, and the REASON of its failure where it is known to have failed (0: not known). -/
structure PostedWrite where
  init : Nat
  slice : Nat
  num : Nat
  link : Nat
  addr : Nat
  target : Nat
  bytes : List Byte
  reason : Nat
  deriving DecidableEq, Repr

/-- A bridge beyond its registers (R336-R346): outstanding reads, posted writes not yet known to have been performed, the
locks or the semaphore, the requests that lost a crossing with the initiator ID of the winner once it is known (R342), the sequences whose lock has
lapsed, side-band signals as delivered, initiators whose posted
writes have failed since their last barrier read, barrier reads waiting, and the number of posted writes sent. -/
structure BridgeX where
  reads : List BridgeRead
  posted : List PostedWrite
  locks : List BridgeLock
  retry : List (BridgeLock × Option Nat)
  lapsed : List BridgeLock
  sideband : Word
  failed : List Nat
  barriers : List Nat
  sent : Nat
  deriving DecidableEq, Repr

/-- The pair link (R348); `lastEdge` is when the last ALIVE_IN edge came (`Clock.up`). -/
structure PairX where
  trained : Bool
  everTrained : Bool
  edgeSeen : Bool
  lastEdge : Nat
  allowanceOver : Bool
  deriving DecidableEq, Repr

/-! ### The planning engine -/

/-- A trajectory step relative to the plan's start (R207). -/
structure PlanStep where
  dx : Int
  dy : Int
  th : Nat
  v : Nat
  deriving DecidableEq, Repr

/-- The previous output of a channel (R213). -/
structure PlanPrev where
  px : Int
  py : Int
  tStart : Nat
  steps : List PlanStep
  deriving DecidableEq, Repr

/-- What the bytes of a signed image, with its trailer, have been found to be (R149, R256): the root that their chain verifies to, and the records of
a Rubric, whose layout the spec does not give (log entry 90). -/
structure ImageFound where
  bytes : List Byte
  root : SigRoot
  rubric : Option RubricContent
  deriving DecidableEq, Repr

/-- A cycle (R205, R206): the latched configuration and start records and CTRL, its release, the software candidates
fetched, the serial of its snapshot epoch, whether it is suspended, whether its guard point has passed, and whether the fetch of its candidates still
waits for its memory. -/
structure PlanCycle where
  cfg : List Nat
  start : List Nat
  ctrl : Nat
  priv : Bool
  release : Nat
  cands : List Byte
  candErr : Bool
  snap : Option Nat
  suspended : Bool
  guarded : Bool
  owed : Bool
  deriving DecidableEq, Repr

/-- A channel beyond its registers. -/
structure PlanChan where
  cycle : Option PlanCycle
  prev : Option PlanPrev
  deriving DecidableEq, Repr

/-- An epoch of the store (R194, R196): `full` where it shares no node with the one before it; `ue` the cells (level, index) whose
node is marked uncorrectable (R210, R218). -/
structure PlanEpoch where
  serial : Nat
  number : Nat
  full : Bool
  t0 : Nat
  wx0 : Int
  wy0 : Int
  tree : Occ0
  ue : List (Nat × Nat)
  deriving DecidableEq, Repr

/-- The planning engine: tags whose batch is still to be copied, the staged batch (its bytes, `none` where its read got an error
response), the epoch built and not yet swapped in, the epochs, newest first, with those between live ones kept for the
count of shared nodes, and the channels with a running or suspended cycle. -/
structure Plan where
  copies : List Nat
  staging : Option (Option (List Byte))
  built : Option PlanEpoch
  epochs : List PlanEpoch
  nextSerial : Nat
  running : Option Nat
  chans : Table PlanChan
  deriving DecidableEq, Repr

/-! ### Raster front end and display -/

/-- A bin record of the pass (R222): its tile and its 256 bytes. -/
structure RastRec where
  tile : Nat
  bytes : List Byte
  deriving DecidableEq, Repr

/-- A tile of the pass (R225, R227): the ARGS of its jobs still to be submitted, the record submitted and not yet taken in
(queue and ring index), the tag of its job in flight, its shading Lesson (key) and its owner Seat, whether that Seat holds
it now, whether its RESOLVE or SPILL is still to commit, and whether it has been spilled. -/
structure RastTile where
  todo : List (List Nat)
  sub : Option (Nat × Nat)
  tag : Option Nat
  lesson : Nat
  seat : Option Nat
  begun : Bool
  live : Bool
  spilled : Bool
  deriving DecidableEq, Repr

/-- A pass (R220, R227, R228): its PASS_BEGIN, PASS_ID, deadline, the latches of its pipe up to and with its target latch, the next SEQ,
the records in bin memory, its tiles, the triangle and record of the DRAW in hand at which binning stopped, and whether PASS_END has been
read. -/
structure RastPass where
  cmd : List Byte
  id : Nat
  deadline : Option Nat
  left : Option Nat
  seq : Nat
  recs : List RastRec
  tiles : Table RastTile
  stopped : Option (Nat × Nat)
  ending : Bool
  deriving DecidableEq, Repr

/-- A line of the frame on which a plane (4 x pipe + plane) is black from pixel `from'` on (R232). -/
structure DarkLine where
  plane : Nat
  line : Nat
  from' : Nat
  deriving DecidableEq, Repr

/-- The front end: the next PASS_ID, the pass, whether commands are discarded up to a PASS_END, and the records (queue and ring index) of abandoned
passes that have still to be taken in (R220); per plane (4 x pipe + plane) the
buffer shown and the CFG in force (R231); per pipe the time of its last latch, or of its first one to come (R228); the lines on which a
plane has underrun in this frame (R232). -/
structure Rast where
  nextId : Nat
  pass : Option RastPass
  skipping : Bool
  gone : List (Nat × Nat)
  shown : Table Nat
  cfgNow : Table Word
  anchor : Table Nat
  dark : List DarkLine
  deriving DecidableEq, Repr

/-! ### Proctor -/

/-- The latest value of a signal, element by element in FP64, with its time, and the value before it (R259). -/
structure SigVal where
  time : Nat
  vals : List Nat
  prev : Option (Nat × List Nat)
  deriving DecidableEq, Repr

/-- A loaded Rubric (R256-R258). -/
structure Rubric where
  signals : List (List Byte)
  checks : List (List Byte)
  queue : Nat
  vals : Table SigVal
  deriving DecidableEq, Repr

/-- The coverage of a Drill instance (R249): the start of the interval, when the pass in hand began, the steps of it that are done, and
whether the next one runs. -/
structure DrillPass where
  start : Nat
  began : Nat
  step : Nat
  running : Bool
  deriving DecidableEq, Repr

/-- Proctor, the Drill and Roll Call beyond their registers: Rubrics by slot, coverage intervals in ms per unit type, passes by unit
type x 128 + instance, events held while their source is under test, compare path failed or under test, streams unguarded,
streams with a previous valid frame, channels whose PROC_PLAN_STALE condition holds, streams between a frame start and its end, the
start of each stream's STALE time (R254), what a frame start replaced (STALE time, STALE, SEEN), which a frame that ends invalid brings back
(R255), and when each planning channel last gave an output or was enabled, by `Clock.up` (R261). -/
structure Proc where
  rubrics : Table Rubric
  intervals : Table Nat
  passes : Table DrillPass
  heldEvents : List Nat
  compareBad : Bool
  unguarded : List Nat
  rollPrev : List Nat
  planStale : List Nat
  inFrame : List Nat
  staleFrom : Table Nat
  rollSaved : Table (Nat × Bool × Bool)
  planOut : Table Nat
  deriving DecidableEq, Repr

/-! ### The gateway -/

/-- A frame in the pool (R359-R362): an Ethernet frame's bytes or a CAN frame, its ingress port and timestamp, DEFAULT, its
cells and the queue whose reservation holds them (none: the shared remainder), the queues that still hold a copy, the transmit entry that waits
for its timestamp, whether its FCS is good, and the queues to which it goes cut-through (R368). -/
structure GwFrame where
  bytes : List Byte
  can : Option CanFrame
  port : Nat
  stamp : Nat
  isDefault : Bool
  cells : Nat
  charged : Option Nat
  copies : List Nat
  tsBack : Option (Nat × Nat)
  fcsOk : Bool
  cut : List Nat
  deriving DecidableEq, Repr

/-- A frame that left a port: its port, its bytes without FCS, and whether its FCS was inverted (R360, R368). -/
structure SentFrame where
  port : Nat
  bytes : List Byte
  inverted : Bool
  deriving DecidableEq, Repr

/-- A gate control list of a port (R350): the list, the cycle with which it starts, and once it has started the entry in force with the start of its
cycle and its end. -/
structure GateRun where
  list : GateList
  starts : Nat
  place : Option (Nat × Nat × Nat)
  deriving DecidableEq, Repr

/-- The credit-based shaper of a class (R350): its idle slope in kb/s, its credit in millionths of a bit as of a moment, and the end of the transmission
of the class that it still counts. -/
structure Shaper where
  slope : Nat
  credit : Int
  since : Nat
  sendEnd : Nat
  deriving DecidableEq, Repr

/-- The gateway beyond its registers: Classification Table banks by index, ways marked uncorrectable (bank x 65536 + index), frames by
identity, network queues' frames in order, enabled CAN controllers and those bus-off, templates, managed objects, the gate control list of each
port, the shapers by queue, when each port's transmission ends, the frame counters (8 x port + kind) and the objects that read them (port x 8 + kind, by
code and instance), the PHY delay of each port, sequence numbers per 802.1CB stream and template, GW_POOL_LOW raised, a
copy running, host transmit entries consumed whose timestamp is awaited, the frame sent last. -/
structure Gw where
  bank0 : Table (List Byte)
  bank1 : Table (List Byte)
  badWays : List Nat
  frames : Table GwFrame
  nextFrame : Nat
  held : Table (List Nat)
  canOn : List Nat
  busOff : List Nat
  templates : Table Template
  objects : Table Word
  gates : Table GateRun
  shapers : Table Shaper
  busy : Table Nat
  mib : Table Nat
  mibObjs : Table Nat
  phy : Table Nat
  seqNo : Table Nat
  poolLow : Bool
  copyBusy : Bool
  txWait : Table (List Nat)
  sent : Option SentFrame
  deriving DecidableEq, Repr

/-- The time unit beyond its registers (R371-R373): the next leading edge of each time-triggered output that runs; the leading edge and the width of
the last pulse of each; the Vehicle Times before and after the forward step of R372; the sequenceId of the last Sync (R397, R400). -/
structure TimeX where
  next : Table Nat
  pulse : Table (Nat × Nat)
  stepped : Option (Nat × Nat)
  seq : Option (BitVec 16)
  deriving DecidableEq, Repr

/-! ### The machine -/

/-- The state of the device. `llc` are the lines of the last-level cache, the latest used last (R287). `pending` is the queue of commands (first in, first out), `bus` the response of the last
access, `fresh` the counter that free values are applied to, `irqOut` the queue and vector of every queue interrupt sent since reset, the latest first (R357); these
four are the model's own. -/
structure State where
  pending : List Instr
  bus : BusReply
  fresh : Nat
  irqOut : List (Nat × Nat)
  regs : Table Word
  mem : List Host.Cell
  ecc : Ecc
  pins : Pins
  fuses : Fuses
  boot : Boot
  clock : Clock
  fcu : FcuHid
  dies : Table Die
  pwr : Pwr
  seats : Table SeatX
  cores : Table CoreX
  clusters : Table ClusterX
  lessons : Table Lesson
  jobs : Table Job
  roster : Table RosterEntry
  reg : Registrar
  queues : Table QRec
  qsel : Table Nat
  mbox : Table Mailbox
  slices : Table Slice
  sec : Sec
  found : List ImageFound
  llc : List LlcLine
  bridges : Table BridgeX
  pair : PairX
  plan : Plan
  rast : Rast
  proc : Proc
  gw : Gw
  time : TimeX
  deriving DecidableEq, Repr

/-! ### Reset -/

/-- Fuses of a device as fitted: fused limits of R386 and R309, lifecycle BLANK, no owner slot, secrets of zero, no row replaced (log entry 7). -/
def Fuses.fitted : Fuses := ⟨0, 0, 0, false, [0, 0, 0, 0, 0], none, 220, 220, 4, 4, 125, 10, 450, 380, [0, 0, 0], []⟩

/-- The boot state while the device is held in reset. -/
def Boot.held : Boot :=
  { inReset := true, thermOff := 0, strapEn := false, strapRole := false, fcuPassed := false, scFailed := false, regHeld := false
    pmcHeld := false, procHeld := false, cccHeld := false, cccVerified := false, dramTrained := false
    dramServing := false, apcOut := false, bootFlags := 0, gwDone := false, measure := [0, 0, 0, 0, 0]
    firstSecDigest := none, devRoots := 0, bootRefusals := [], reportMb := none, limpNoted := false, cdSeen := [], pairSeen := false
    secretShut := [], cdi := [], aliasCert := 0 }

def Registrar.start : Registrar :=
  { freshTag := 0, freeTags := [], gens := [], nextIntake := 0, preAborts := [], badRuns := [], lastSlice := 63
    lastQueue := [], rotation := [], short := false, holdBest := false, holdDisplay := false, loadOrder := 0
    windows := [], nextWindows := none, owed := [], arrivals := [], lastLoad := 63, loading := none }

def Sec.start : Sec :=
  { procId := [], calls := [], a0 := [], chans := [], serving := none, slateWipe := none, slateLevel := none, slateShut := []
    dramWipe := none, dramLevel := none, dramShut := false, dramFull := false, tamperDram := false, pendingDebug := none
    pendingLife := none, lifeHeader := [], pendingFail := false, pairAuth := false, causes := [], began := [], reloads := [] }

def Pwr.start : Pwr :=
  { temps := [], clampHub := false, overSamples := 0, sinceExc := none, sustaining := false, sustCount := 0, acted := false, actedLast := false
    hubLow := false, ddrRefreshOnly := false, gatedClock := 0, gatedPower := 0, stopped := [], shutdown := false
    holdPending := 0, linksUp := 0 }

def Plan.start : Plan :=
  { copies := [], staging := none, built := none, epochs := [], nextSerial := 0, running := none, chans := [] }

def Proc.start : Proc :=
  { rubrics := [], intervals := [], passes := [], heldEvents := [], compareBad := false, unguarded := [], rollPrev := []
    planStale := [], inFrame := [], staleFrom := [], rollSaved := [], planOut := [] }

def Gw.start : Gw :=
  { bank0 := [], bank1 := [], badWays := [], frames := [], nextFrame := 0, held := [], canOn := [], busOff := []
    templates := [], objects := [], gates := [], shapers := [], busy := [], mib := [], mibObjs := [], phy := [], seqNo := [], poolLow := false, copyBusy := false, txWait := []
    sent := none }

/-- Everything at its reset value with the given fuses, pins and always-on registers (R392, R393): the device is held in
reset, every memory is empty, no register is listed but those of the always-on island. Slate, Locker and LPDDR5X start empty
(log entry 5). -/
def State.cleared (pins : Pins) (fuses : Fuses) (aon : Table Word) : State :=
  { pending := [], bus := .none, fresh := 0, irqOut := [], regs := aon, mem := [], ecc := ⟨[], [], [], [], []⟩, pins := pins, fuses := fuses
    boot := Boot.held, clock := ⟨0, 0, false, 0⟩, fcu := ⟨[], [], [], false, 1000, []⟩, dies := [], pwr := Pwr.start, seats := []
    cores := [], clusters := [], lessons := [], jobs := [], roster := [], reg := Registrar.start, queues := [], qsel := []
    mbox := [], slices := [], sec := Sec.start, found := [], llc := [], bridges := [], pair := ⟨false, false, false, 0, false⟩
    plan := Plan.start, rast := ⟨0, none, false, [], [], [], [], []⟩, proc := Proc.start, gw := Gw.start, time := ⟨[], [], none, none⟩ }

/-- The machine right after reset: power-on reset (cause POR, R393), with the internal reset not yet released (log entry 4). -/
def State.reset : State :=
  State.cleared ⟨false, false, false, false, false, 65536⟩ Fuses.fitted [(0xF000020, 1)]

end Sys2Proof.Machine
end

