-- ==== Sys2Proof/Machine/Ops.lean ====
section
/-! DEFINITION. The named operations over registers, memories and the tables of the state, and the reset values of the
tables' entries. Every read and write of a register field or of memory goes through these. -/

namespace Sys2Proof.Machine

/-! ### Registers (R10-R14) -/

/-- The word of a register: what it holds, or its reset value. -/
def State.reg64 (s : State) (r : Reg) : Nat := (Table.get s.regs (BitVec.ofNat 64 r.rst) r.addr).toNat

/-- Store a register's word. -/
def State.setReg64 (s : State) (r : Reg) (v : Nat) : State :=
  { s with regs := Table.set s.regs (BitVec.ofNat 64 r.rst) r.addr (BitVec.ofNat 64 v) }

/-- The number of values of a field. -/
def FRef.span (f : FRef) : Nat := 2 ^ (f.hi + 1 - f.lo)

/-- The value of a field of the word `w`. -/
def FRef.of (f : FRef) (w : Nat) : Nat := w / 2 ^ f.lo % f.span

/-- The word `w` with the field replaced by the low bits of `v`. -/
def FRef.into (f : FRef) (w v : Nat) : Nat := w - f.of w * 2 ^ f.lo + v % f.span * 2 ^ f.lo

/-- The value of a register field. -/
def State.rd (s : State) (f : FRef) : Nat := f.of (s.reg64 f.reg)

/-- Write a register field, as the hardware does. -/
def State.wr (s : State) (f : FRef) (v : Nat) : State := s.setReg64 f.reg (f.into (s.reg64 f.reg) v)

/-- A one-bit field is set. -/
def State.on (s : State) (f : FRef) : Bool := s.rd f = 1

/-- Add to a counter field that saturates. -/
def State.satAdd (s : State) (f : FRef) (n : Nat) : State := s.wr f (min (s.rd f + n) (f.span - 1))

/-- Add to a counter field that wraps. -/
def State.wrapAdd (s : State) (f : FRef) (n : Nat) : State := s.wr f (s.rd f + n)

/-- Bits `hi` to `lo` of a word. -/
def bits (w hi lo : Nat) : Nat := w / 2 ^ lo % 2 ^ (hi + 1 - lo)

/-- Bit `n` of a word. -/
def bit (w n : Nat) : Bool := w / 2 ^ n % 2 = 1

/-- A Boolean as a bit. -/
def b2n (b : Bool) : Nat := if b then 1 else 0

/-- The word with bit `n` set. -/
def setBit (w n : Nat) : Nat := if bit w n then w else w + 2 ^ n

/-- The word with bit `n` clear. -/
def clearBit (w n : Nat) : Nat := if bit w n then w - 2 ^ n else w

/-- The number of bits set among the low `n`. -/
def popCount : Nat → Nat → Nat
  | 0, _ => 0
  | n + 1, w => b2n (bit w n) + popCount n w

/-- ceil(a / b). -/
def ceilDiv (a b : Nat) : Nat := (a + b - 1) / b

/-! ### Little-endian bytes (R10) -/

/-- The low `n` bytes of a number, least significant first. -/
def leBytes : Nat → Nat → List Byte
  | 0, _ => []
  | n + 1, v => BitVec.ofNat 8 v :: leBytes n (v / 256)

/-- The number that bytes spell, least significant first. -/
def leNat : List Byte → Nat
  | [] => 0
  | b :: t => b.toNat + 256 * leNat t

/-- `n` bytes of a list from offset `o`, as a number; missing bytes are 0. -/
def leAt (bs : List Byte) (o n : Nat) : Nat := leNat ((bs.drop o).take n)

/-! ### Memory (R30) -/

/-- What a byte that nothing has written reads as: zero. Locker and Slate are zero-filled at power-up (R96); LPDDR5X holds
zero in the model (log entry 5, DESIGN CHOICE). -/
def memDefault : Byte := 0#8

/-- One byte of Locker, Slate or LPDDR5X. -/
def State.byte (s : State) (a : Nat) : Byte := Table.get s.mem memDefault a

/-- `n` bytes from `a`. -/
def State.readMem (s : State) (a : Nat) : Nat → List Byte
  | 0 => []
  | n + 1 => s.byte a :: State.readMem s (a + 1) n

/-- The number in the `n` bytes from `a` (R10). -/
def State.readLe (s : State) (a n : Nat) : Nat := leNat (s.readMem a n)

/-- Store bytes from `a`. -/
def memPut (m : List Host.Cell) (a : Nat) : List Byte → List Host.Cell
  | [] => m
  | b :: t => memPut (Table.set m memDefault a b) (a + 1) t

/-- Store bytes from `a` in memory; nothing else changes. -/
def State.writeMem (s : State) (a : Nat) (bs : List Byte) : State := { s with mem := memPut s.mem a bs }

/-- Zero the bytes from `lo` to below `hi`. -/
def State.zeroMem (s : State) (lo hi : Nat) : State := { s with mem := Table.cut s.mem lo hi }

/-- The canonical form of memory: addresses strictly rising, and no entry equal to what an unlisted address reads as. -/
def memWf (m : List Host.Cell) : Bool := Table.wf (fun _ => memDefault) m

/-! ### The address map (R30) -/

def slateBase : Nat := 0x100000000
def lockerBase : Nat := 0x140000000
def dramBase : Nat := 0x800000000
def pairBase : Nat := 0x2000000000
def clusterBase (n : Nat) : Nat := 0x20000000 + n * 0x10000

/-- Where an address lies (R30, R31). -/
inductive Place where
  | rom
  | periph
  | regs
  | slate (cluster offset : Nat)
  | locker (core offset : Nat)
  | dram (offset : Nat)
  | pairWin (offset : Nat)
  | hole
  deriving DecidableEq, Repr

/-- A register block of 64 KiB (R16, R30). -/
def inRegBlock (a : Nat) : Bool :=
  (0x0F000000 ≤ a && a < 0x0F010000) || (0x0F100000 ≤ a && a < 0x0F110000) || (0x0F200000 ≤ a && a < 0x0F210000)
    || (0x0FE00000 ≤ a && a < 0x0FE30000) || (0x0FF00000 ≤ a && a < 0x0FF10000)
    || (0x10000000 ≤ a && a < 0x10100000) || (0x20000000 ≤ a && a < 0x20100000)

/-- The place of an address when `fitted` MiB of LPDDR5X are fitted. -/
def placeOf (fitted a : Nat) : Place :=
  if a < 0x40000 then .rom
  else if 0x08000000 ≤ a && a < 0x0C000000 then .periph
  else if inRegBlock a then .regs
  else if slateBase ≤ a && a < 0x120000000 then .slate ((a - slateBase) / 0x2000000) ((a - slateBase) % 0x2000000)
  else if lockerBase ≤ a && a < 0x150000000 then .locker ((a - lockerBase) / 0x200000) ((a - lockerBase) % 0x200000)
  else if dramBase ≤ a && a < dramBase + min fitted 65536 * 0x100000 then .dram (a - dramBase)
  else if pairBase ≤ a && a < 0x3000000000 then .pairWin (a - pairBase)
  else .hole

def lockerAddr (core off : Nat) : Nat := lockerBase + core * 0x200000 + off
def slateAddr (cluster off : Nat) : Nat := slateBase + cluster * 0x2000000 + off

/-! ### Entries of the tables and their values at reset -/

def Die.zero : Die := ⟨false, false, false, false, false, false, 0, false, 4, false, 0, false, 0, none⟩
def SeatX.zero : SeatX := ⟨[], 0#64, [], none, none, false, none, false, false, []⟩
def CoreX.zero : CoreX := ⟨none, none, false, false⟩
def March.zero : March := ⟨[], 0, 0, 0, 0, false, false, [], none, false⟩
def ClusterX.zero : ClusterX := ⟨false, [], [], March.zero, [], [], [], false⟩
def QRec.zero : QRec := ⟨0, 0#64, 0, 0, 0, 0, 0⟩
def Mailbox.zero : Mailbox := ⟨[], [], 0, 0, false, [], false⟩
def Slice.zero : Slice :=
  { kind := 2, function := 0, ident := 0, strict := false, heartbeatMs := 100, graceS := 5, dramBase := 0, dramSize := 0, tags := 0
    workQueues := 0, roster := 0, drainMs := 2, dramQuota := 0, linkQuota := 0, slateBase := [], slateSize := [], seatMask := []
    phase := 0, token := 0#64, running := false, runReset := false, runDetach := false, runReplies := [], drained := false
    aborted := 0, squashed := 0, lastBeat := 0, dramUsed := 0, linkUsed := [], runAt := 0, graceAt := 0 }
def BridgeX.zero : BridgeX := ⟨[], [], [], [], [], 0#64, [], [], 0⟩
def RosterEntry.zero : RosterEntry := ⟨0, 0, 0, 0, 0, 0, 0, 0, false, false, 0, 0, 0⟩

def State.die (s : State) (d : Nat) : Die := Table.get s.dies Die.zero d
def State.setDie (s : State) (d : Nat) (x : Die) : State := { s with dies := Table.set s.dies Die.zero d x }
def State.seat (s : State) (g : Nat) : SeatX := Table.get s.seats SeatX.zero g
def State.setSeat (s : State) (g : Nat) (x : SeatX) : State := { s with seats := Table.set s.seats SeatX.zero g x }
def State.core (s : State) (m : Nat) : CoreX := Table.get s.cores CoreX.zero m
def State.setCore (s : State) (m : Nat) (x : CoreX) : State := { s with cores := Table.set s.cores CoreX.zero m x }
def State.cluster (s : State) (n : Nat) : ClusterX := Table.get s.clusters ClusterX.zero n
def State.setCluster (s : State) (n : Nat) (x : ClusterX) : State :=
  { s with clusters := Table.set s.clusters ClusterX.zero n x }
def State.queue (s : State) (q : Nat) : QRec := Table.get s.queues QRec.zero q
def State.setQueue (s : State) (q : Nat) (x : QRec) : State := { s with queues := Table.set s.queues QRec.zero q x }
def State.mb (s : State) (i : Nat) : Mailbox := Table.get s.mbox Mailbox.zero i
def State.setMb (s : State) (i : Nat) (x : Mailbox) : State := { s with mbox := Table.set s.mbox Mailbox.zero i x }
def State.slice (s : State) (i : Nat) : Slice := Table.get s.slices Slice.zero i
def State.setSlice (s : State) (i : Nat) (x : Slice) : State := { s with slices := Table.set s.slices Slice.zero i x }
def State.bridge (s : State) (b : Nat) : BridgeX := Table.get s.bridges BridgeX.zero b
def State.setBridge (s : State) (b : Nat) (x : BridgeX) : State :=
  { s with bridges := Table.set s.bridges BridgeX.zero b x }
def State.entry (s : State) (i : Nat) : RosterEntry := Table.get s.roster RosterEntry.zero i
def State.setEntry (s : State) (i : Nat) (x : RosterEntry) : State :=
  { s with roster := Table.set s.roster RosterEntry.zero i x }
def State.setJob (s : State) (t : Nat) (j : Job) : State := { s with jobs := Table.put s.jobs t j }
def State.job? (s : State) (t : Nat) : Option Job := Table.find s.jobs t
def State.lesson? (s : State) (k : Nat) : Option Lesson := Table.find s.lessons k
def State.setLesson (s : State) (k : Nat) (l : Lesson) : State := { s with lessons := Table.put s.lessons k l }

/-- The key of a Lesson in its slice. -/
def lessonKey (slice id : Nat) : Nat := slice * 2 ^ 64 + id

/-! ### Numbering (R4, R5) -/

def coreOf (g : Nat) : Nat := g / 8
def clusterOf (g : Nat) : Nat := g / 64
def dieOf (cluster : Nat) : Nat := cluster / 8

/-- CLC_SEAT_STATE.STATE of global Seat `g` (R43): 0 EMPTY, 1 IDLE, 2 READY, 3 ISSUING, 4 BLOCKED, 5 PARKED, 6 HALTED. -/
def State.seatState (s : State) (g : Nat) : Nat := s.rd (CLC_SEAT_STATE.STATE (g / 64) (g % 64))

/-- Move a Seat to another state. A halting error is cleared when the Seat leaves HALTED, and SHARE_OVERLAP when it
enters READY (R43, R45). -/
def State.setSeatState (s : State) (g v : Nat) : State :=
  let f := CLC_SEAT_STATE.LAST_ERR (g / 64) (g % 64)
  let s1 := if s.seatState g = 6 ∧ v ≠ 6 then s.wr f 0 else s
  let s2 := if v = 2 ∧ s1.rd f = 4 then s1.wr f 0 else s1
  s2.wr (CLC_SEAT_STATE.STATE (g / 64) (g % 64)) v

/-- A write to CLC_SEAT_SHARE has taken effect: LAST_ERR no longer holds SHARE_OVERLAP (R45). -/
def State.clearOverlap (s : State) (g : Nat) : State :=
  let f := CLC_SEAT_STATE.LAST_ERR (g / 64) (g % 64)
  if s.rd f = 4 then s.wr f 0 else s

/-- Physical start and size in bytes of a Seat's Locker share (R40). -/
def State.shareOf (s : State) (g : Nat) : Nat × Nat :=
  (lockerAddr (coreOf g) (s.rd (CLC_SEAT_SHARE.BASE_4K (g / 64) (g % 64)) * 4096),
   s.rd (CLC_SEAT_SHARE.SIZE_4K (g / 64) (g % 64)) * 4096)

/-- The slice of a Seat (R328). -/
def State.seatSlice (s : State) (g : Nat) : Option Nat :=
  if s.on (CLC_SEAT_SHARE.SLICE_VALID (g / 64) (g % 64)) then some (s.rd (CLC_SEAT_SHARE.SLICE (g / 64) (g % 64)))
  else none

/-! ### Units and clock domains (R21, R292, R389, R391) -/

/-- The PLL of a clock domain runs. -/
def State.domainOn (s : State) (d : Nat) : Bool := !s.pwr.stopped.contains d

/-- The clock domains of a gateable unit of PMC_SEC_HOLD. -/
def unitDomains (u : Nat) : List Nat :=
  match u with
  | 2 => [12] | 3 => [13] | 4 => [14] | 5 => [32, 33] | 6 => [23] | 7 => [24] | 8 => [25] | 9 => [26] | 10 => [27] | 11 => [22]
  | 12 => [30] | 13 => [31] | 14 => [29] | _ => []

/-- A unit of PMC_SEC_HOLD has its clock and its power. -/
def State.unitOn (s : State) (u : Nat) : Bool :=
  !bit s.pwr.gatedClock u && !bit s.pwr.gatedPower u && (unitDomains u).all s.domainOn

/-! ### Wrapping values and time -/

/-- R397: the difference of two wrapping `n`-bit values, read as a signed `n`-bit number. -/
def wrapDiff (n a b : Nat) : Int :=
  let d := (a + 2 ^ n - b % 2 ^ n) % 2 ^ n
  if d < 2 ^ (n - 1) then (d : Int) else (d : Int) - (2 : Int) ^ n

/-- Vehicle Time in milliseconds (R267). -/
def State.nowMs (s : State) : Nat := s.clock.now / 1000000

/-- `ns` nanoseconds have passed since `since`, by the device's own clock. -/
def State.passed (s : State) (since ns : Nat) : Bool := decide (since + ns ≤ s.clock.up)

/-- An event that comes every `period` microseconds from `phase` is due: its Vehicle Time is now, or fell within the forward step that was made at
this moment (R372). -/
def State.dueEvery (s : State) (period phase : Nat) : Bool :=
  let t := s.clock.now / 1000
  let count := fun (u : Nat) => (u + period - phase % period) / period
  decide (t % period = phase % period) || (match s.time.stepped with
    | some (before, after) => decide (t = after / 1000) && decide (count (before / 1000) < count t)
    | none => false)

/-- A fresh draw for a free value. -/
def State.draw (s : State) : Nat × State := (s.fresh, { s with fresh := s.fresh + 1 })

/-- The effect of a command while the device is out of reset; a device held in reset does nothing (R392). -/
def State.live (s t : State) : State := if s.boot.inReset then s else t

/-- `f` under a condition. -/
def State.when (s : State) (c : Bool) (f : State → State) : State := if c then f s else s

/-- Fold a list of updates. -/
def State.each {α : Type} (s : State) (l : List α) (f : State → α → State) : State := l.foldl f s

end Sys2Proof.Machine
end

