-- ==== Sys2Proof/Machine/Image.lean ====
section
/-! DEFINITION. Lesson images read as the loader reads them (06_lessons R145-R149), and the cyclic codes of the device:
CRC-32C (R154) and CRC-64 (10_safety_mechanisms R235). -/

namespace Sys2Proof.Machine

/-! ### Header (R145) -/
def imMagic (m : List Byte) : Nat := leAt m 0x00 4
def imFormat (m : List Byte) : Nat := leAt m 0x04 2
def imHeaderLen (m : List Byte) : Nat := leAt m 0x06 2
def imId (m : List Byte) : Nat := leAt m 0x08 8
def imFallback (m : List Byte) : Nat := leAt m 0x10 8
def imFlags (m : List Byte) : Nat := leAt m 0x18 4
def imSafety (m : List Byte) : Bool := bit (imFlags m) 0
def imSequence (m : List Byte) : Bool := bit (imFlags m) 1
def imRaster (m : List Byte) : Bool := bit (imFlags m) 2
def imClass (m : List Byte) : Nat := leAt m 0x1C 1
def imStages (m : List Byte) : Nat := leAt m 0x1D 1
def imBatch (m : List Byte) : Nat := leAt m 0x1E 2
def imEnergy (m : List Byte) : Nat := leAt m 0x20 4
def imQueues (m : List Byte) : Nat := leAt m 0x24 4
def imSeqMax (m : List Byte) : Nat := leAt m 0x28 4
def imQuizCycles (m : List Byte) : Nat := leAt m 0x2C 4
def imQuizSig (m : List Byte) : Nat := leAt m 0x30 8
def imQuizEntry (m : List Byte) : Nat := leAt m 0x38 4
def imSections (m : List Byte) : Nat := leAt m 0x3C 4
def imStageOff (m : List Byte) : Nat := leAt m 0x40 4
def imSectionOff (m : List Byte) : Nat := leAt m 0x44 4
def imLen (m : List Byte) : Nat := leAt m 0x48 4
def imTrailer (m : List Byte) : Nat := leAt m 0x4C 4

/-! ### Stage table (R146), entry `k` -/
def stAt (m : List Byte) (k o n : Nat) : Nat := leAt m (imStageOff m + 32 * k + o) n
def stCores (m : List Byte) (k : Nat) : Nat := stAt m k 0 1
def stSeatsPerCore (m : List Byte) (k : Nat) : Nat := stAt m k 1 1
def stLocker4k (m : List Byte) (k : Nat) : Nat := stAt m k 2 2
def stSlate64k (m : List Byte) (k : Nat) : Nat := stAt m k 4 2
def stSemBlock (m : List Byte) (k : Nat) : Nat := stAt m k 6 1
def stEntry (m : List Byte) (k : Nat) : Nat := stAt m k 8 4
/-- Number of Seats of stage `k`. -/
def stSeats (m : List Byte) (k : Nat) : Nat := stCores m k * stSeatsPerCore m k

/-! ### Section table (R147), entry `k` -/
def seAt (m : List Byte) (k o n : Nat) : Nat := leAt m (imSectionOff m + 24 * k + o) n
def seKind (m : List Byte) (k : Nat) : Nat := seAt m k 0 1
def seConst (m : List Byte) (k : Nat) : Nat := seAt m k 1 1
def seStage (m : List Byte) (k : Nat) : Nat := seAt m k 2 1
def seSeat (m : List Byte) (k : Nat) : Nat := seAt m k 3 1
def seDest (m : List Byte) (k : Nat) : Nat := seAt m k 4 4
def seSrc (m : List Byte) (k : Nat) : Nat := seAt m k 8 4
def seLen (m : List Byte) (k : Nat) : Nat := seAt m k 0x0C 4
def seReloc (m : List Byte) (k : Nat) : Nat := seAt m k 0x10 1

/-- Section indices. -/
def imSecs (m : List Byte) : List Nat := List.range (imSections m)

/-- Byte `off` of the initial content of the share of Seat `seat` of stage `stage` (`kind` 0) or of the stage's Slate region (1): from the
section that covers it, else zero (R147). -/
def imContent (m : List Byte) (kind stage seat off : Nat) : Byte :=
  match (imSecs m).find? (fun k => seKind m k = kind && seStage m k = stage && (kind = 1 || seSeat m k = seat)
      && seDest m k ≤ off && off < seDest m k + seLen m k) with
  | some k => (m.drop (seSrc m k + (off - seDest m k))).headD 0
  | none => 0

/-- The 64-bit word at offset `off` of a share's initial content. -/
def imWord (m : List Byte) (stage seat off : Nat) : Nat :=
  leNat ((List.range 8).map (fun i => imContent m 0 stage seat (off + i)))

/-- The descriptors of the image: section, index in it, the eight words (R148). -/
def imDescs (m : List Byte) : List (Nat × Nat × List Nat) :=
  ((imSecs m).filter (fun k => seReloc m k = 1)).flatMap (fun k =>
    (List.range (seLen m k / 64)).map (fun i =>
      (k, i, (List.range 8).map (fun j => leAt m (seSrc m k + 64 * i + 8 * j) 8))))

/-- R166: an independent Lesson. -/
def imIndependent (m : List Byte) : Bool := imStages m = 1 && stSemBlock m 0 = 0

/-! ### CRC-64/ECMA-182, most significant bit first (R235) -/

def crc64Step (s : Nat) : Nat :=
  if 2 ^ 63 ≤ s then (s * 2 % 2 ^ 64) ^^^ 0x42F0E1EBA9EA3693 else s * 2
def crc64Byte (s : Nat) (x : Byte) : Nat :=
  crc64Step (crc64Step (crc64Step (crc64Step (crc64Step (crc64Step (crc64Step (crc64Step (s ^^^ (x.toNat * 2 ^ 56)))))))))
/-- R235: crc64(s, bytes). -/
def crc64 (s : Nat) (bs : List Byte) : Nat := bs.foldl crc64Byte s

/-! ### CRC-32C, the Castagnoli polynomial (R154): reflected, initial value and final inversion of all ones, the form in
which the polynomial is standard (log entry 14, PRESUMED). -/

def crc32cStep (s : Nat) : Nat := if s % 2 = 1 then (s / 2) ^^^ 0x82F63B78 else s / 2
def crc32cByte (s : Nat) (x : Byte) : Nat :=
  let y := s ^^^ x.toNat
  crc32cStep (crc32cStep (crc32cStep (crc32cStep (crc32cStep (crc32cStep (crc32cStep (crc32cStep y)))))))
def crc32c (bs : List Byte) : Nat := (bs.foldl crc32cByte 0xFFFFFFFF) ^^^ 0xFFFFFFFF

end Sys2Proof.Machine
end

