-- ==== Sys2Proof/Machine/Flags.lean ====
section
/-! DEFINITION. Fault flags: how the FCU classes an event, logs it and reacts to it (11_fault_collection R264-R276). -/

namespace Sys2Proof.Machine

/-! Fault source IDs (R280, R281). -/
def srcFcuSelfcheck : Nat := 0x000
def srcGwFail : Nat := 0x003
def srcProcLockstep : Nat := 0x004
def srcDrillFailCompare : Nat := 0x005
def srcDrillFailFcu : Nat := 0x006
def srcSlateWipeFail : Nat := 0x007
def srcTamperLid : Nat := 0x008
def srcTamperGlitch : Nat := 0x009
def srcThermShutdown : Nat := 0x00A
def srcVoltWarn (k : Nat) : Nat := 0x010 + k
def srcThermClamp : Nat := 0x015
def srcPowerLimit : Nat := 0x016
def srcPllUnlock : Nat := 0x017
def srcClkMon : Nat := 0x018
def srcSecWdt : Nat := 0x020
def srcSecLockstep : Nat := 0x021
def srcPmcWdt : Nat := 0x022
def srcPmcLockstep : Nat := 0x023
def srcRegWdt : Nat := 0x024
def srcRegLockstep : Nat := 0x025
def srcSecRemeasure : Nat := 0x026
def srcSecHoldDenied : Nat := 0x027
def srcDebugAuthFail : Nat := 0x028
def srcCdAuthFail (d : Nat) : Nat := 0x029 + d
def srcFwAuthFail : Nat := 0x02B
def srcDramCe : Nat := 0x030
def srcDramUe : Nat := 0x031
def srcDramTrainFail : Nat := 0x032
def srcFabricViol : Nat := 0x035
def srcDramWmarkViol : Nat := 0x036
def srcSlateWmarkViol : Nat := 0x037
def srcFwSramUe : Nat := 0x039
def srcDieLinkDownC : Nat := 0x041
def srcDieLinkDownH (d : Nat) : Nat := 0x042 + d
def srcPbrgPosted : Nat := 0x044
def srcDbrgPosted : Nat := 0x045
def srcPairPosted : Nat := 0x046
def srcBridgeViol : Nat := 0x047
def srcPairAliveLost : Nat := 0x048
def srcPairLinkDown : Nat := 0x049
def srcPcieErr : Nat := 0x04A
def srcGwPoolLow : Nat := 0x050
def srcGwPortDown : Nat := 0x051
def srcGwFilterDrop : Nat := 0x052
def srcGwFrerLoss : Nat := 0x053
def srcGwBufUe : Nat := 0x055
def srcGwTableUe : Nat := 0x056
def srcCanBusOff : Nat := 0x057
def srcCanErrPassive : Nat := 0x058
def srcLinErr : Nat := 0x059
def srcTimeJump : Nat := 0x060
def srcTimeHoldover : Nat := 0x061
def srcTimeGm : Nat := 0x062
def srcTtoMissed : Nat := 0x063
def srcHeartbeatLost : Nat := 0x064
def srcSliceSquash : Nat := 0x065
def srcMlmbProtocol : Nat := 0x066
def srcPlanTimeout : Nat := 0x070
def srcPlanPrivTimeout : Nat := 0x071
def srcPlanUnavoidable : Nat := 0x072
def srcPlanBatchRefused : Nat := 0x073
def srcPlanOverrun : Nat := 0x074
def srcPlanEpochStale : Nat := 0x075
def srcPlanStoreFull : Nat := 0x076
def srcPlanSramCe : Nat := 0x077
def srcPlanSramUe : Nat := 0x078
def srcRastError : Nat := 0x080
def srcRastAbandoned : Nat := 0x081
def srcFrameRepeat : Nat := 0x082
def srcDispUnderrun : Nat := 0x083
def srcDispLinkLost : Nat := 0x084
def srcSigMismatch : Nat := 0x090
def srcProcPlanStale : Nat := 0x091
def srcProcSignal : Nat := 0x092
def srcRubric (c : Nat) : Nat := 0x093 + c
def srcLessonVerify : Nat := 0x0A0
def srcQuizFail : Nat := 0x0A1
def srcQuizOverdue : Nat := 0x0A2
def srcDrillFailRoll : Nat := 0x0A3
def srcDrillStarved : Nat := 0x0A4
def srcRollBad : Nat := 0x0B0
def srcRollFrozen (n : Nat) : Nat := 0x0C0 + n
def srcRollStale (n : Nat) : Nat := 0x0D0 + n
def srcSwFault (n : Nat) : Nat := 0x0E0 + n
/-- Source `k` of cluster `n` (R281): 0 CORE_DESC_INVALID, 1 CORE_SHARE_VIOL, 2 CORE_DMA_ERROR, 3 LOCKER_CE, 4 LOCKER_UE,
5 SLATE_CE, 6 SLATE_UE, 7 MEM_SCRUB_LATE, 8 MEM_REPAIRED, 9 MEM_REPAIR_EXHAUSTED, 10 DRILL_FAIL_CORE, 11 DRILL_FAIL_SLATE,
12 CCC_LOCKSTEP, 13 CCC_WDT, 14 CLC_ACCESS_VIOL. -/
def srcCluster (n k : Nat) : Nat := 0x100 + 16 * n + k

/-- The sticky bit and the acknowledgement of a source (R264, R273). -/
def stickyRef (n : Nat) : FRef := ⟨FCU_SRC_STATUS (n / 64), n % 64, n % 64⟩
def ackRef (n : Nat) : FRef := ⟨FCU_SRC_ACK (n / 64), n % 64, n % 64⟩

/-- The sources whose sticky bit is set, in ascending order. -/
def State.setSources (s : State) : List Nat :=
  (List.range 8).flatMap (fun k =>
    let w := s.reg64 (FCU_SRC_STATUS k)
    if w = 0 then [] else (List.range 64).filterMap (fun j => if bit w j then some (64 * k + j) else none))

/-- R267: some source is set, not acknowledged and raised at class `c`. -/
def State.escalates (s : State) (c : Nat) : Bool :=
  s.setSources.any (fun u => !s.on (ackRef u) && s.rd (FCU_SRC_STATE.RAISED_CLASS u) = c)

/-- ALIVE_OUT stops and is held low until the next reset of the device (R272). -/
def State.stopAlive (s : State) : State :=
  let s1 := s.wr FCU_SUMMARY.ALIVE_STOPPED 1
  { s1 with pins := { s1.pins with aliveOut := false }, fcu := { s1.fcu with aliveRun := false } }

/-- R276: one event in the log, or counted as dropped while the log is frozen. -/
def State.logEvent (s : State) (n c : Nat) (promoted escalated : Bool) : State :=
  if s.on FCU_LOG_PTR.FROZEN then s.satAdd FCU_LOG_PTR.DROPPED 1
  else
    let i := s.rd FCU_LOG_PTR.WR_IDX
    let e := n + c * 2 ^ 9 + b2n promoted * 2 ^ 11 + b2n escalated * 2 ^ 12 + s.clock.now / 4096 % 2 ^ 48 * 2 ^ 16
    let s1 := s.setReg64 (FCU_LOG i) e
    let s2 := s1.wr FCU_LOG_PTR.WR_IDX (i + 1)
    let s3 := s2.when (i = 4095) (fun t => t.wrapAdd FCU_LOG_PTR.LAPS 1)
    s3.when (c = 3 && s.on FCU_CTRL.FREEZE_ON_CRIT) (fun t => t.wr FCU_LOG_PTR.FROZEN 1)

/-- R269, R270: the reactions of an event of source `n` at class `c`. -/
def State.react (s : State) (n c : Nat) : State :=
  let r := s.rd (FCU_SRC_CFG.REACT n)
  let i := bit r 0 || 1 ≤ c
  let sf := bit r 1 || c = 3
  let f := s.fcu
  let f1 := { f with
    broughtI := if i then (if f.broughtI.contains n then f.broughtI else n :: f.broughtI) else f.broughtI.filter (· ≠ n)
    broughtS := if sf && !f.broughtS.contains n then n :: f.broughtS else f.broughtS
    isolated := if bit r 2 && !f.isolated.contains n then n :: f.isolated else f.isolated }
  let s1 := { s with fcu := f1 }
  let s2 := s1.when (c = 3) (fun t =>
    let t1 := t.wr FCU_SUMMARY.SAFE1 1
    if t1.on FCU_SUMMARY.FIRST_CRIT_VALID then t1
    else (t1.wr FCU_SUMMARY.FIRST_CRIT_VALID 1).wr FCU_SUMMARY.FIRST_CRIT n)
  s2.when (bit r 3 || c = 3) State.stopAlive

/-- R267: counting and promotion of an event of source `n`: the state after it, and whether this event is promoted. -/
def State.countEvent (s : State) (n : Nat) : State × Bool :=
  let promoted := s.on (FCU_SRC_STATE.PROMOTE n)
  let s1 := s.when promoted (fun t => t.wr (FCU_SRC_STATE.PROMOTE n) 0)
  let lim := s1.rd (FCU_SRC_CFG.N n)
  if lim = 0 ∨ s1.rd (FCU_SRC_CFG.CLASS n) = 3 then (s1, promoted)
  else
    let start := Table.get s1.fcu.winStart 0 n
    let fresh := s1.rd (FCU_SRC_STATE.WIN_COUNT n) = 0 || s1.rd (FCU_SRC_CFG.W_MS n) ≤ s1.nowMs - start
    let s2 := s1.when fresh (fun t =>
      let t1 := t.wr (FCU_SRC_STATE.WIN_COUNT n) 0
      { t1 with fcu := { t1.fcu with winStart := Table.set t1.fcu.winStart 0 n t1.nowMs } })
    let k := s2.rd (FCU_SRC_STATE.WIN_COUNT n) + 1
    if k = lim then ((s2.wr (FCU_SRC_STATE.PROMOTE n) 1).wr (FCU_SRC_STATE.WIN_COUNT n) 0, promoted)
    else (s2.wr (FCU_SRC_STATE.WIN_COUNT n) k, promoted)

/-- The class at which an event is raised (R267): the source's class, one higher if promoted, one higher again if some
set and unacknowledged source stands at that class, which must be MINOR or MAJOR; at most CRITICAL. -/
def State.raisedClass (s : State) (n : Nat) (promoted : Bool) : Nat × Bool :=
  let c := s.rd (FCU_SRC_CFG.CLASS n) + b2n promoted
  let esc := (c = 1 || c = 2) && s.escalates c
  (min (c + b2n esc) 3, esc)

/-- R267: the FCU treats one event of source `n`. An ID that is not used is never set (R282). -/
def State.takeEvent (s : State) (n : Nat) : State :=
  if (srcReset n).isNone then s
  else
    let p := s.countEvent n
    let q := p.1.raisedClass n p.2
    let c := q.1
    let s1 := p.1.wr (FCU_SRC_STATE.RAISED_CLASS n)
      (if p.1.on (stickyRef n) then max (p.1.rd (FCU_SRC_STATE.RAISED_CLASS n)) c else c)
    let s2 := (s1.wr (stickyRef n) 1).wr (ackRef n) 0
    let s3 := s2.satAdd (FCU_SRC_STATE.EVENTS n) 1
    (s3.logEvent n c p.2 q.2).react n c

/-- R245, R248: a Drill step has source `n` under test: step k of the FCU inputs covers sources 64k to 64k + 63. -/
def State.underTest (s : State) (n : Nat) : Bool :=
  match Table.find s.proc.passes 512 with
  | some p => p.running && n / 64 = p.step
  | none => false

/-- One event of source `n` on its way to the FCU: held while the source is under test (R248). -/
def State.raise (s : State) (n : Nat) : State :=
  if s.underTest n then { s with proc := { s.proc with heldEvents := s.proc.heldEvents ++ [n] } } else s.takeEvent n

/-- R266: the condition of a level source becomes true: one event, and ASSERTING holds. -/
def State.assertSrc (s : State) (n : Nat) : State :=
  if s.on (FCU_SRC_STATE.ASSERTING n) then s else (s.wr (FCU_SRC_STATE.ASSERTING n) 1).raise n

/-- R266: the condition of a level source ends. -/
def State.deassertSrc (s : State) (n : Nat) : State := s.wr (FCU_SRC_STATE.ASSERTING n) 0

/-- A level source follows its condition. -/
def State.levelSrc (s : State) (n : Nat) (cond : Bool) : State := if cond then s.assertSrc n else s.deassertSrc n

/-- R270: the FCU interrupt. -/
def State.irq (s : State) : Bool := s.fcu.broughtI.any (fun n => s.on (stickyRef n) && !s.on (ackRef n))

/-- R270: SAFE0 is asserted (the ball is low). -/
def State.safe0 (s : State) : Bool := s.fcu.broughtS.any (fun n => s.on (stickyRef n))

/-- R265: the highest RAISED_CLASS among the sources that are set. -/
def State.highest (s : State) : Nat := s.setSources.foldl (fun m n => max m (s.rd (FCU_SRC_STATE.RAISED_CLASS n))) 0

/-- FCU_SUMMARY as it reads (R264-R275): the stored fields, and the outputs as functions of the FCU state (R271). -/
def State.summaryWord (s : State) : Nat :=
  s.reg64 FCU_SUMMARY + b2n s.safe0 * 2 ^ 4 + b2n s.irq * 2 ^ 3 + b2n (!s.setSources.isEmpty) * 2 ^ 2 + s.highest

/-- R273: acknowledge a source that is set. -/
def State.ackSrc (s : State) (n : Nat) : State := if s.on (stickyRef n) then s.wr (ackRef n) 1 else s

/-- R274: clear a source, or count an ignored clear while it is asserting. -/
def State.clearSrc (s : State) (n : Nat) : State :=
  if s.on (FCU_SRC_STATE.ASSERTING n) then s.satAdd FCU_SUMMARY.CLR_IGNORED 1
  else
    let s1 := ((s.wr (stickyRef n) 0).wr (ackRef n) 0).wr (FCU_SRC_STATE.RAISED_CLASS n) 0
    { s1 with fcu := { s1.fcu with
        broughtI := s1.fcu.broughtI.filter (· ≠ n), broughtS := s1.fcu.broughtS.filter (· ≠ n) } }

/-- The sources named by the bits of word `k` (R273, R274). -/
def sourcesOf (k w : Nat) : List Nat := (List.range 64).filterMap (fun j => if bit w j then some (64 * k + j) else none)

end Sys2Proof.Machine
end

