-- ==== Sys2Proof/Machine/Access.lean ====
section
/-! DEFINITION. Who accesses what (00_scope R12-R16; 11_fault_collection R277-R279, R417; 12 R283; 14 R328): initiator IDs,
worlds and slices, the violation logs, who may access which register, and the plain effect of a register access. -/

namespace Sys2Proof.Machine

def secCore : Initiator := ⟨.fw, 0, 0⟩
def pmcFw : Initiator := ⟨.fw, 1, 0⟩
def registrar : Initiator := ⟨.fw, 2, 0⟩
def proctor : Initiator := ⟨.fw, 3, 0⟩

def isSecCore (w : Initiator) : Bool := w.kind = .fw && w.index = 0
def isRegistrar (w : Initiator) : Bool := w.kind = .fw && w.index = 2
def isProctor (w : Initiator) : Bool := w.kind = .fw && w.index = 3
def isPmc (w : Initiator) : Bool := w.kind = .fw && w.index = 1
def isHub (w : Initiator) (k : Nat) : Bool := w.kind = .hubUnit && w.index = k

def Ctx.isFw (c : Ctx) (k : Nat) : Bool := c.kind = .fw && c.index = k

/-- The world tag of an application core is 1 while the monitor carries its call (R283, R286). -/
def State.worldTag (s : State) (core : Nat) : Bool := (Table.find s.sec.calls core).isSome

/-- R283: the access is a secure-world access. -/
def State.isSecure (s : State) (w : Initiator) : Bool :=
  match w.kind with
  | .fw => w.index = 0
  | .apc => s.worldTag w.index
  | .debug => s.on SEC_STATE.DBG_S_INV
  | _ => false

/-- R278: the 16-bit initiator ID. -/
def State.initId (s : State) (w : Initiator) : Nat :=
  match w.kind with
  | .apc => w.index % 32 + b2n (s.worldTag w.index) * 256
  | .seat => 0x1000 + w.index % 4096
  | .ccc => 0x2000 + w.index % 4096
  | .fw => 0x3000 + w.index % 4096
  | .pcie => 0x4000 + w.index % 4096
  | .hubUnit => 0x5000 + w.index % 4096
  | .pair => 0x6000
  | .debug => 0x7000

/-- The configured slice of an identity (R327, R328). -/
def State.boundSlice (s : State) (kind function ident : Nat) : Option Nat :=
  (s.slices.find? (fun p => p.2.kind = kind && p.2.ident = ident && (kind = 1 || p.2.function = function))).map (·.1)

/-- R328: the slice that an access belongs to. -/
def State.sliceOf (s : State) (w : Initiator) : Option Nat :=
  match w.kind with
  | .pcie => s.boundSlice 0 w.index w.ident
  | .apc => s.boundSlice 1 0 (Table.get s.sec.procId 0 w.index)
  | .seat => s.seatSlice w.index
  | .pair | .hubUnit => if w.ident = 0 then none else some (w.ident - 1)
  | _ => none

def State.ctx (s : State) (w : Initiator) : Ctx := ⟨s.initId w, s.sliceOf w, s.isSecure w, w.kind, w.index, w.ident⟩

/-- The initiator that a context was made from. -/
def Ctx.who (c : Ctx) : Initiator := ⟨c.kind, c.index, c.ident⟩

/-! ### Violation logs -/

/-- The registers of a violation log pair (R279). -/
def violPair : ViolLog → Reg × Reg
  | .hub => (HUB_VIOL_ADDR, HUB_VIOL_INFO)
  | .core m => (CORE_VIOL_ADDR (m.val / 8) (m.val % 8), CORE_VIOL_INFO (m.val / 8) (m.val % 8))
  | .cluster n => (CLC_VIOL_ADDR n.val, CLC_VIOL_INFO n.val)
  | .wmark => (WMARK_VIOL_ADDR, WMARK_VIOL_INFO)
  | .bridge b => (BRG_VIOL_ADDR b.val, BRG_VIOL_INFO b.val)

/-- A violation as a check finds it: the log of the checking block, the REASON and the source (R277, R279). -/
structure Viol where
  log : ViolLog
  reason : Nat
  src : Nat
  deriving DecidableEq, Repr

def hubViol (reason : Nat) : Viol := ⟨.hub, reason, srcFabricViol⟩
def clusterViol (n : Fin 16) (reason : Nat) : Viol := ⟨.cluster n, reason, srcCluster n.val 14⟩

/-- R277: log a violation. The first since VALID was cleared is held, later ones are counted; each raises the source. -/
def State.logViol (s : State) (v : Viol) (c : Ctx) (addr : Nat) (write : Bool) : State :=
  let p := violPair v.log
  let cnt : FRef := ⟨p.2, 63, 48⟩
  let s1 :=
    if s.on ⟨p.1, 63, 63⟩ then s
    else
      let n := s.rd cnt
      (s.setReg64 p.1 (2 ^ 63 + b2n write * 2 ^ 48 + addr % 2 ^ 48)).setReg64 p.2
        (n * 2 ^ 48 + (match c.slice with | some i => 2 ^ 38 + i % 64 * 2 ^ 32 | none => 0) + v.reason * 2 ^ 16 + c.id)
  (s1.satAdd cnt 1).raise v.src

/-! ### The register at an address (R15, R16) -/

/-- The block that checks a register: the cluster control block or the Hub fabric (R279, R417). -/
def regViol (addr reason : Nat) : Viol :=
  if 0x20000000 ≤ addr ∧ addr < 0x20100000 then
    clusterViol ⟨(addr - 0x20000000) / 0x10000 % 16, Nat.mod_lt _ (by decide)⟩ reason
  else hubViol reason

/-- Width of a register in bytes: AON_SERVICE is 32 bits wide, every other register 64. The spec gives GW_OBJ_SEL no width of its own; it is 64 bits
here, as GW_OBJ_VALUE beside it (log entry 70, DESIGN CHOICE). -/
def regWidth (f : RegFam) : Nat := if f = .aon_service then 4 else 8

/-- The register whose bytes hold address `a`: the width of an access is held against it (R15). -/
def regOver (a : Nat) : Option (RegFam × Nat × Nat) :=
  match regAt (a / 8 * 8) with
  | some r => if a % 8 < regWidth r.1 then some r else none
  | none => none

/-- A naturally aligned access of 1, 2, 4 or 8 bytes. -/
def naturally (a n : Nat) : Bool := (n = 1 || n = 2 || n = 4 || n = 8) && a % n = 0

/-- R15, R16, step WIDTH: the access has the full width of the register that it reaches, or reaches none and is naturally aligned. -/
def widthOk (a n : Nat) : Bool :=
  match regOver a with
  | some (f, i, j) => a = (f.reg i j).addr && n = regWidth f
  | none => naturally a n

/-! ### Access rights -/

/-- Configuration word of a queue, and its owning slice (R353). -/
def QRec.c (q : QRec) : Nat := q.cfg.toNat
def QRec.owner (q : QRec) : Option Nat := if bit q.c 22 then some (bits q.c 21 16) else none

/-- R313, R367: the initiator ID matches an owner register (MLMB_PRIVp_OWNER or GW_ADMIN): enabled, and the ID equals
INITIATOR in the bits of MASK. -/
def State.ownerMatch (s : State) (r : Reg) (id : Nat) : Bool :=
  let v := s.reg64 r
  bit v 32 && (id &&& bits v 31 16) = (bits v 15 0 &&& bits v 31 16)

/-- The GW, CANX and TIME registers accept writes from it (R367). -/
def State.gwAdmin (s : State) (c : Ctx) : Bool := c.isFw 0 || s.ownerMatch GW_ADMIN c.id

/-- The selecting party of an access to the QMGR (R354): slices 0-63, then initiator IDs. -/
def Ctx.qParty (c : Ctx) : Nat :=
  match c.slice with
  | some i => i
  | none => 64 + c.id

/-- The queue that the accessing party has selected (R354). -/
def State.ctxSelected (s : State) (c : Ctx) : Nat := Table.get s.qsel 0 c.qParty
def State.qParty (s : State) (w : Initiator) : Nat := (s.ctx w).qParty
def State.qSelected (s : State) (w : Initiator) : Nat := s.ctxSelected (s.ctx w)

/-- A firmware processor (R306). -/
def isFirmware (k : InitKind) : Bool := k = .fw || k = .ccc

/-- The initiator owns queue `q` (R353): it belongs to the owning slice or, where the queue has none, is a firmware processor. -/
def State.ownsQueue (s : State) (c : Ctx) (q : Nat) : Bool :=
  match (s.queue q).owner with
  | some a => c.slice = some a
  | none => isFirmware c.kind

/-- The owner of a SECMB channel (R284). -/
def Ctx.ownsChannel (c : Ctx) (ch : Nat) : Bool :=
  if ch < 24 then c.kind = .apc && c.index = ch && c.secure
  else if ch = 24 then c.isFw 2
  else if ch = 25 then c.isFw 1
  else if ch = 26 then c.isFw 3
  else if ch = 27 then c.kind = .pair
  else if ch = 28 then c.kind = .debug
  else false

/-- A planning channel is privileged (R203). -/
def State.planPriv (s : State) (ch : Nat) : Bool := bit (s.rd PLAN_PRIV.MASK) ch

/-- Whether an access has the right to a register of family `f` with index `i` (R44, R114, R197, R203, R219, R233,
R252, R275, R284, R288, R292, R312, R336, R354, R367, R379, R386, R393, R412). -/
def State.ctxRights (s : State) (f : RegFam) (i : Nat) (c : Ctx) (write : Bool) : Bool :=
  match f.rights with
  | .readAll => true
  | .all => true
  | .cluster => (c.kind = .ccc && c.index = i) || c.isFw 2 || c.isFw 0
  | .secOnly => c.isFw 0
  | .regSec => c.isFw 2 || c.isFw 0
  | .planCh =>
    if s.planPriv i then c.isFw 3 || c.secure
    else c.isFw 2 || c.slice = some (s.rd (PLAN_CH_CTRL.SLICE i))
  | .disp => c.isFw 2 || c.slice = some (s.rd DISP_RAST_CTRL.SLICE)
  | .proc => c.isFw 3 || c.isFw 2 || c.secure
  | .roll => !write || c.isFw 3 || c.secure
  | .fcuCfg => !write || c.isFw 0
  | .fcuRead => !write
  | .fcuAck => !write || c.isFw 0 || c.isFw 3 || c.secure
  | .secmb => !write || c.ownsChannel i
  | .secWrite => !write || c.isFw 0
  | .barrier => !write || c.isFw 2 || c.isFw 0
  | .pairWin => c.isFw 0 || (!write && c.isFw 2)
  | .queue => c.isFw 2 || c.isFw 0 || s.ownsQueue c (s.ctxSelected c)
  | .gw => !write || s.gwAdmin c
  | .railStatus => !write || c.isFw 0 || c.isFw 1 || c.isFw 2
  | .pmcLimit => !write || c.isFw 0 || c.isFw 1

/-- The right of an initiator to a register. -/
def State.rightsOk (s : State) (f : RegFam) (i : Nat) (w : Initiator) (write : Bool) : Bool := s.ctxRights f i (s.ctx w) write

/-! ### The plain effect of a register access (R12, R13) -/

/-- R12: what a write of `v` leaves in a field that holds `old`. `locked` is the register's lock. -/
def accWrite (acc : Acc) (locked : Bool) (old v : Nat) : Nat :=
  match acc with
  | .ro => old
  | .rc => old
  | .wo => 0
  | .rw => v
  | .rwl => if locked then old else v
  | .w1c => old &&& (v ^^^ (2 ^ 64 - 1))
  | .w1s => old ||| v

/-- The reference of field `x` of register `r`. -/
def Fld.ref (x : Fld) (r : Reg) : FRef := ⟨r, x.hi, x.lo⟩

/-- R12, R13: a write of the word `v` to a register by the access codes of its fields, a field at a time; `ok` says whether
the value may be written to the field. Reserved bits do not exist. -/
def State.plainWrite (s : State) (r : Reg) (fs : List Fld) (locked : Bool) (v : Nat) (ok : Fld → Nat → Bool) : State :=
  fs.foldl (fun t x =>
    let n := (x.ref r).of v
    if ok x n then t.wr (x.ref r) (accWrite x.acc locked (t.rd (x.ref r)) n) else t) s

/-- R12: the value that a read returns: write-only fields read as zero. -/
def readMask (fs : List Fld) (r : Reg) (v : Nat) : Nat :=
  fs.foldl (fun n x => if x.acc = .wo then n else n + (x.ref r).of v * 2 ^ x.lo) 0

/-- R12: the effect of a read on read-to-clear fields. -/
def State.readClear (s : State) (r : Reg) (fs : List Fld) : State :=
  fs.foldl (fun t x => if x.acc = .rc then t.wr (x.ref r) 0 else t) s

end Sys2Proof.Machine
end

