-- ==== Sys2Proof/Machine/Links.lean ====
section
/-! DEFINITION. Accesses on their way (01_device_architecture R19, R21, R30-R33; 11_fault_collection R417; 15_bridges_pair_link R336-R347): the dies and the
bridges that an access passes, read tags, posted writes, locks, the checks of an access in their order, ECC on Locker, Slate and LPDDR5X
(04_locker_slate R98-R101). Bridge 0 is the Peripheral Bridge, 1 to 3 the Die Bridges of the Hub
die, CD0 and CD1, 4 the Pair Bridge. -/

namespace Sys2Proof.Machine

/-- A range of `n` bytes at `a` lies within `lo` to below `hi`. -/
def within (a n lo hi : Nat) : Bool := lo ≤ a && a + n ≤ hi

/-- Two ranges, by start and length, share a byte. -/
def overlaps (a n b m : Nat) : Bool := a < b + m && b < a + n && 0 < n && 0 < m

/-! ### The way of an access (R19, R336) -/

/-- The die of an initiator: 0 the Hub die, 1 CD0, 2 CD1. -/
def kindDie (k : InitKind) (index : Nat) : Nat :=
  match k with
  | .seat => 1 + index / 512 % 2
  | .ccc => 1 + index / 8 % 2
  | _ => 0

def startDie (w : Initiator) : Nat := kindDie w.kind w.index
def Ctx.die (c : Ctx) : Nat := kindDie c.kind c.index

/-- The die that an address lies on. -/
def homeDie (a : Nat) : Nat :=
  match placeOf 65536 a with
  | .slate k _ => 1 + dieOf k
  | .locker m _ => 1 + dieOf (m / 8)
  | .regs =>
    if 0x20000000 ≤ a ∧ a < 0x20100000 then 1 + (a - 0x20000000) / 0x80000
    else if 0x0FE10000 ≤ a ∧ a < 0x0FE30000 then (a - 0x0FE00000) / 0x10000
    else 0
  | _ => 0

/-- The bit of the link between two dies in `Pwr.linksUp` (R18). -/
def linkBit (x y : Nat) : Nat := if x + y = 3 then 0 else max x y

/-- The clock domains of a die link (R389). -/
def linkDomains (l : Nat) : List Nat := if l = 0 then [39, 43] else if l = 1 then [34, 38] else [35, 42]

/-- The link between two dies is trained and clocked. -/
def State.linkUp (s : State) (x y : Nat) : Bool := bit s.pwr.linksUp (linkBit x y) && (linkDomains (linkBit x y)).all s.domainOn

/-- The Die Bridge that an access from die `d` to `a` passes first. -/
def dieBridge (d a : Nat) : Option Nat := if d = homeDie a then none else some (1 + d)

/-- The initiating Die Bridge of an access, where it crosses dies. -/
def crossing (w : Initiator) (a : Nat) : Option Nat := dieBridge (startDie w) a

/-- The Peripheral or the Pair Bridge, for an address behind it. -/
def outerBridge (a : Nat) : Option Nat :=
  match placeOf 65536 a with
  | .periph => some 0
  | .pairWin _ => some 4
  | _ => none

/-- The bridges that an access from die `d` to `a` passes, in order (R336). -/
def passes (d a : Nat) : List Nat := (dieBridge d a).toList ++ (outerBridge a).toList

/-- The link of bridge `b` that an access to `a` takes: the die at its far end, or 0 for the one link of the Peripheral and of the Pair Bridge. -/
def linkOf (b a : Nat) : Nat := if b = 0 || b = 4 then 0 else homeDie a

/-- The Pair Link is trained, and the Pair Bridge is out of reset and has its clock (R21, R36). -/
def State.pairLink (s : State) : Bool := s.boot.strapEn && s.pair.trained && s.unitOn 13

/-- The link of bridge `b` carries an access from die `d` to `a`. -/
def State.linkReady (s : State) (b d a : Nat) : Bool :=
  if b = 0 then true
  else if b = 4 then s.pairLink
  else s.linkUp d (homeDie a)

/-- PAIR_AVAIL (R27, R36, R347): the Pair Link is trained and the partner has authenticated. -/
def State.pairAvail (s : State) : Bool := s.pairLink && s.sec.pairAuth

/-- An address among the registers of a SECMB channel. The Pair Bridge carries those of channel 27 without a window (R347). -/
def isSecmb (f : RegFam) : Bool := f = .secmb_ch_req || f = .secmb_ch_rsp
def pairChannel (a : Nat) : Bool := match regOver a with | some (f, i, _) => isSecmb f && i = 27 | none => false

/-- R347: the Pair Bridge carries an access to address `a` of either device: before the partner has authenticated only those of SECMB channel 27. -/
def State.pairCarries (s : State) (a : Nat) : Bool := s.pairLink && (s.sec.pairAuth || pairChannel a)

/-- An access from die `d` reaches the die of `a`: the Hub fabric runs unless both ends lie on compute dies (R21), and so does the die link. -/
def State.reachable (s : State) (d a : Nat) : Bool :=
  (s.domainOn 6 || (d ≠ 0 && homeDie a ≠ 0)) && (d = homeDie a || s.linkUp d (homeDie a))

/-- An access of an initiator reaches the die of `a`: a host or the partner must be reachable itself (R21, R347). -/
def State.arrives (s : State) (k : InitKind) (index a : Nat) : Bool :=
  (match k with
    | .pair => s.pairCarries a
    | .pcie => s.unitOn 12
    | _ => true) && s.reachable (kindDie k index) a

/-! ### Read tags (R339) -/

/-- Read tags held on link `k` of bridge `b`. -/
def State.tagsHeld (s : State) (b k : Nat) : Nat := ((s.bridge b).reads.filter (fun r => r.tag / 256 = k)).length

/-- TAGS_FREE: the fewest free read tags on any link. -/
def State.readTagsFree (s : State) (b : Nat) : Nat := 256 - max (s.tagsHeld b 0) (max (s.tagsHeld b 1) (s.tagsHeld b 2))

/-- The lowest read tag that is free on link `k` of bridge `b`, as `BridgeRead.tag` counts. -/
def State.freeReadTag (s : State) (b k : Nat) : Option Nat :=
  ((List.range 256).map (256 * k + ·)).find? (fun t => !(s.bridge b).reads.any (fun r => r.tag = t))

/-- A read of `n` bytes at `a` takes tag `t` of bridge `b`. -/
def State.holdTag (s : State) (b t : Nat) (w : Initiator) (a target n : Nat) (kind : ReadKind) : State :=
  let x := s.bridge b
  s.setBridge b { x with reads := x.reads ++ [⟨t, w, a, target, n, kind, x.sent, s.clock.up, false, false⟩] }

/-- Every bridge on the way from die `d` to `a` has a free read tag. -/
def State.tagsFor (s : State) (d a : Nat) : Bool := (passes d a).all (fun b => (s.freeReadTag b (linkOf b a)).isSome)

/-! ### Posted writes (R337) -/

/-- Bridge `b` sends one more posted write. -/
def State.countPosted (s : State) (b : Nat) : State := s.setBridge b { s.bridge b with sent := (s.bridge b).sent + 1 }

/-- A posted write is on its way through bridge `b`, from an initiator with ID and slice as in `c`; `reason` is 0 until it is known to fail. -/
def State.postWrite (s : State) (b : Nat) (c : Ctx) (a target : Nat) (bs : List Byte) (reason : Nat) : State :=
  let x := s.bridge b
  let own := match c.slice with | some i => i + 1 | none => 0
  s.setBridge b { x with posted := x.posted ++ [⟨c.id, own, x.sent, linkOf b a, a, target, bs, reason⟩], sent := x.sent + 1 }

/-- The posted error source of a bridge. -/
def postedSrc (b : Nat) : Nat := if b = 0 then srcPbrgPosted else if b = 4 then srcPairPosted else srcDbrgPosted

/-- R345: a write-error message at bridge `b`: an entry of the Posted Error Log, or a count while the log is full. -/
def State.postedFailed (s : State) (b init addr tag reason : Nat) : State :=
  let x := s.bridge b
  let s1 := s.setBridge b { x with failed := if x.failed.contains init then x.failed else x.failed ++ [init] }
  let n := s1.rd (BRG_BARRIER.ENTRIES b)
  let s2 :=
    if n < 64 then
      let t := s1.setReg64 (BRG_PEL_ADDR b n) (2 ^ 63 + tag % 256 * 2 ^ 48 + addr % 2 ^ 48)
      let u := t.setReg64 (BRG_PEL_INFO b n) (s.clock.now / 1024 % 2 ^ 32 * 2 ^ 32 + reason * 2 ^ 16 + init % 2 ^ 16)
      u.wr (BRG_BARRIER.ENTRIES b) (n + 1)
    else s1.satAdd (BRG_PEL_STATUS.OVERFLOW b) 1
  s2.raise (postedSrc b)

/-! ### Locks (R341) -/

/-- The granule of an exclusive sequence: 64 bytes, or on the Peripheral Bridge the whole window, which one semaphore covers. -/
def granuleOf (b a : Nat) : Nat := if b = 0 then 0 else a / 64

/-- The lock is that of initiator ID `i` on granule `g`. -/
def BridgeLock.isOf (l : BridgeLock) (i g : Nat) : Bool := l.holder = i && l.granule = g

/-- The lock limit of a bridge in nanoseconds (R336). -/
def lockLimit (b : Nat) : Nat := if b = 0 then 100000 else if b = 4 then 20000 else 2000

/-- A lock of bridge `b` holds the `n` bytes at `a`. -/
def BridgeLock.covers (l : BridgeLock) (b a n : Nat) : Bool :=
  if b = 0 then outerBridge a = some 0 else a / 64 ≤ l.granule && l.granule ≤ (a + (n - 1)) / 64

/-- R341: an access of initiator ID `id` to `n` bytes at `a` waits for a lock that another initiator holds. -/
def State.lockWaits (s : State) (id a n : Nat) : Bool :=
  (List.range 5).any (fun b => (s.bridge b).locks.any (fun l => l.holder ≠ id && l.covers b a n))

/-- Every bridge's record as `f` makes it. -/
def State.mapBridges (s : State) (f : BridgeX → BridgeX) : State := s.each (List.range 5) (fun t b => t.setBridge b (f (t.bridge b)))

/-- The locks and the reservation of initiator ID `i` are gone. -/
def State.freeLocks (s : State) (i : Nat) : State :=
  let s1 := s.mapBridges (fun x => { x with locks := x.locks.filter (fun l => l.holder ≠ i) })
  { s1 with ecc := { s1.ecc with resv := s1.ecc.resv.filter (fun r => r.1 ≠ i) } }

/-- R333: the reads that `mine` names are squashed: each gets its error response at once, and its tags stay held until the completion arrives. The
state, and how many transfers they were: the parts of a read and of a barrier read are one. -/
def State.squashReads (s : State) (mine : BridgeRead → Bool) : State × Nat :=
  let live := fun (r : BridgeRead) => mine r && !r.squashed && !r.timedOut
  let hit := (List.range 5).flatMap (fun b => (s.bridge b).reads.filter live)
  let whole := hit.filter (fun r => match r.kind with | .bus | .atomic _ _ => true | _ => false)
  let barriers := ((hit.filter (fun r => r.kind = .barrier)).map (fun r => (r.addr, r.who))).eraseDups
  let s1 := s.mapBridges (fun x => { x with
    reads := x.reads.map (fun r => if live r then { r with squashed := true } else r)
    barriers := x.barriers.filter (fun i => !x.reads.any (fun r => live r && r.kind = .barrier && s.initId r.who = i)) })
  let s2 := s1.each (whole.filter (fun r => r.kind ≠ .bus)) (fun t r => t.freeLocks (t.initId r.who))
  (if whole.isEmpty && barriers.isEmpty then s2 else { s2 with bus := .error }, whole.length + barriers.length)

/-- A write of the device itself that is still on its way has a byte in the range: later accesses stay behind it (R338, log entry 64). -/
def State.lateOver (s : State) (a n : Nat) : Bool := s.ecc.late.any (fun l => l.queue.isNone && overlaps a n l.addr l.bytes.length)

/-! ### The Pair Link's windows (R33, R347) -/

/-- Outbound window `w` as start and size in bytes, within the Pair Link window. -/
def State.outRange (s : State) (w : Nat) : Nat × Nat :=
  (s.rd (PAIR_OUT_CFG.OFFSET_1M w) * 0x100000, s.rd (PAIR_OUT_CFG.SIZE_1M w) * 0x100000)

/-- The enabled outbound window that covers `n` bytes at offset `off` of the Pair Link window, and the partner's address (R33). -/
def State.outTarget (s : State) (off n : Nat) : Option Nat :=
  ((List.range 8).find? (fun w => s.on (PAIR_OUT_CFG.ENABLE w) && within off n (s.outRange w).1 ((s.outRange w).1 + (s.outRange w).2))).map
    (fun w => s.rd (PAIR_OUT_REMOTE.REMOTE w) * 0x100000 + (off - (s.outRange w).1))

/-- Inbound window `w` of the Pair Link as start and size in bytes (R347). -/
def State.inRange (s : State) (w : Nat) : Nat × Nat :=
  (s.rd (PAIR_IN_BASE.BASE w) * 0x100000, s.rd (PAIR_IN_CFG.SIZE_1M w) * 0x100000)

/-- The slice that inbound window `w` gives to the partner's accesses. -/
def State.inSlice (s : State) (w : Nat) : Option Nat :=
  if s.on (PAIR_IN_CFG.SLICE_VALID w) then some (s.rd (PAIR_IN_CFG.SLICE w)) else none

/-- R347: the enabled inbound window that admits an access of `n` bytes at `a`. -/
def State.inWindowFor (s : State) (a n : Nat) (write : Bool) : Option Nat :=
  (List.range 8).find? (fun w => s.on (PAIR_IN_CFG.ENABLE w) && s.on (if write then PAIR_IN_CFG.WRITE_OK w else PAIR_IN_CFG.READ_OK w)
    && within a n (s.inRange w).1 ((s.inRange w).1 + (s.inRange w).2))

/-- R347: an access of the partner in slice `sl` that no inbound window admits. -/
def State.pairShut (s : State) (kind : InitKind) (sl : Option Nat) (a n : Nat) (write : Bool) : Bool :=
  kind = .pair && (match s.inWindowFor a n write with | some w => s.inSlice w ≠ sl | none => true)

/-- The violation of R347 and of R33. -/
def windowViol : Viol := ⟨.bridge 4, 7, srcBridgeViol⟩

/-! ### Checks of an access -/

/-- The outcome of the checks: the access is made, waits, gets an error response, or is a violation. -/
inductive Verdict where
  | ok
  | waits
  | err
  | viol (v : Viol)
  deriving DecidableEq, Repr

/-- The Slate share of a slice in a cluster, as physical start and end (R327). -/
def State.slateShare (s : State) (i cluster : Nat) : Nat × Nat :=
  let b := (s.slice i).slateBase.getD cluster 0
  let n := (s.slice i).slateSize.getD cluster 0
  (slateAddr cluster (b * 65536), slateAddr cluster ((b + n) * 65536))

/-- The LPDDR5X range of a slice, as physical start and end (R327). -/
def State.dramShare (s : State) (i : Nat) : Nat × Nat :=
  (dramBase + (s.slice i).dramBase * 0x100000, dramBase + ((s.slice i).dramBase + (s.slice i).dramSize) * 0x100000)

/-- The range at `a` reaches a memory range that some slice owns (R328). -/
def State.sliceOwned (s : State) (a n : Nat) : Bool :=
  s.slices.any (fun p =>
    let d := s.dramShare p.1
    overlaps a n d.1 (d.2 - d.1) ||
      (List.range 16).any (fun c => let h := s.slateShare p.1 c; overlaps a n h.1 (h.2 - h.1)))

/-- R328, step RANGE: the access stays in its slice's range; an access of no slice reaches no slice's range. Secure-world accesses (R289), the
Registrar, the Security Core, the CCCs and debug accesses under a normal-world enable are not bound to a slice (log entry 13). -/
def State.rangeOk (s : State) (c : Ctx) (a n lo hi : Nat) : Bool :=
  c.secure ||
    match c.slice with
    | some _ => within a n lo hi
    | none => (c.kind = .fw && (c.index = 0 || c.index = 2)) || c.kind = .ccc || c.kind = .debug || !s.sliceOwned a n

/-- The debug access port reaches memory only under an enable (R297): invasive for a write, either kind for a read. -/
def State.debugOk (s : State) (c : Ctx) (write : Bool) : Bool :=
  c.kind ≠ .debug || s.on SEC_STATE.DBG_NS_INV || s.on SEC_STATE.DBG_S_INV
    || (!write && (s.on SEC_STATE.DBG_NS_NONINV || s.on SEC_STATE.DBG_S_NONINV))

/-- The die of a cluster is powered and zero-filled (R96). -/
def State.memUp (s : State) (cluster : Nat) : Bool := (s.die (dieOf cluster)).powered && (s.die (dieOf cluster)).filled

/-- The physical start and length of a row group (R107): of memory `m` of a cluster, 0-7 a Locker, 8 the Slate. -/
def groupRange (cluster m g : Nat) : Nat × Nat :=
  if m = 8 then (slateAddr cluster (g * 0x40000), 0x40000) else (lockerAddr (8 * cluster + m) (g * 0x10000), 0x10000)

/-- R108: a march holds a row group that the range reaches. -/
def State.marchWaits (s : State) (a n : Nat) : Bool :=
  (List.range 16).any (fun cl =>
    match (s.cluster cl).march.held with
    | some (m, g) => overlaps a n (groupRange cl m g).1 (groupRange cl m g).2
    | none => false)

/-- The clusters whose Slate, and the cores whose Locker, a range reaches. -/
def slatesHit (a n : Nat) : List Nat := (List.range 16).filter (fun k => overlaps a (max n 1) (slateAddr k 0) 0x2000000)
def lockersHit (a n : Nat) : List Nat := (List.range 128).filter (fun m => overlaps a (max n 1) (lockerAddr m 0) 0x200000)

/-- The size of the secure Slate partition (R114) and of the secure LPDDR5X partition (R289), in bytes. -/
def State.slateLevel (s : State) : Nat := s.rd WMARK_SLATE.LEVEL_64K * 0x10000
def State.dramLevel (s : State) : Nat := s.rd WMARK_DRAM.LEVEL_1M * 0x100000

/-- The range reaches the secure partition of Slate `k`. -/
def State.inSecureSlate (s : State) (a n k : Nat) : Bool := overlaps a (max n 1) (slateAddr k 0) s.slateLevel

/-- A register can be reached: the die that holds it is powered, and the Hub fabric runs for one of the Hub die (R21); another
answers with an error response (log entry 24, DEDUCED from R96 and R339). -/
def State.regUp (s : State) (addr : Nat) : Bool :=
  if 0x20000000 ≤ addr ∧ addr < 0x20100000 then (s.die ((addr - 0x20000000) / 0x80000)).powered
  else if 0x0FE10000 ≤ addr ∧ addr < 0x0FE20000 then (s.die 0).powered
  else if 0x0FE20000 ≤ addr ∧ addr < 0x0FE30000 then (s.die 1).powered
  else s.domainOn 6

/-- R417: the checks of an access of `n` bytes at `a`, in their order, for every party but a Seat at its own Locker. A write of the boot ROM fails
step RIGHTS at the Hub fabric (log entry 71). The Hub fabric logs the LPDDR5X accesses that fail RANGE and those of the debug port without an enable
(log entry 72). An exclusive sequence of the partner needs an inbound window with READ_OK and WRITE_OK (`excl`, R347). -/
def State.memCheck (s : State) (c : Ctx) (a n : Nat) (write : Bool) (excl : Bool := false) : Verdict :=
  let fitted := s.pins.fittedMiB
  let shut := s.pairShut c.kind c.slice a n write || (excl && (s.pairShut c.kind c.slice a n true || s.pairShut c.kind c.slice a n false))
  let last : Verdict :=
    if s.lockWaits c.id a n || s.lateOver a n || (!write && !s.tagsFor c.die a) then .waits else .ok
  if !s.arrives c.kind c.index a then .err
  else match placeOf fitted a with
  | .hole => .viol (hubViol 1)
  | .regs =>
    if !s.regUp a then .err
    else if !widthOk a n then .viol (regViol a 2)
    else if (match regOver a with | some (f, i, _) => !s.ctxRights f i c write | none => false) then .viol (regViol a 3)
    else if shut && !pairChannel a then .viol windowViol
    else last
  | .pairWin off =>
    if 0x3000000000 < a + n then .viol (hubViol 1)
    else if shut then .viol windowViol
    else if (s.outTarget off n).isNone then .viol windowViol
    else last
  | .rom =>
    if 0x40000 < a + n then .viol (hubViol 1)
    else if write then .viol (hubViol 3)
    else if shut then .viol windowViol
    else last
  | .periph =>
    if 0x0C000000 < a + n then .viol (hubViol 1)
    else if shut then .viol windowViol
    else if !s.domainOn 7 then .err
    else last
  | .locker m _ =>
    let cl : Fin 16 := ⟨m / 8 % 16, Nat.mod_lt _ (by decide)⟩
    let hit := lockersHit a n
    if 0x150000000 < a + n then .viol (hubViol 1)
    else if !s.debugOk c write || !(c.kind = .debug || (c.kind = .fw && c.slice.isNone && (c.index = 0 || c.index = 2))
        || (c.kind = .ccc && hit.all (fun k => k / 8 = c.index))) then .viol (clusterViol cl 3)
    else if !hit.all (fun k => s.memUp (k / 8)) then .err
    else if s.marchWaits a n then .waits
    else last
  | .slate k _ =>
    let cl : Fin 16 := ⟨k % 16, Nat.mod_lt _ (by decide)⟩
    let hit := slatesHit a n
    let low := hit.filter (s.inSecureSlate a n)
    if 0x120000000 < a + n then .viol (hubViol 1)
    else if !s.debugOk c write then .viol (clusterViol cl 3)
    else if shut then .viol windowViol
    else if !low.isEmpty ∧ !c.secure then .viol ⟨.wmark, 4, srcSlateWmarkViol⟩
    else if !s.rangeOk c a n (s.slateShare (c.slice.getD 0) k).1 (s.slateShare (c.slice.getD 0) k).2 then
      .viol (clusterViol cl 5)
    else if !low.isEmpty ∧ (s.on SEC_STATE.SEALED ∨ low.any s.sec.slateShut.contains) then .err
    else if (match s.sec.slateWipe with | some (lo, hi) => hit.any (fun j => overlaps a n (slateAddr j lo) (hi - lo)) | none => false) then .err
    else if !hit.all s.memUp then .err
    else if s.marchWaits a n then .waits
    else last
  | .dram off =>
    if dramBase + min fitted 65536 * 0x100000 < a + n then .viol (hubViol 1)
    else if !s.debugOk c write then .viol (hubViol 3)
    else if shut then .viol windowViol
    else if off < s.dramLevel ∧ !c.secure then .viol ⟨.wmark, 4, srcDramWmarkViol⟩
    else if !s.rangeOk c a n (s.dramShare (c.slice.getD 0)).1 (s.dramShare (c.slice.getD 0)).2 then .viol (hubViol 5)
    else if off < s.dramLevel ∧ (s.on SEC_STATE.SEALED ∨ s.sec.dramShut) then .err
    else if (match s.sec.dramWipe with | some (lo, hi) => overlaps off n lo (hi - lo) | none => false) then .err
    else if !s.boot.dramServing || s.pwr.ddrRefreshOnly || !s.unitOn 5 || (s.sec.dramFull && s.sec.dramWipe.isSome) then .waits
    else last

/-- The violation of an access: the Queue Manager's own accesses to queue entries are logged in the Hub fabric pair whatever check refuses them
(R279, R418). -/
def Ctx.viol (c : Ctx) (v : Viol) : Viol := if c.id = 0x5005 then hubViol v.reason else v

/-! ### ECC (R98-R101) -/

/-- The 8-byte word of an address. -/
def wordOf (a : Nat) : Nat := a / 8 * 8

/-- The word at `w` overlaps the range of `n` bytes at `a`. -/
def hits (a n w : Nat) : Bool := overlaps a n w 8

/-- The range covers the whole word at `w`. -/
def covers (a n w : Nat) : Bool := a ≤ w && w + 8 ≤ a + n

/-- Cluster of a Locker or Slate address, its memory number as in CLC_MEM_UELOG.MEM, and whether it is a Slate. -/
def eccHome (a : Nat) : Option (Nat × Nat) :=
  match placeOf 65536 a with
  | .slate k _ => some (k, 8)
  | .locker m _ => some (m / 8, m % 8)
  | _ => none

/-- A single-bit error is corrected in the data returned: it is counted, its source raised, and the corrected word waits
for its write-back (R98). A second read before the write-back neither corrects nor counts the word again (log entry 73). -/
def State.eccFix (s : State) (w : Nat) : State :=
  let s1 := { s with ecc := { s.ecc with ce := s.ecc.ce.filter (· ≠ w), wb := w :: s.ecc.wb.filter (· ≠ w) } }
  match eccHome w with
  | some (k, m) => (s1.satAdd (CLC_MEM_ECCCOUNT.CE_COUNT k) 1).raise (srcCluster k (if m = 8 then 5 else 3))
  | none => s1.raise srcDramCe

/-- An uncorrectable word is read: the first is held in CLC_MEM_UELOG, each is counted and raised (R99). -/
def State.eccFail (s : State) (w : Nat) : State :=
  match eccHome w with
  | some (k, m) =>
    let s1 := s.when (!s.on (CLC_MEM_UELOG.VALID k)) (fun t =>
      t.setReg64 (CLC_MEM_UELOG k) (2 ^ 63 + m * 2 ^ 48 + w % 2 ^ 48))
    (s1.satAdd (CLC_MEM_ECCCOUNT.UE_COUNT k) 1).raise (srcCluster k (if m = 8 then 6 else 4))
  | none => s.raise srcDramUe

/-- R98, R99: the ECC effects of reading a range, and whether every word of it could be read. -/
def State.eccRead (s : State) (a n : Nat) : State × Bool :=
  let bad := s.ecc.ue.filter (hits a n)
  let s1 := s.each (s.ecc.ce.filter (hits a n)) State.eccFix
  (s1.each bad State.eccFail, bad.isEmpty)

/-- Uncorrectable words that a write of the range would cover only in part (R100). -/
def State.partUe (s : State) (a n : Nat) : List Nat := s.ecc.ue.filter (fun w => hits a n w && !covers a n w)

/-- R100, R101: what a write of a range that may be made leaves: single-bit errors in words written in part are corrected, marks of words
written whole go, write-backs still pending and the reservations of the granules are dropped. -/
def State.eccTake (s : State) (a n : Nat) : State :=
  let s1 := s.each (s.ecc.ce.filter (fun w => hits a n w && !covers a n w)) State.eccFix
  { s1 with ecc := { s1.ecc with
      ce := s1.ecc.ce.filter (fun w => !covers a n w)
      ue := s1.ecc.ue.filter (fun w => !covers a n w)
      wb := s1.ecc.wb.filter (fun w => !hits a n w)
      resv := s1.ecc.resv.filter (fun r => !overlaps a n (r.2 * 64) 64) } }

/-- R100, R101: the ECC effects of one write of several ranges, and whether it may be made: where some range is refused for an
uncorrectable word under a partial write, none is written and no mark goes. -/
def State.eccWrites (s : State) (l : List (Nat × Nat)) : State × Bool :=
  let bad := l.flatMap (fun r => s.partUe r.1 r.2)
  if bad.isEmpty then (s.each l (fun t r => t.eccTake r.1 r.2), true) else (s.each bad State.eccFail, false)

/-- The same of one range. -/
def State.eccWrite (s : State) (a n : Nat) : State × Bool := s.eccWrites [(a, n)]

/-- Zero a range as the device does (R96, R115, R158): the marks of the words in it and its reservations go. -/
def State.wipeRange (s : State) (lo hi : Nat) : State :=
  let keep := fun w => w < lo || hi ≤ w
  { s.zeroMem lo hi with ecc := { s.ecc with
      ce := s.ecc.ce.filter keep
      ue := s.ecc.ue.filter keep
      wb := s.ecc.wb.filter keep
      resv := s.ecc.resv.filter (fun r => !overlaps lo (hi - lo) (r.2 * 64) 64) } }

/-! ### Writes over a Die Bridge -/

/-- The posted writes that a write from die `d` to `a` counts at the Die Bridge that it crosses (R337). -/
def State.countCross (s : State) (d a : Nat) : State :=
  match dieBridge d a with
  | some b => s.countPosted b
  | none => s

/-- R345: a write of the device or of a Seat's engine that fails at its far side comes back over the Die Bridge as a write-error message; the unit
that made it learns of the failure besides. -/
def State.crossFailed (s : State) (c : Ctx) (a : Nat) (bs : List Byte) (reason : Nat) : State :=
  match dieBridge c.die a with
  | some b => s.postWrite b c a a bs reason
  | none => s

/-! ### Quotas of strict slices (R330) -/

/-- The bytes of a quota in MB/s that a window of 10 us holds. -/
def quotaBytes (mbPerS : Nat) : Nat := mbPerS * 10

/-- The direction of a link that moves data from die `x` to die `y`. -/
def linkDir (x y : Nat) : Nat := 3 * x + y

/-- R330: bytes that a strict slice has used of its quotas of LPDDR5X and of each die link in each direction, in the present window. -/
def State.useQuota (s : State) (slice : Option Nat) (dram : Nat) (links : List (Nat × Nat)) : State :=
  match slice with
  | none => s
  | some i =>
    let x := s.slice i
    if x.strict then
      s.setSlice i { x with dramUsed := x.dramUsed + dram,
                            linkUsed := links.foldl (fun t p => Table.set t 0 p.1 (Table.get t 0 p.1 + p.2)) x.linkUsed }
    else s

/-- A strict slice still has quota of LPDDR5X in the present window; one with DRAM_QUOTA 0 has none. -/
def Slice.dramLeft (x : Slice) : Bool := x.strict && decide (x.dramUsed < quotaBytes x.dramQuota)

/-- A strict slice still has quota of a link in a direction in the present window. -/
def Slice.linkLeft (x : Slice) (dir : Nat) : Bool := x.strict && decide (Table.get x.linkUsed 0 dir < quotaBytes x.linkQuota)

/-- The die link that a read or a write between die `d` and `a` moves `n` bytes over, by direction. -/
def linkBytes (d a n : Nat) (write : Bool) : List (Nat × Nat) :=
  if d = homeDie a then [] else [(if write then linkDir d (homeDie a) else linkDir (homeDie a) d, n)]

/-- Bytes of LPDDR5X that an access moves (R330). -/
def dramBytes (a n : Nat) : Nat := if dramBase ≤ a && a < pairBase then n else 0

end Sys2Proof.Machine
end

