-- ==== Sys2Proof/Machine/Num.lean ====
section
/-! DEFINITION. Exact numbers and their rounding (03_arithmetic R71-R84): a number is a signed dyadic m x 2^e, an
infinity or a NaN; every operation is exact and is rounded once, to nearest with ties to even. -/

namespace Sys2Proof.Machine

/-- A number as the tensor fabric sees it: NaN (payloads are not kept, R71), an infinity, or (-1)^neg x m x 2^e. Zero
keeps its sign. -/
inductive Num where
  | nan
  | inf (neg : Bool)
  | fin (neg : Bool) (m : Nat) (e : Int)
  deriving DecidableEq, Repr

/-- A binary floating-point format (R71): exponent and fraction widths, bias, whether it has infinities, and whether
it has NaN encodings. `e4m3` keeps its top exponent for numbers but for S.1111.111. -/
structure FFmt where
  ebits : Nat
  mbits : Nat
  bias : Nat
  hasInf : Bool
  hasNan : Bool
  e4m3 : Bool
  deriving DecidableEq, Repr

def fp8e4m3 : FFmt := ⟨4, 3, 7, false, true, true⟩
def fp8e5m2 : FFmt := ⟨5, 2, 15, true, true, false⟩
def fp6e3m2 : FFmt := ⟨3, 2, 3, false, false, false⟩
def fp6e2m3 : FFmt := ⟨2, 3, 1, false, false, false⟩
def fp4e2m1 : FFmt := ⟨2, 1, 1, false, false, false⟩
def bf16 : FFmt := ⟨8, 7, 127, true, true, false⟩
def fp16 : FFmt := ⟨5, 10, 15, true, true, false⟩
def fp32 : FFmt := ⟨8, 23, 127, true, true, false⟩
def fp64 : FFmt := ⟨11, 52, 1023, true, true, false⟩

/-- Exponent of the smallest subnormal. -/
def FFmt.qmin (f : FFmt) : Int := 1 - (f.bias : Int) - (f.mbits : Int)

/-- Magnitude code of the largest finite value. -/
def FFmt.maxCode (f : FFmt) : Nat :=
  if f.hasInf then (2 ^ f.ebits - 2) * 2 ^ f.mbits + (2 ^ f.mbits - 1)
  else if f.hasNan then 2 ^ (f.ebits + f.mbits) - 2
  else 2 ^ (f.ebits + f.mbits) - 1

/-- The value of magnitude code `c` (sign bit left out), as mantissa and exponent. -/
def FFmt.codeVal (f : FFmt) (c : Nat) : Nat × Int :=
  let ex := c / 2 ^ f.mbits
  let man := c % 2 ^ f.mbits
  if ex = 0 then (man, f.qmin) else (2 ^ f.mbits + man, (ex : Int) - (f.bias : Int) - (f.mbits : Int))

/-- Read an encoding (R71). -/
def FFmt.decode (f : FFmt) (bits : Nat) : Num :=
  let w := f.ebits + f.mbits
  let neg := decide (bits / 2 ^ w % 2 = 1)
  let c := bits % 2 ^ w
  let ex := c / 2 ^ f.mbits
  let man := c % 2 ^ f.mbits
  if f.e4m3 && c == 2 ^ w - 1 then .nan
  else if f.hasInf && ex == 2 ^ f.ebits - 1 then (if man = 0 then .inf neg else .nan)
  else
    let v := f.codeVal c
    .fin neg v.1 v.2

/-- Number of bits of `m`. -/
def bitLen (m : Nat) : Nat := if m = 0 then 0 else Nat.log2 m + 1

/-- m / 2^s rounded to nearest, ties to even (R83). -/
def shiftRne (m s : Nat) : Nat :=
  if s = 0 then m
  else if bitLen m + 1 < s then 0
  else
    let q := m / 2 ^ s
    let r := m % 2 ^ s
    let half := 2 ^ (s - 1)
    if half < r then q + 1 else if r = half then q + q % 2 else q

/-- The magnitude code nearest to m x 2^e with the exponent range unbounded above (R83): `none` when the rounded
magnitude exceeds the largest finite value. -/
def FFmt.roundCode (f : FFmt) (m : Nat) (e : Int) : Option Nat :=
  if m = 0 then some 0
  else
    let len : Int := bitLen m
    let p : Int := (f.mbits : Int) + 1
    let q := max (e + len - p) f.qmin
    if (f.bias : Int) + 2 < e + len - 1 then none
    else
      let m' := if q ≤ e then m * 2 ^ (e - q).toNat else shiftRne m (q - e).toNat
      let field : Int := q - f.qmin
      let code : Nat := if m' < 2 ^ f.mbits then m' else field.toNat * 2 ^ f.mbits + m'
      if f.maxCode < code then none else some code

/-- m x 2^e, rounded with the exponent range unbounded, lies below the smallest normal magnitude (R84, R90). -/
def FFmt.tiny (f : FFmt) (m : Nat) (e : Int) : Bool :=
  let q : Int := e + (bitLen m : Int) - ((f.mbits : Int) + 1)
  let top : Int := if q ≤ e then e + (bitLen m : Int) else q + (bitLen (shiftRne m (q - e).toNat) : Int)
  m = 0 || decide (top ≤ 1 - (f.bias : Int))

/-- A number rounded once to a format with infinities: overflow gives an infinity (R81, R82). -/
def FFmt.round (f : FFmt) : Num → Num
  | .fin neg m e =>
    match f.roundCode m e with
    | some c => let v := f.codeVal c; .fin neg v.1 v.2
    | none => .inf neg
  | x => x

/-- The sign of a number. -/
def Num.neg? : Num → Bool
  | .nan => false
  | .inf n => n
  | .fin n _ _ => n

def Num.isNan : Num → Bool
  | .nan => true
  | _ => false

def Num.isZero : Num → Bool
  | .fin _ 0 _ => true
  | _ => false

/-- Sign change. -/
def Num.negate : Num → Num
  | .nan => .nan
  | .inf n => .inf (!n)
  | .fin n m e => .fin (!n) m e

/-- The integer m x 2^(e - q) of a finite number at exponent `q`, which does not exceed its own. -/
def scaledInt (neg : Bool) (m : Nat) (e q : Int) : Int :=
  let v : Int := (m * 2 ^ (e - q).toNat : Nat)
  if neg then -v else v

/-- Exact sum; x + (-x) is +0 and (-0) + (-0) is -0 (R82). -/
def Num.add : Num → Num → Num
  | .nan, _ => .nan
  | _, .nan => .nan
  | .inf a, .inf b => if a = b then .inf a else .nan
  | .inf a, _ => .inf a
  | _, .inf b => .inf b
  | .fin a m e, .fin b n f =>
    let q := min e f
    let s := scaledInt a m e q + scaledInt b n f q
    if s = 0 then .fin (a && b) 0 q else .fin (decide (s < 0)) s.natAbs q

/-- Exact product; infinity x 0 is NaN (R78, R82). -/
def Num.mul : Num → Num → Num
  | .nan, _ => .nan
  | _, .nan => .nan
  | .inf a, .inf b => .inf (a != b)
  | .inf a, .fin b n _ => if n = 0 then .nan else .inf (a != b)
  | .fin a m _, .inf b => if m = 0 then .nan else .inf (a != b)
  | .fin a m e, .fin b n f => .fin (a != b) (m * n) (e + f)

/-- Multiplication by 2^k, exact (R83 step 2). -/
def Num.scale (k : Int) : Num → Num
  | .fin a m e => .fin a m (e + k)
  | x => x

/-- Quotient with enough bits and a sticky bit that one rounding to precision `p` is correct (R88, R89). -/
def Num.div (p : Nat) : Num → Num → Num
  | .nan, _ => .nan
  | _, .nan => .nan
  | .inf _, .inf _ => .nan
  | .inf a, .fin b _ _ => .inf (a != b)
  | .fin a _ e, .inf b => .fin (a != b) 0 e
  | .fin a m e, .fin b n f =>
    if n = 0 then (if m = 0 then .nan else .inf (a != b))
    else
      let k := p + 3 + bitLen n
      let t := m * 2 ^ k
      .fin (a != b) (2 * (t / n) + (if t % n = 0 then 0 else 1)) (e - f - (k : Int) - 1)

/-- Integer square root by bits, from bit `n` downwards. -/
def isqrtBits : Nat → Nat → Nat → Nat
  | 0, x, acc => if (acc + 1) * (acc + 1) ≤ x then acc + 1 else acc
  | n + 1, x, acc =>
    let t := acc + 2 ^ (n + 1)
    if t * t ≤ x then isqrtBits n x t else isqrtBits n x acc

/-- 1 / sqrt(x) with a sticky bit, for one correct rounding to precision `p` (R88). -/
def Num.rsqrt (p : Nat) : Num → Num
  | .nan => .nan
  | .inf neg => if neg then .nan else .fin false 0 0
  | .fin neg m e =>
    if m = 0 then .inf neg
    else if neg then .nan
    else
      let odd := e % 2 ≠ 0
      let m' := if odd then 2 * m else m
      let e' := if odd then e - 1 else e
      let k := p + 4 + bitLen m'
      let t := 2 ^ (2 * k) / m'
      let r := isqrtBits (bitLen t / 2 + 1) t 0
      .fin false (2 * r + (if r * r * m' = 2 ^ (2 * k) then 0 else 1)) (-(e' / 2) - (k : Int) - 1)

/-- Strict order of numbers that are not NaN; +0 and -0 are equal. -/
def Num.lt : Num → Num → Bool
  | .nan, _ => false
  | _, .nan => false
  | .inf a, .inf b => a && !b
  | .inf a, _ => a
  | _, .inf b => !b
  | .fin a m e, .fin b n f =>
    let q := min e f
    decide (scaledInt a m e q < scaledInt b n f q)

/-- Equality of value; +0 and -0 are equal, a NaN equals nothing. -/
def Num.eqv (x y : Num) : Bool := !x.isNan && !y.isNan && !x.lt y && !y.lt x

/-- MAX of R86: the canonical NaN for a NaN operand, and max(-0, +0) is +0. -/
def Num.max2 (x y : Num) : Num :=
  if x.isNan || y.isNan then .nan
  else if x.lt y then y
  else if y.lt x then x
  else if x.neg? then y else x

/-- MIN of R86: the canonical NaN for a NaN operand, and min(-0, +0) is -0. -/
def Num.min2 (x y : Num) : Num :=
  if x.isNan || y.isNan then .nan
  else if x.lt y then x
  else if y.lt x then y
  else if x.neg? then x else y

/-- The nearest integer, ties to even. -/
def Num.rint : Num → Int
  | .fin neg m e =>
    let v : Int := (if 0 ≤ e then m * 2 ^ e.toNat else shiftRne m (-e).toNat : Nat)
    if neg then -v else v
  | _ => 0

/-- The encoding of a number that a format holds exactly or rounds (IEEE overflow): used for FP32 and FP64 values. -/
def FFmt.encode (f : FFmt) : Num → Nat
  | .nan => (2 ^ f.ebits - 1) * 2 ^ f.mbits + 2 ^ (f.mbits - 1)
  | .inf neg => (if neg then 2 ^ (f.ebits + f.mbits) else 0) + (2 ^ f.ebits - 1) * 2 ^ f.mbits
  | .fin neg m e =>
    let sgn := if neg then 2 ^ (f.ebits + f.mbits) else 0
    match f.roundCode m e with
    | some c => sgn + c
    | none => sgn + (2 ^ f.ebits - 1) * 2 ^ f.mbits

/-- FP32 values as words. -/
abbrev F32 := BitVec 32

def f32of (w : F32) : Num := fp32.decode w.toNat
def f32to (x : Num) : F32 := BitVec.ofNat 32 (fp32.encode x)

/-- One FP32 addition, multiplication, fused multiply-add, division, each rounded once (R81, R85, R88). -/
def fadd (a b : F32) : F32 := f32to ((f32of a).add (f32of b))
def fsub (a b : F32) : F32 := f32to ((f32of a).add (f32of b).negate)
def fmul (a b : F32) : F32 := f32to ((f32of a).mul (f32of b))
def ffma (a b c : F32) : F32 := f32to (((f32of a).mul (f32of b)).add (f32of c))
def fdiv (a b : F32) : F32 := f32to ((f32of a).div 24 (f32of b))
def frsqrt (a : F32) : F32 := f32to ((f32of a).rsqrt 24)
def fmax (a b : F32) : F32 := f32to ((f32of a).max2 (f32of b))
def fmin (a b : F32) : F32 := f32to ((f32of a).min2 (f32of b))
def fneg (a : F32) : F32 := f32to (f32of a).negate
def flt (a b : F32) : Bool := (f32of a).lt (f32of b)
def fnan (a : F32) : Bool := (f32of a).isNan

/-! ### Element formats (R52, R71-R74) -/

/-- The element formats by their FMT codes (R52). -/
inductive Fmt where
  | int8 | uint8 | int4 | uint4 | e4m3 | e5m2 | e2m1 | mx8e4m3 | mx8e5m2 | mx6e3m2 | mx6e2m3 | mx4 | bf16 | fp16 | fp32
  | carry | int32 | e3m2 | e2m3
  deriving DecidableEq, Repr

/-- The FMT code table of R52; codes 0x13 to 0x1F are not used. -/
def Fmt.ofCode : Nat → Option Fmt
  | 0x00 => some .int8 | 0x01 => some .uint8 | 0x02 => some .int4 | 0x03 => some .uint4 | 0x04 => some .e4m3
  | 0x05 => some .e5m2 | 0x06 => some .e2m1 | 0x07 => some .mx8e4m3 | 0x08 => some .mx8e5m2 | 0x09 => some .mx6e3m2
  | 0x0A => some .mx6e2m3 | 0x0B => some .mx4 | 0x0C => some .bf16 | 0x0D => some .fp16 | 0x0E => some .fp32
  | 0x0F => some .carry | 0x10 => some .int32 | 0x11 => some .e3m2 | 0x12 => some .e2m3 | _ => none

/-- Width of an element in bits (R71, R73). -/
def Fmt.bits : Fmt → Nat
  | .int4 | .uint4 | .e2m1 | .mx4 => 4
  | .mx6e3m2 | .mx6e2m3 | .e3m2 | .e2m3 => 6
  | .int8 | .uint8 | .e4m3 | .e5m2 | .mx8e4m3 | .mx8e5m2 => 8
  | .bf16 | .fp16 => 16
  | .fp32 | .int32 => 32
  | .carry => 128

def Fmt.isMx : Fmt → Bool
  | .mx8e4m3 | .mx8e5m2 | .mx6e3m2 | .mx6e2m3 | .mx4 => true
  | _ => false

/-- The 16-bit formats BF16 and FP16 select the 16-bit path (R75, R81). -/
def Fmt.is16 : Fmt → Bool
  | .bf16 | .fp16 => true
  | _ => false

/-- The floating-point encoding of a format, where it has one. -/
def Fmt.ffmt : Fmt → Option FFmt
  | .e4m3 | .mx8e4m3 => some fp8e4m3
  | .e5m2 | .mx8e5m2 => some fp8e5m2
  | .e3m2 | .mx6e3m2 => some fp6e3m2
  | .e2m3 | .mx6e2m3 => some fp6e2m3
  | .e2m1 | .mx4 => some fp4e2m1
  | .bf16 => some Machine.bf16
  | .fp16 => some Machine.fp16
  | .fp32 => some Machine.fp32
  | _ => none

/-- An integer as a number. -/
def numOfInt (v : Int) : Num := .fin (decide (v < 0)) v.natAbs 0

/-- `x` read as an `n`-bit two's-complement number. -/
def signedOf (n x : Nat) : Int :=
  let y := x % 2 ^ n
  if 2 ^ (n - 1) ≤ y then (y : Int) - ((2 ^ n : Nat) : Int) else (y : Int)

/-- The low `n` bits of an integer in two's complement. -/
def bitsOfInt (n : Nat) (v : Int) : Nat := (v % ((2 ^ n : Nat) : Int)).toNat

/-- The exact value of an element that is neither CARRY nor scaled (R71). -/
def Fmt.decode (f : Fmt) (bits : Nat) : Num :=
  match f with
  | .int8 => numOfInt (signedOf 8 bits)
  | .uint8 => numOfInt ((bits % 256 : Nat) : Int)
  | .int4 => numOfInt (signedOf 4 bits)
  | .uint4 => numOfInt ((bits % 16 : Nat) : Int)
  | .int32 => numOfInt (signedOf 32 bits)
  | .e4m3 | .mx8e4m3 => fp8e4m3.decode bits
  | .e5m2 | .mx8e5m2 => fp8e5m2.decode bits
  | .e3m2 | .mx6e3m2 => fp6e3m2.decode bits
  | .e2m3 | .mx6e2m3 => fp6e2m3.decode bits
  | .e2m1 | .mx4 => fp4e2m1.decode bits
  | .bf16 => Machine.bf16.decode bits
  | .fp16 => Machine.fp16.decode bits
  | .fp32 => Machine.fp32.decode bits
  | .carry => .nan

/-- An element under an E8M0 block scale (R72): a scale of 0xFF makes it a NaN. -/
def scaled (scale : Nat) (x : Num) : Num :=
  if scale = 0xFF then .nan else x.scale ((scale : Int) - 127)

/-- Clamp an integer to a format's range: the integer rows of R84. -/
def clampInt (lo hi v : Int) : Int := if v < lo then lo else if hi < v then hi else v

/-- R84: the integer written for a number, within `lo` to `hi`. -/
def intOut (n : Nat) (lo hi : Int) : Num → Nat
  | .nan => 0
  | .inf neg => bitsOfInt n (if neg then lo else hi)
  | .fin neg m e =>
    let big := m ≠ 0 && decide ((n : Int) + 2 < e + (bitLen m : Int))
    bitsOfInt n (if big then (if neg then lo else hi) else clampInt lo hi (Num.rint (.fin neg m e)))

/-- R84: the encoding written for a number already scaled (R83 step 3), for every format but CARRY. -/
def Fmt.encode (f : Fmt) (sat ftz : Bool) (x : Num) : Nat :=
  match f with
  | .int8 => intOut 8 (-128) 127 x
  | .uint8 => intOut 8 0 255 x
  | .int4 => intOut 4 (-8) 7 x
  | .uint4 => intOut 4 0 15 x
  | .int32 => intOut 32 (-2147483648) 2147483647 x
  | .carry => 0
  | f =>
    match f.ffmt with
    | none => 0
    | some g =>
      let sgn (neg : Bool) := if neg then 2 ^ (g.ebits + g.mbits) else 0
      let tooBig (neg : Bool) : Nat :=
        if sat || !g.hasNan then sgn neg + g.maxCode
        else if g.hasInf then sgn neg + (2 ^ g.ebits - 1) * 2 ^ g.mbits
        else 2 ^ (g.ebits + g.mbits) - 1
      match x with
      | .nan => if g.hasInf then
            (if f = .e5m2 ∨ f = .mx8e5m2 then 0x7F else (2 ^ g.ebits - 1) * 2 ^ g.mbits + 2 ^ (g.mbits - 1))
          else if g.hasNan then 2 ^ (g.ebits + g.mbits) - 1 else 0
      | .inf neg => if g.hasInf then sgn neg + (2 ^ g.ebits - 1) * 2 ^ g.mbits else tooBig neg
      | .fin neg m e =>
        match g.roundCode m e with
        | none => tooBig neg
        | some c => if f = .bf16 ∧ ftz ∧ g.tiny m e then sgn neg else sgn neg + c

/-! ### The exact accumulator and the CARRY format (R75-R80) -/

/-- An accumulator lane (R75, R78, R79): the 96-bit VALUE as an integer on the grid of 2^-48, its flags, and MODE; in
MODE 1 VALUE holds the FP32 encoding. -/
structure Lane where
  value : Int
  nan : Bool
  pinf : Bool
  ninf : Bool
  inexact : Bool
  range : Bool
  mode1 : Bool
  deriving DecidableEq, Repr

def Lane.zero : Lane := ⟨0, false, false, false, false, false, false⟩

/-- R77: a grid total brought into the 96-bit range, RANGE set when it left it. -/
def gridWrap (t : Int) : Int × Bool :=
  if -(2 ^ 95 : Int) ≤ t ∧ t < 2 ^ 95 then (t, false) else (signedOf 96 (bitsOfInt 96 t), true)

/-- R76: a finite value on the grid, truncated towards zero, with INEXACT. -/
def toGrid (neg : Bool) (m : Nat) (e : Int) : Int × Bool :=
  let k := e + 48
  let v : Nat := if 0 ≤ k then m * 2 ^ k.toNat else if bitLen m < (-k).toNat then 0 else m / 2 ^ (-k).toNat
  let lost := k < 0 ∧ (if bitLen m < (-k).toNat then m ≠ 0 else m % 2 ^ (-k).toNat ≠ 0)
  (if neg then -(v : Int) else (v : Int), decide lost)

/-- R80, R90, R92: a number converted to the grid as a MODE 0 lane; a NaN or an infinity has VALUE 0 (log entry 79). -/
def Lane.ofNum : Num → Lane
  | .nan => { Lane.zero with nan := true }
  | .inf neg => { Lane.zero with pinf := !neg, ninf := neg }
  | .fin neg m e =>
    let g := toGrid neg m e
    let r := gridWrap g.1
    { Lane.zero with value := r.1, inexact := g.2, range := r.2 }

/-- R80: a lane as the exact path takes it, in MODE 0. -/
def Lane.exact (l : Lane) : Lane :=
  if l.mode1 then Lane.ofNum (fp32.decode (bitsOfInt 32 l.value)) else l

/-- R78: the number of a lane. A MODE 1 lane is its FP32 value (R90). -/
def Lane.num (l : Lane) : Num :=
  if l.mode1 then fp32.decode (bitsOfInt 32 l.value)
  else if l.nan || l.range || (l.pinf && l.ninf) then .nan
  else if l.pinf then .inf false
  else if l.ninf then .inf true
  else if l.value = 0 then .fin false 0 0
  else .fin (decide (l.value < 0)) l.value.natAbs (-48)

/-- R79: a lane from its 128-bit CARRY encoding; reserved bits are ignored, and so are bits [100:32] in MODE 1 (log entry 79). -/
def Lane.ofBits (w : Nat) : Lane :=
  let bit (n : Nat) := decide (w / 2 ^ n % 2 = 1)
  if bit 104 then { Lane.zero with value := ((w % 2 ^ 32 : Nat) : Int), mode1 := true }
  else ⟨signedOf 96 w, bit 96, bit 97, bit 98, bit 99, bit 100, false⟩

/-- R79: the 128-bit CARRY encoding of a lane, reserved bits zero. -/
def Lane.toBits (l : Lane) : Nat :=
  let b (n : Nat) (x : Bool) := if x then 2 ^ n else 0
  if l.mode1 then bitsOfInt 32 l.value + 2 ^ 104
  else bitsOfInt 96 l.value + b 96 l.nan + b 97 l.pinf + b 98 l.ninf + b 99 l.inexact + b 100 l.range

/-- R76, R78: one product placed on the grid. -/
def Lane.addProduct (l : Lane) (x y : Num) : Lane :=
  match x.mul y with
  | .nan => { l with nan := true }
  | .inf neg => if neg then { l with ninf := true } else { l with pinf := true }
  | .fin neg m e =>
    let g := toGrid neg m e
    { l with value := l.value + g.1, inexact := l.inexact || g.2 }

/-- R77: the range check on the total of a descriptor. -/
def Lane.close (l : Lane) : Lane :=
  let r := gridWrap l.value
  { l with value := r.1, range := l.range || r.2 }

/-- R75-R78: one output lane of the exact path from its start and its products. -/
def exactLane (start : Lane) (prods : List (Num × Num)) : Lane :=
  (prods.foldl (fun l p => l.addProduct p.1 p.2) start.exact).close

/-- R92: VEC ADD of two MODE 0 lanes: VALUE added exactly under R77, flags ORed. -/
def Lane.addLanes (a b : Lane) : Lane :=
  let x := a.exact
  let y := b.exact
  let r := gridWrap (x.value + y.value)
  ⟨r.1, x.nan || y.nan, x.pinf || y.pinf, x.ninf || y.ninf, x.inexact || y.inexact,
    x.range || y.range || r.2, false⟩

/-! ### The 16-bit path (R81, R82) -/

/-- The sum of one group of eight FP32 products in the tree order of R81; a missing product is +0. -/
def tree8 (q : List F32) : F32 :=
  let g (n : Nat) := q.getD n 0#32
  fadd (fadd (fadd (g 0) (g 1)) (fadd (g 2) (g 3))) (fadd (fadd (g 4) (g 5)) (fadd (g 6) (g 7)))

/-- The reduction of R81 over `fuel` groups of eight products. -/
def reduce16 : Nat → F32 → List F32 → F32
  | 0, acc, _ => acc
  | n + 1, acc, ps => if ps.isEmpty then acc else reduce16 n (fadd acc (tree8 (ps.take 8))) (ps.drop 8)

/-- R80, R81: one output lane of the 16-bit path; the result is an FP32 value. -/
def path16Lane (start : Lane) (prods : List (Num × Num)) : F32 :=
  let acc := if start.mode1 then BitVec.ofNat 32 (bitsOfInt 32 start.value) else f32to start.num
  reduce16 (prods.length / 8 + 1) acc (prods.map (fun p => f32to (p.1.mul p.2)))

/-- A MODE 1 lane (R82). -/
def Lane.ofF32 (w : F32) : Lane := { Lane.zero with value := (w.toNat : Int), mode1 := true }

end Sys2Proof.Machine
end

