-- ==== Sys2Proof/Machine/Operands.lean ====
section
/-! DEFINITION. Descriptors and their operands (02_tensor_core R46-R62, R416; 03_arithmetic R72-R74, R83-R85): the fields of
every layout, the rules a descriptor must meet (R49), tensor and operand references, elements read from and written to
Locker and the vector registers. -/

namespace Sys2Proof.Machine

/-! ### Word W0 (R47) -/

/-- Word `i` of a descriptor. -/
def wd (ws : List Nat) (i : Nat) : Nat := ws.getD i 0
/-- Bits `hi` to `lo` of word `i`. -/
def fld (ws : List Nat) (i hi lo : Nat) : Nat := bits (wd ws i) hi lo

def dClass (ws : List Nat) : Nat := fld ws 0 3 0
def dOp (ws : List Nat) : Nat := fld ws 0 7 4
def dEnd (ws : List Nat) : Bool := bit (wd ws 0) 8
def dFence (ws : List Nat) : Bool := bit (wd ws 0) 9
def dSig (ws : List Nat) : Bool := bit (wd ws 0) 10
def dProgress (ws : List Nat) : Nat := fld ws 0 31 16
def dId (ws : List Nat) : Nat := fld ws 0 63 32

/-- Opcodes of each class (R47): how many, from 0. -/
def opcodes : Nat → Nat
  | 0 => 3 | 1 => 2 | 2 => 4 | 3 => 3 | 4 => 11 | 5 => 2 | 6 => 2 | 7 => 6 | 8 => 4 | _ => 0

/-! ### Tensor references (R51-R53) -/

/-- A tensor reference. -/
structure Tref where
  base : Nat
  code : Nat
  s1 : Nat
  s2 : Nat
  deriving DecidableEq, Repr

def tref (w : Nat) : Tref := ⟨bits w 20 0, bits w 25 21, bits w 44 26, bits w 63 45⟩

/-- The element format; INT8 stands in for a code that is not used, which R49 refuses first. -/
def Tref.fmt (t : Tref) : Fmt := (Fmt.ofCode t.code).getD .int8

/-- Element size in whole bytes for alignment (R53): 1 for 4-bit and 6-bit formats. -/
def Fmt.align (f : Fmt) : Nat := if f.bits < 8 then 1 else f.bits / 8

/-- R53: BASE and the strides are whole multiples of the element size, and the code is one of R52. -/
def Tref.ok (t : Tref) : Bool :=
  match Fmt.ofCode t.code with
  | none => false
  | some f => t.base % f.align = 0 && t.s1 % f.align = 0 && t.s2 % f.align = 0

/-- Bytes that `n` consecutive elements touch from their start. -/
def Fmt.span (f : Fmt) (n : Nat) : Nat := ceilDiv (n * f.bits) 8

/-! ### Output control (R55, R83, R84) -/

def ocFmt (oc : Nat) : Nat := bits oc 4 0
def ocSat (oc : Nat) : Bool := bit oc 5
def ocFtz (oc : Nat) : Bool := bit oc 6
def ocShift (oc : Nat) : Int := signedOf 8 (bits oc 15 8)

/-- R55, R74: OUTCTL is well formed and its format is allowed. -/
def ocOk (oc : Nat) (allowed : Fmt → Bool) : Bool :=
  !bit oc 7 && (match Fmt.ofCode (ocFmt oc) with
    | none => false
    | some f => allowed f && (f ≠ .carry || ocShift oc = 0))

/-- R83: scale by 2^EXP_SHIFT and round once to OUT_FMT. -/
def outNum (oc : Nat) (f : Fmt) (x : Num) : Nat := f.encode (ocSat oc) (ocFtz oc) (x.scale (ocShift oc))

/-- R74: formats of MMA A and B and of CONV IN and WGT, without MX. -/
def inFmt : Fmt → Bool
  | .int8 | .uint8 | .int4 | .uint4 | .e4m3 | .e5m2 | .e2m1 | .bf16 | .fp16 => true
  | _ => false

/-- R74: formats of POOL OUT and VEC D. -/
def poolOut : Fmt → Bool
  | .int8 | .uint8 | .int4 | .uint4 | .int32 | .e4m3 | .e5m2 | .e2m1 | .bf16 | .fp16 | .fp32 => true
  | _ => false

/-- R74: formats of MMA C and CONV OUT. -/
def accOut (f : Fmt) : Bool := poolOut f || f = .carry

/-- R58: the rate class of a format: 0 4-bit, 1 8-bit, 2 16-bit. -/
def rateClass : Fmt → Nat
  | .int4 | .uint4 | .e2m1 | .mx4 => 0
  | .bf16 | .fp16 => 2
  | _ => 1

/-- R58: the limit of K. -/
def kLimit (rate : Nat) (sparse : Bool) : Nat := (match rate with | 0 => 512 | 1 => 256 | _ => 128) * (if sparse then 2 else 1)

/-! ### Elements in memory (R73) -/

/-- The element at bit address `b`, `w` bits wide. -/
def State.bitsAt (s : State) (b w : Nat) : Nat := s.readLe (b / 8) (ceilDiv (b % 8 + w) 8) / 2 ^ (b % 8) % 2 ^ w

/-- Element `i` of the row that starts at byte address `a`. -/
def State.elem (s : State) (f : Fmt) (a i : Nat) : Nat := s.bitsAt (8 * a + i * f.bits) f.bits

/-- Write `w` bits at bit address `b`; the other bits of the bytes touched stay (R73). -/
def State.putBits (s : State) (b w v : Nat) : State :=
  let n := ceilDiv (b % 8 + w) 8
  let old := s.readLe (b / 8) n
  s.writeMem (b / 8) (leBytes n (old - old / 2 ^ (b % 8) % 2 ^ w * 2 ^ (b % 8) + v % 2 ^ w * 2 ^ (b % 8)))

/-- Write a list of outputs. -/
def State.putOuts (s : State) (outs : List (Nat × Nat × Nat)) : State := s.each outs (fun u o => u.putBits o.1 o.2.1 o.2.2)

/-- The bytes that an output element folds into the signature (R236). -/
def sigElem (f : Fmt) (v : Nat) : List Byte := leBytes (if f.bits < 8 then 1 else f.bits / 8) v

/-! ### The value of an operand as FP32 (R85) -/

/-- An element read as FP32: exact, or rounded once. -/
def f32El (f : Fmt) (v : Nat) : F32 :=
  match f with
  | .carry => f32to (Lane.ofBits v).num
  | .fp32 => BitVec.ofNat 32 v
  | f => f32to (f.decode v)

/-- The exact number of an element that is not MX (R90). -/
def numEl (f : Fmt) (v : Nat) : Num :=
  match f with
  | .carry => (Lane.ofBits v).num
  | f => f.decode v

/-! ### Ranges and hazards (R48) -/

/-- Insert a range in a list of disjoint ranges sorted by start, joining those that touch. -/
def addRange : List (Nat × Nat) → Nat × Nat → List (Nat × Nat)
  | [], r => [r]
  | (a, n) :: t, (b, m) =>
    if m = 0 then (a, n) :: t
    else if b + m < a then (b, m) :: (a, n) :: t
    else if a + n < b then (a, n) :: addRange t (b, m)
    else
      let lo := min a b
      addRange t (lo, max (a + n) (b + m) - lo)

/-- The union of ranges, as disjoint ranges. -/
def unionRanges (l : List (Nat × Nat)) : List (Nat × Nat) := (l.filter (fun p => 0 < p.2)).foldl addRange []

def anyOverlap (x y : List (Nat × Nat)) : Bool := x.any (fun p => y.any (fun q => overlaps p.1 p.2 q.1 q.2))

/-- R48: a later descriptor with these reads and writes waits for one in flight. -/
def hazard (fl : List InFlight) (reads writes : List (Nat × Nat)) : Bool :=
  fl.any (fun f => anyOverlap reads f.writes || anyOverlap writes f.writes || anyOverlap writes f.reads)

/-! ### Vector registers (R39, R61) -/

/-- Element `i` of an operand held in vector registers from register `r` upward. -/
def SeatX.vreg (x : SeatX) (r i : Nat) : BitVec 32 := Table.get x.vregs 0#32 (r * 64 + i)
def SeatX.putVreg (x : SeatX) (r i : Nat) (v : BitVec 32) : SeatX := { x with vregs := Table.set x.vregs 0#32 (r * 64 + i) v }

/-! ### Operand references of MOVE (R54) -/

/-- An operand reference as physical start and limits for a Seat: LOCKER within the share, SLATE within the slice's Slate
share, DRAM within the slice's LPDDR5X range. `base` is the address of offset 0, `lo` to `hi` the range allowed. -/
structure Oref where
  base : Nat
  off : Nat
  lo : Nat
  hi : Nat
  isLocker : Bool
  deriving DecidableEq, Repr

/-- R54: bits not named are zero and SPACE is used. -/
def orefOk (w : Nat) : Bool :=
  match bits w 63 62 with
  | 0 => bits w 61 21 = 0
  | 1 => bits w 61 60 = 0 && bits w 55 25 = 0
  | 2 => bits w 61 36 = 0
  | _ => false

def State.oref (s : State) (g w : Nat) : Oref :=
  match bits w 63 62 with
  | 0 => let sh := s.shareOf g; ⟨sh.1, bits w 20 0, sh.1, sh.1 + sh.2, true⟩
  | 1 =>
    match s.seatSlice g with
    | some i => let h := s.slateShare i (bits w 59 56); ⟨h.1, bits w 24 0, h.1, h.2, false⟩
    | none => ⟨slateAddr (bits w 59 56) 0, bits w 24 0, 0, 0, false⟩
  | _ =>
    match s.seatSlice g with
    | some i => let h := s.dramShare i; ⟨h.1, bits w 35 0, h.1, h.2, false⟩
    | none => ⟨dramBase, bits w 35 0, 0, 0, false⟩

end Sys2Proof.Machine
end

