-- ==== Sys2Proof/Machine/Quota.lean ====
section
/-! DEFINITION. The transfers of the DMA engines as far as other accesses need them (02_tensor_core R54, R56; 14_slices R330): the elements of a
transfer, the checks of a burst, and the order in which strict slices are served. -/

namespace Sys2Proof.Machine

/-! ### MOVE fields -/

def mvCount0 (ws : List Nat) : Nat := fld ws 3 15 0 + 1
def mvCount1 (ws : List Nat) : Nat := fld ws 3 31 16 + 1
def mvCount2 (ws : List Nat) : Nat := fld ws 3 47 32 + 1
def mvSize (ws : List Nat) : Nat := 2 ^ fld ws 3 49 48
def mvTotal (ws : List Nat) : Nat := mvCount0 ws * mvCount1 ws * mvCount2 ws
/-- Row, plane and column of element `k`; rows are counted over all planes. -/
def mvRow (ws : List Nat) (k : Nat) : Nat := k / mvCount0 ws

/-- Offset of row `r` of planes of `c1` rows at signed strides. -/
def rowOff (c1 r stride1 stride2 : Nat) : Int :=
  ((r % c1 : Nat) : Int) * signedOf 32 stride1 + ((r / c1 : Nat) : Int) * signedOf 32 stride2

/-! ### Transfers -/

/-- A transfer as the DMA engine carries it out: element size, number of elements, and the address of each side of an element
with the limits it must lie in. A fill has no source. -/
structure Xfer where
  size : Nat
  total : Nat
  src : Option Oref
  dst : Oref
  srcOff : Nat → Int
  dstOff : Nat → Int
  fill : Nat

/-- Bytes per pixel and TARGET_STRIDE of a RAST descriptor in flight: words 8 and 9 (log entry 18). -/
def rastPixel (ws : List Nat) : Nat := wd ws 8
def rastStride (ws : List Nat) : Nat := wd ws 9

/-- The transfer of a descriptor in flight. -/
def State.xfer (s : State) (g : Nat) (f : InFlight) : Xfer :=
  let ws := f.words
  if dClass ws = 0 then
    let c0 := mvCount0 ws
    let z := mvSize ws
    { size := z, total := mvTotal ws
      src := if dOp ws = 2 then none else some (s.oref g (wd ws 1))
      dst := s.oref g (wd ws 2)
      srcOff := fun k =>
        (if dOp ws = 1 then ((f.rows.getD (mvRow ws k) 0 : Nat) : Int) * signedOf 32 (fld ws 4 31 0)
         else rowOff (mvCount1 ws) (mvRow ws k) (fld ws 4 31 0) (fld ws 4 63 32)) + ((k % c0 * z : Nat) : Int)
      dstOff := fun k => rowOff (mvCount1 ws) (mvRow ws k) (fld ws 5 31 0) (fld ws 5 63 32) + ((k % c0 * z : Nat) : Int)
      fill := wd ws 7 }
  else
    let tile := tref (wd ws 1)
    let px := rastPixel ws
    let locker : Oref := { s.oref g 0 with off := tile.base }
    let target := s.oref g (wd ws 6)
    let inTile := fun k => if k < 256 * px then ((4 * k : Nat) : Int) else ((tile.s2 + 4 * k - 1024 * px : Nat) : Int)
    let inSlot := fun (k : Nat) => ((4 * k : Nat) : Int)
    if dOp ws = 1 then
      let cols := wd ws 10
      { size := px, total := cols * wd ws 11, src := some locker, dst := target
        srcOff := fun k => (((k / cols * 32 + k % cols) * px : Nat) : Int)
        dstOff := fun k => ((k / cols * rastStride ws + k % cols * px : Nat) : Int)
        fill := 0 }
    else if dOp ws = 2 then
      { size := 4, total := 256 * px + 1024, src := some locker, dst := target, srcOff := inTile, dstOff := inSlot, fill := 0 }
    else
      { size := 4, total := 256 * px + 1024, src := some target, dst := locker, srcOff := inSlot, dstOff := inTile, fill := 0 }

/-- Physical address of an offset from an operand reference. -/
def Oref.addr (o : Oref) (k : Int) : Int := ((o.base + o.off : Nat) : Int) + k

/-- The element at an offset lies within the limits. -/
def Oref.holds (o : Oref) (k : Int) (n : Nat) : Bool := (o.lo : Int) ≤ o.addr k && o.addr k + n ≤ (o.hi : Int)

/-- What a burst's checks found. -/
inductive BurstCheck where
  | ok
  | waits
  | share (addr : Nat) (write : Bool) (reason : Nat)
  | err (v : Option Viol) (addr : Nat) (write : Bool)
  deriving DecidableEq, Repr

/-- R108: some range of physical memory lies in a row group under a march hold, so the access waits. -/
def State.anyHeld (s : State) (l : List (Nat × Nat)) : Bool :=
  l.any (fun r => s.marchWaits r.1 r.2)

/-- The step of R417 at which a check fails comes before RANGE. -/
def Verdict.early (x : Verdict) : Bool := match x with | .viol v => v.reason < 5 | _ => false

/-- R56, R417: the check of one side of one element: at the fabric first as far as RANGE, which the core itself checks. -/
def State.checkSide (s : State) (g : Nat) (o : Oref) (k : Int) (n : Nat) (write : Bool) : BurstCheck :=
  let a := (o.addr k).toNat
  let v := s.memCheck (s.ctx ⟨.seat, g, 0⟩) a n write
  if !o.holds k n && (o.isLocker || !v.early) then .share a write (if o.isLocker then 6 else 5)
  else if o.isLocker then (if s.anyHeld [(a, n)] || s.lateOver a n then .waits else .ok)
  else
    match v with
    | .ok => .ok
    | .waits => .waits
    | .err => .err none a write
    | .viol v => .err (some v) a write

/-- The check of both: a range failure first, since every address is checked before any access is made (R56), then an error response, then a
wait. -/
def BurstCheck.and (x y : BurstCheck) : BurstCheck :=
  match x, y with
  | .share a w r, _ => .share a w r
  | _, .share a w r => .share a w r
  | .err v a w, _ => .err v a w
  | _, .err v a w => .err v a w
  | .waits, _ => .waits
  | .ok, y => y

/-- R56: every address of elements `p` to below `p + n`, both sides. -/
def State.checkBurst (s : State) (g : Nat) (x : Xfer) (p n : Nat) : BurstCheck :=
  ((List.range n).map (fun i => p + i)).foldl (fun acc k =>
    acc.and ((match x.src with
      | some o => s.checkSide g o (x.srcOff k) x.size false
      | none => .ok).and (s.checkSide g x.dst (x.dstOff k) x.size true))) .ok

/-! ### Strict slices (R330) -/

/-- R330: what one side of a burst moves over LPDDR5X and over a die link. -/
def Oref.use (o : Oref) (g n : Nat) (write : Bool) : Nat × List (Nat × Nat) :=
  (dramBytes o.base n, linkBytes (kindDie .seat g) o.base n write)

/-- What a burst of `n` elements uses of the LPDDR5X and of the die links. -/
def Xfer.use (x : Xfer) (g n : Nat) : Nat × List (Nat × Nat) :=
  let d := x.dst.use g (n * x.size) true
  let r := match x.src with | some o => o.use g (n * x.size) false | none => (0, [])
  (d.1 + r.1, d.2 ++ r.2)

/-- The transfer of a Seat that its DMA engine has in hand. -/
def InFlight.dma (f : InFlight) : Bool := f.unit = 2 && (f.pos < f.total || f.squash)

/-- The elements of the next burst. -/
def Xfer.burstLen (x : Xfer) (f : InFlight) : Nat := min (4096 / x.size) (f.total - f.pos)

/-- What the next burst of strict Seat `g` uses of the resources that its slice still has quota of, where that burst could be made now (R330). -/
def State.strictUse (s : State) (g : Nat) (sx : SeatX) : Nat × List (Nat × Nat) :=
  match s.seatSlice g, sx.flight.find? InFlight.dma with
  | some i, some f =>
    let sl := s.slice i
    if !sl.strict || f.paused || f.squash then (0, [])
    else
      let x := s.xfer g f
      match s.checkBurst g x f.pos (x.burstLen f) with
      | .ok =>
        let u := x.use g (x.burstLen f)
        (if sl.dramLeft then u.1 else 0, u.2.filter (fun p => sl.linkLeft p.1))
      | _ => (0, [])
  | _, _ => (0, [])

/-- R330: an access that uses LPDDR5X and die links so waits while a strict slice with quota left has a request for one of them, where its own slice has
no quota left there. -/
def State.strictFirst (s : State) (own : Option Nat) (use : Nat × List (Nat × Nat)) : Bool :=
  let sl := match own with | some i => s.slice i | none => Slice.zero
  let dram := use.1 ≠ 0 && !sl.dramLeft
  let links := use.2.filter (fun p => p.2 ≠ 0 && !sl.linkLeft p.1)
  (dram || !links.isEmpty) && s.seats.any (fun p =>
    let u := s.strictUse p.1 p.2
    (dram && u.1 ≠ 0) || links.any (fun q => u.2.any (fun r => r.1 = q.1)))

end Sys2Proof.Machine
end

