-- ==== Sys2Proof/Machine/Words.lean ====
section
/-! DEFINITION. The words of the registers that the device derives from the rest of its state, and what the value that a read returns rests on
(00_scope R12): firmware states, queue registers and the cell pool, the service levels, the operating points, the bridges, the managed objects
and the FCU. -/

namespace Sys2Proof.Machine

/-! ### Firmware states (R306, MLMB_FW_STATE) -/

/-- State of CCCn: 0 BOOT, 1 RUNNING, 2 RESTARTING, 3 FAILED. -/
def State.cccState (s : State) (n : Nat) : Nat := bits (s.rd MLMB_FW_STATE.CCC) (2 * n + 1) (2 * n)
def State.setCcc (s : State) (n v : Nat) : State :=
  let w := s.rd MLMB_FW_STATE.CCC
  s.wr MLMB_FW_STATE.CCC (w - bits w (2 * n + 1) (2 * n) * 2 ^ (2 * n) + v % 4 * 2 ^ (2 * n))
def State.regRunning (s : State) : Bool := s.rd MLMB_FW_STATE.REGISTRAR = 1 && s.domainOn 10
def State.procRunning (s : State) : Bool := s.rd MLMB_FW_STATE.PROCTOR = 1 && s.domainOn 11
def State.pmcRunning (s : State) : Bool := s.rd MLMB_FW_STATE.PMC = 1 && s.domainOn 3
def State.scRunning (s : State) : Bool := s.rd SEC_STATE.SC_STATE = 1 && s.domainOn 5

/-! ### Queues (R352, R353) -/

/-- A Mladnel request or reply queue (R352): 64 entries of 32 bytes (R310). -/
def isMladnel (q : Nat) : Bool := 57344 ≤ q && q < 57480

def QRec.enabled (q : QRec) : Bool := bit q.c 15
def QRec.armed (q : QRec) : Bool := bit q.c 23
def QRec.hostTx (q : QRec) : Bool := bit q.c 3
def QRec.dropped (q : QRec) : Nat := bits q.c 63 48
/-- Entry size in bytes. -/
def QRec.entryBytes (q : QRec) (n : Nat) : Nat := if isMladnel n then 32 else 8 * 2 ^ bits q.c 14 13
/-- Number of entries of the ring. -/
def QRec.size (q : QRec) (n : Nat) : Nat := if isMladnel n then 64 else 2 ^ bits q.c 12 8

/-! ### Queue numbers (R352) -/

def isWorkQueue (q : Nat) : Bool := q < 32768
def isNetQueue (q : Nat) : Bool := 32768 ≤ q && q < 57344
def isHostQueue (q : Nat) : Bool := 33024 ≤ q && q < 57344
def ethQueue (p c : Nat) : Nat := 32768 + 8 * p + c
def canQueue (k j : Nat) : Nat := 32880 + 4 * k + j

/-! ### The cell pool (R359, R360) -/

/-- Ingress reserve of an Ethernet port, a CAN controller and the host port. -/
def mtuCells (mtu : Nat) : Nat := ceilDiv mtu 256
def canCells : Nat := 9
def hostCells : Nat := 36

/-- MIN_CELLS of the enabled network queues other than `q`. -/
def State.minSum (s : State) (q : Nat) : Nat :=
  ((s.queues.filter (fun p => isNetQueue p.1 && p.2.enabled && p.1 ≠ q)).map (fun p => p.2.minCells)).sum

/-- Ingress reserves of the enabled Ethernet ports other than `port`. -/
def State.portSum (s : State) (port : Nat) : Nat :=
  (((List.range 14).filter (fun p => p ≠ port && s.on (GW_PORT_CFG.ENABLE p))).map (fun p => mtuCells (s.rd (GW_PORT_CFG.MTU p)))).sum

/-- The host port holds its reserve while a host transmit queue is enabled (log entry 32). -/
def State.hostSum (s : State) (q : Nat) : Nat :=
  if s.queues.any (fun p => isHostQueue p.1 && p.2.enabled && p.2.hostTx && p.1 ≠ q) then hostCells else 0

/-- Cells set aside: every minimum and every ingress reserve, without queue `q` and Ethernet port `port`. -/
def State.reservedBut (s : State) (q port : Nat) : Nat :=
  s.minSum q + s.portSum port + canCells * s.gw.canOn.length + s.hostSum q

/-- The reservations of everything that is enabled. -/
def State.reserved (s : State) : Nat := s.reservedBut 65536 14

/-- Free cells of the shared remainder. -/
def State.sharedFree (s : State) : Nat :=
  65536 - s.reserved - ((s.gw.frames.filter (fun p => p.2.charged.isNone)).map (fun p => p.2.cells)).sum

/-- Free cells in total. -/
def State.poolFree (s : State) : Nat := 65536 - (s.gw.frames.map (fun p => p.2.cells)).sum

/-- QMGR_POOL as it reads. -/
def State.poolWord (s : State) : Nat := s.rd QMGR_POOL.LOW_CELLS * 2 ^ 49 + s.sharedFree * 2 ^ 32 + s.poolFree

/-- The registers of queue `n` as they read. -/
def QRec.ptrWord (q : QRec) : Nat := q.prod * 2 ^ 32 + q.cons
def State.qcellsWord (s : State) (n : Nat) : Nat :=
  if isNetQueue n then
    let q := s.queue n
    min q.used 65535 * 2 ^ 32 + q.maxCells * 2 ^ 16 + q.minCells
  else 0

/-- A read of QMGR_QCFG clears DROPPED. -/
def State.qcfgClear (s : State) (n : Nat) : State :=
  let q := s.queue n
  s.setQueue n { q with cfg := BitVec.ofNat 64 (q.c % 2 ^ 48) }

/-! ### Service level -/

/-- The clocks of the Hub link of die `d` run, without which its CCCs are not available (R21). -/
def State.hubClock (s : State) (d : Nat) : Bool := (linkDomains (d + 1)).all s.domainOn

/-- CDn_AVAIL (R27): the die is powered, with its clock, authenticated, and its CCCs run. -/
def State.cdAvail (s : State) (d : Nat) : Bool :=
  (s.die d).powered && s.unitOn d && s.hubClock d && !(s.die d).held && (List.range 8).all (fun i => s.cccState (8 * d + i) = 1)

def State.memAvail (s : State) : Bool := s.boot.dramTrained
/-- DISP_AVAIL: some display pipe runs: enabled, with its power and its clock (log entry 25). -/
def State.dispAvail (s : State) : Bool := (List.range 4).any (fun p => s.on (DISP_PIPE_CTRL.ENABLE p) && s.unitOn (7 + p))
/-- The clock domains of the minimal service set (R25, R389): the time unit, the PMC, the FCU, the Security Core, the Hub fabric, the peripheral bus
with LIN and xSPI, the Queue Manager, the gateway, and the Ethernet and CAN controllers. -/
def limpDomains : List Nat := [2, 3, 4, 5, 6, 7, 8, 16, 17, 18, 19, 20, 21]
/-- The minimal service set works (R25). -/
def State.limpUp (s : State) : Bool :=
  s.boot.gwDone && limpDomains.all s.domainOn && s.scRunning && s.pmcRunning && s.boot.fcuPassed && !s.on FCU_SUMMARY.SELFCHECK_FAIL
    && (List.range 3).all (fun k => !s.on (FCU_SRC_STATE.ASSERTING (k + 1)))

/-- LPDDR5X and the application processors with their cache have power and clocks. -/
def State.fullUnits (s : State) : Bool := s.unitOn 5 && s.unitOn 2 && s.unitOn 3 && s.unitOn 4 && s.domainOn 15

/-- LEVEL (R26): the highest level whose units all work; a unit that is gated or whose clock has stopped does not. -/
def State.level (s : State) : Nat :=
  if !s.limpUp then 0
  else if !(s.regRunning && s.procRunning && (s.cdAvail 0 || s.cdAvail 1) && s.unitOn 11 && s.unitOn 14) then 1
  else if s.cdAvail 0 && s.cdAvail 1 && s.memAvail && s.boot.apcOut && s.dispAvail && s.fullUnits then 3
  else 2

/-- AON_SERVICE as it reads (R27): LIMP_MS as stored, the rest from the units. -/
def State.serviceWord (s : State) : Nat :=
  s.rd AON_SERVICE.LIMP_MS * 2 ^ 16 + b2n s.pairAvail * 2 ^ 9 + b2n s.dispAvail * 2 ^ 8 + b2n s.memAvail * 2 ^ 7
    + b2n s.boot.apcOut * 2 ^ 6 + b2n (s.cdAvail 1) * 2 ^ 5 + b2n (s.cdAvail 0) * 2 ^ 4 + s.level

/-- What the device keeps of its service levels: LIMP_MS once LIMP is reached (R27), and which compute dies and whether the pair
have been available (R344). -/
def State.noteService (s : State) : State :=
  let s1 := if 1 ≤ s.level && !s.boot.limpNoted then
      let t := s.wr AON_SERVICE.LIMP_MS (min (s.clock.up / 1000000) 255)
      { t with boot := { t.boot with limpNoted := true } }
    else s
  { s1 with boot := { s1.boot with
      cdSeen := [0, 1].filter (fun d => s1.boot.cdSeen.contains d || s1.cdAvail d)
      pairSeen := s1.boot.pairSeen || s1.pairAvail } }

/-! ### Power -/

/-- CEIL of die `d` (R382): the least of OPP_MAX, the clamp and the governor's power and current limits; 0, its reset value, of a die without
power (log entry 89). -/
def State.ceil (s : State) (d : Nat) : Nat :=
  if s.on (PMC_OPP_CD.CLAMPED d) || !(s.die d).powered then 0 else min (s.rd (PMC_LIMIT_CD.OPP_MAX d)) (s.die d).govCeil

/-- PMC_OPP_CDn as it reads: STEPS, CLAMPED, TARGET and CUR as stored, the others from the die. -/
def State.oppWord (s : State) (d : Nat) : Nat :=
  s.reg64 (PMC_OPP_CD d) + b2n ((s.die d).dipHalt || (s.die d).heatHalt) * 2 ^ 15 + b2n (s.die d).moveBusy * 2 ^ 13
    + s.ceil d * 2 ^ 8

/-! ### Bridges -/

/-- R344: Die Bridge `b` is in a start-up test, or a CCC at either end restarts, or one of its links retrains. Each Die Bridge has both
compute dies at the ends of its links. -/
def State.dieMsgCase (s : State) (b : Nat) : Bool :=
  (List.range 16).any (fun n => s.cccState n = 2 || ((s.cluster n).march.startup && s.on (CLC_MARCH_STATUS.BUSY n)))
    || [0, 1, 2].any (fun l => !bit s.pwr.linksUp l && linkOfBridge l && linkDies l)
where
  /-- The link is one of the bridge's. -/
  linkOfBridge (l : Nat) : Bool := if b = 1 then l ≠ 0 else l = 0 || l = b - 1
  /-- The dies at both ends of the link are powered. -/
  linkDies (l : Nat) : Bool :=
    if l = 0 then (s.die 0).powered && (s.die 1).powered else (s.die (l - 1)).powered

/-- R344: a Die Bridge has left start-up: that of the Hub die with either compute die, that of a compute die with its own (log entry 31). -/
def State.dieStarted (s : State) (b : Nat) : Bool := if b = 1 then !s.boot.cdSeen.isEmpty else s.boot.cdSeen.contains (b - 2)

/-- R344: bridge `b` uses message mode. -/
def State.msgMode (s : State) (b : Nat) : Bool :=
  s.on (BRG_CTRL.FORCE_MSG b) ||
    (if b = 0 then !s.boot.limpNoted
     else if b = 4 then !s.boot.pairSeen || !s.pair.trained
     else !s.dieStarted b || s.dieMsgCase b)

/-- BRG_STATUS as it reads: the stored counts and LINK_UP, with TAGS_FREE and MSG_MODE from the bridge. -/
def State.brgStatusWord (s : State) (b : Nat) : Nat :=
  s.rd (BRG_STATUS.READ_TIMEOUTS b) * 2 ^ 48 + s.rd (BRG_STATUS.LOCK_TIMEOUTS b) * 2 ^ 32 + s.readTagsFree b * 2 ^ 16
    + b2n (s.msgMode b) * 2 + s.rd (BRG_STATUS.LINK_UP b)

/-- BRG_BARRIER as initiator `i` reads it. -/
def State.barrierWord (s : State) (b i : Nat) : Nat :=
  b2n ((s.bridge b).failed.contains i) * 2 ^ 63 + s.rd (BRG_BARRIER.ENTRIES b)

/-! ### Managed objects (R366) -/

/-- The managed object that GW_OBJ_SEL names (R366): a counter of a port (R401), or what was last written. -/
def State.objWord (s : State) : Nat :=
  match Table.find s.gw.mibObjs (s.reg64 GW_OBJ_SEL) with
  | some k => Table.get s.gw.mib 0 k
  | none => (Table.get s.gw.objects 0#64 (s.reg64 GW_OBJ_SEL)).toNat

/-! ### Fault collection -/

/-- R275: the initiators whose reads clear the RC fields of the FCU, and who may acknowledge and clear. -/
def Ctx.fcuParty (c : Ctx) : Bool := c.isFw 0 || c.isFw 3 || c.secure

/-- R275: the RC fields of an FCU register clear on a read by a party that may clear them. -/
def State.fcuReadClear (s : State) (c : Ctx) (f : RegFam) (i : Nat) : State :=
  if c.fcuParty then s.readClear (f.reg i 0) f.fields else s

/-! ### Reading a register -/

/-- The value that a party reads from a register (R12): the word stored, with the fields that the device derives. -/
def State.regWord (s : State) (c : Ctx) (f : RegFam) (i j : Nat) : Nat :=
  match f with
  | .aon_service => s.serviceWord
  | .fcu_summary => s.summaryWord
  | .time_now => s.clock.now % 2 ^ 64
  | .time_tick_us => s.clock.now / 1000 % 2 ^ 32
  | .qmgr_sel => s.ctxSelected c
  | .qmgr_qbase => (s.queue (s.ctxSelected c)).base
  | .qmgr_qcfg => (s.queue (s.ctxSelected c)).c
  | .qmgr_qptr => (s.queue (s.ctxSelected c)).ptrWord
  | .qmgr_qcells => s.qcellsWord (s.ctxSelected c)
  | .qmgr_pool => s.poolWord
  | .pmc_opp_cd => s.oppWord i
  | .brg_status => s.brgStatusWord i
  | .brg_barrier => s.barrierWord i c.id
  | .brg_pel_status => s.rd (BRG_PEL_STATUS.OVERFLOW i) * 2 ^ 48
  | .gw_obj_value => s.objWord
  | _ => readMask f.fields (f.reg i j) (s.reg64 (f.reg i j))

/-- The effect of a read on read-to-clear fields (R12); of the FCU's, only for a party that may clear them (R275). -/
def State.regTaken (s : State) (c : Ctx) (f : RegFam) (i j : Nat) : State :=
  match f with
  | .fcu_summary | .fcu_log_ptr | .fcu_src_state => s.fcuReadClear c f i
  | .qmgr_qcfg => s.qcfgClear (s.ctxSelected c)
  | _ => s.readClear (f.reg i j) f.fields

/-- A word of a block whose registers the spec does not list: the PCIe controllers, and the application processor complex but for APC_LLC_PART. -/
def unlisted (a : Nat) : Bool :=
  decide (0x0F200000 ≤ a ∧ a < 0x0F210000) || (decide (0x0F100000 ≤ a ∧ a < 0x0F110000) && a / 8 * 8 ≠ 0x0F108000)

end Sys2Proof.Machine
end

