-- ==== Sys2Proof/Machine/DevAccess.lean ====
section
/-! DEFINITION. The accesses that the device makes itself (01_device_architecture R32, R33; 11_fault_collection R417; 14_slices R328, R330;
15_bridges_pair_link R337-R346; 16_gateway_time R353, R356, R418): queue entries, payloads, plans, planes and records. -/

namespace Sys2Proof.Machine

/-- The context of an access that the device makes for slice `i` or, where no slice owns what it serves, for the firmware processors (R353, R312):
an access of no slice (R328); it is logged with initiator `id`. -/
def devCtx (slice : Option Nat) (id : Nat) : Ctx :=
  match slice with
  | some i => ⟨id, some i, false, .hubUnit, id % 4096, i + 1⟩
  | none => ⟨id, none, false, .fw, 4, 0⟩

/-- Bytes that a device outside the model returns (R33, R336): free. -/
def State.outsideBytes (s : State) (n : Nat) : State × List Byte :=
  let d := s.draw
  (d.2, (List.range n).map (Config.outsideByte d.1))

/-- A word that an unlisted device register holds: free (log entry 12). -/
def State.freeWord (s : State) : State × Nat := let d := s.draw; (d.2, (Config.freeWord d.1).toNat)

/-- The device reads a register at its full width, or where no register lies (R12, R16): the word, and the effect of the read. -/
def State.ctxRegRead (s : State) (c : Ctx) (a n : Nat) : State × List Byte :=
  match regOver a with
  | none => if unlisted a then (s.freeWord.1, leBytes n s.freeWord.2) else (s, leBytes n 0)
  | some (f, i, j) => (s.regTaken c f i j, leBytes n (s.regWord c f i j))

/-- R219: a write to DISP_RAST_CTRL by a party other than the Registrar may not change SLICE. -/
def State.rastCtrlRights (s : State) (c : Ctx) (v : Nat) : Bool := c.isFw 2 || bits v 13 8 = s.rd DISP_RAST_CTRL.SLICE

/-- A write of `v` at `a` would change that SLICE without the right to. -/
def State.rastShut (s : State) (c : Ctx) (a v : Nat) : Bool :=
  match regOver a with
  | some (f, _, _) => f = .disp_rast_ctrl && !s.rastCtrlRights c v
  | none => false

/-- The checks of an access of the device (R417), which waits besides while a strict slice comes first (R330). -/
def State.ctxCheck (s : State) (c : Ctx) (a n : Nat) (write : Bool) : Verdict :=
  match s.memCheck c a n write with
  | .ok => if s.strictFirst c.slice (dramBytes a n, linkBytes c.die a n write) then .waits else .ok
  | v => v

/-- Whether an access of the device must wait (R108, R291, R330, R341, R377): nothing of it has happened yet. -/
def State.ctxWaits (s : State) (c : Ctx) (a n : Nat) (write : Bool) : Bool := s.ctxCheck c a n write = .waits

/-- The check of an access to bin memory, in the Slate of TC0 (R222): it is no slice's memory, so that it meets no range check, but it crosses the dies,
waits and counts as any access does (R19, R108, R330, R337, R341). -/
def State.binCheck (s : State) (c : Ctx) (a n : Nat) (write : Bool) : Verdict :=
  if !s.arrives c.kind c.index a || !s.memUp 0 then .err
  else if s.marchWaits a n || s.lockWaits c.id a n || s.lateOver a n || (!write && !s.tagsFor c.die a)
      || s.strictFirst c.slice (0, linkBytes c.die a n write) then .waits
  else .ok

/-- The quota that an access of the device uses (R330). -/
def State.ctxUse (s : State) (c : Ctx) (a n : Nat) (write : Bool) : State := s.useQuota c.slice (dramBytes a n) (linkBytes c.die a n write)

/-- The read of `n` bytes that the checks have answered with `v`: the bytes, or an error response (`none`). What lies behind the Peripheral or the
Pair Bridge is free. A command that has begun ends, so that a later read of it is not put off (log entry 64). -/
def State.getNow (s : State) (c : Ctx) (a n : Nat) (v : Verdict) : State × Option (List Byte) :=
  match v with
  | .viol v => (s.logViol (c.viol v) c a false, none)
  | .err => (s, none)
  | .ok | .waits =>
    match placeOf s.pins.fittedMiB a with
    | .rom => (s, some ((List.range n).map (fun i => Config.romByte (a + i))))
    | .periph => let p := s.outsideBytes n; (p.1, some p.2)
    | .pairWin off =>
      if s.pairCarries ((s.outTarget off n).getD 0) then let p := s.outsideBytes n; (p.1, some p.2) else (s, none)
    | .regs => let p := s.ctxRegRead c a n; (p.1, some p.2)
    | _ =>
      let p := s.eccRead a n
      if p.2 then (p.1, some (p.1.readMem a n)) else (p.1, none)

/-- Read `n` bytes through the checks as context `c`: the bytes, or an error response (`none`). A command asks `ctxWaits` first and waits itself
(log entry 64). -/
def State.ctxRead (s : State) (c : Ctx) (a n : Nat) : State × Option (List Byte) :=
  let v := s.ctxCheck c a n false
  ((if v = .ok || v = .waits then s.ctxUse c a n false else s).getNow c a n v)

/-- A write of the device that has passed its checks, but for one of a register: whether it was made. REASON 8 of the Posted Error Log is ECC. -/
def State.putNow (s : State) (c : Ctx) (a : Nat) (bs : List Byte) : State × Bool :=
  match placeOf s.pins.fittedMiB a with
  | .periph => ((s.countCross c.die a).postWrite 0 c a a bs 0, true)
  | .pairWin off =>
    let target := (s.outTarget off bs.length).getD 0
    if s.pairCarries target then ((s.countCross c.die a).postWrite 4 c a target bs 0, true)
    else if s.boot.strapEn && !s.pair.trained then
      (((s.countCross c.die a).countPosted 4).postedFailed 4 c.id a (s.bridge 4).sent 9, true)
    else (s, false)
  | _ =>
    let p := (s.ctxUse c a bs.length true).eccWrite a bs.length
    if p.2 then ((p.1.countCross c.die a).writeMem a bs, true) else (p.1.crossFailed c a bs 8, false)

/-- A write of the device waits for its target, behind those that wait already (log entry 64). -/
def State.putOff (s : State) (l : LateWrite) : State := { s with ecc := { s.ecc with late := s.ecc.late ++ [l] } }

/-- A write of the device that a check refuses: the violation is logged, and one that crosses dies comes back as a write-error message besides. -/
def State.putRefused (s : State) (c : Ctx) (v : Viol) (a : Nat) (bs : List Byte) : State :=
  (s.logViol (c.viol v) c a true).crossFailed c a bs v.reason

/-- Write bytes through the checks as context `c`: whether the write is made. One that must wait, and every write of a register, is put off and made
when nothing keeps it waiting (log entry 64). -/
def State.ctxWrite (s : State) (c : Ctx) (a : Nat) (bs : List Byte) : State × Bool :=
  match s.ctxCheck c a bs.length true with
  | .viol v => (s.putRefused c v a bs, false)
  | .err => (s.crossFailed c a bs 0, false)
  | .waits => (s.putOff ⟨c, a, bs, none⟩, true)
  | .ok =>
    match placeOf s.pins.fittedMiB a with
    | .regs =>
      if s.rastShut c a (leNat bs) then (s.putRefused c (hubViol 3) a bs, false) else (s.putOff ⟨c, a, bs, none⟩, true)
    | _ => s.putNow c a bs

end Sys2Proof.Machine
end

