-- ==== Sys2Proof/Machine/Queues.lean ====
section
/-! DEFINITION. Queues (16_gateway_time R352-R358, R418): counts, entries, the device's own reads and writes of entries, and
Mladnel replies and events (13_firmware_mladnel R311, R314, R321). -/

namespace Sys2Proof.Machine

/-- (PROD - CONS) mod 2^32 (R353). -/
def QRec.occupancy (q : QRec) : Nat := (q.prod + 2 ^ 32 - q.cons % 2 ^ 32) % 2 ^ 32
/-- Address of entry `i` of the ring. -/
def QRec.entryAddr (q : QRec) (n i : Nat) : Nat := q.base + i % q.size n * q.entryBytes n

/-- DROPPED of a queue increases, saturating. -/
def State.qDrop (s : State) (n : Nat) : State :=
  let q := s.queue n
  s.setQueue n { q with cfg := BitVec.ofNat 64 (q.c - q.dropped * 2 ^ 48 + min (q.dropped + 1) 65535 * 2 ^ 48) }

/-- The Queue Manager works: its clock domain and the Hub fabric run (R21). -/
def State.qmgrUp (s : State) : Bool := s.domainOn 16 && s.domainOn 6

/-- R357: an armed queue sends one interrupt to VECTOR and is disarmed. -/
def State.qIrq (s : State) (n : Nat) : State :=
  let q := s.queue n
  if q.armed then
    { s.setQueue n { q with cfg := BitVec.ofNat 64 (clearBit q.c 23) } with irqOut := (n, bits q.c 35 24) :: s.irqOut }
  else s

/-- R357: the device has advanced PROD. -/
def State.qAdvance (s : State) (n : Nat) : State :=
  let q := s.queue n
  (s.setQueue n { q with prod := (q.prod + 1) % 2 ^ 32 }).qIrq n

/-- The context of the device's own accesses to a queue (R353, R418): its owning slice, or the firmware processors. -/
def QRec.devCtx (q : QRec) : Ctx := Machine.devCtx q.owner 0x5005

/-- The entries of queue `n` that the device has still to write. -/
def State.qLate (s : State) (n : Nat) : Nat := (s.ecc.late.filter (fun l => l.queue = some n)).length

/-- The ring of queue `n` has no room for one more entry of the device. -/
def State.qFull (s : State) (n : Nat) : Bool := (s.queue n).size n ≤ (s.queue n).occupancy + s.qLate n

/-- The device writes one entry and advances PROD (R356). A refused write drops the entry (R418); one that must wait, or that follows one that
waits, is written later, and PROD advances then (log entry 64). -/
def State.qWrite (s : State) (n : Nat) (bs : List Byte) : State :=
  let q := s.queue n
  let a := q.entryAddr n q.prod
  if s.qLate n ≠ 0 || s.ctxWaits q.devCtx a bs.length true then s.putOff ⟨q.devCtx, a, bs, some n⟩
  else
    let p := s.ctxWrite q.devCtx a bs
    if p.2 then p.1.qAdvance n else p.1.qDrop n

/-- A write that was put off is made once nothing keeps it waiting, and stays where something does; one of a register stays until the block next
idles. What a check refuses then is dropped (R418, log entry 64). -/
def State.land (s : State) (l : LateWrite) : State :=
  match l.queue with
  | some n =>
    if !s.qmgrUp || s.qLate n ≠ 0 then s.putOff l
    else if !(s.queue n).enabled && !isMladnel n then s.qDrop n
    else s.qWrite n l.bytes
  | none =>
    match s.ctxCheck l.ctx l.addr l.bytes.length true with
    | .waits => s.putOff l
    | .viol v => s.putRefused l.ctx v l.addr l.bytes
    | .err => s.crossFailed l.ctx l.addr l.bytes 0
    | .ok =>
      match placeOf s.pins.fittedMiB l.addr with
      | .regs => s.putOff l
      | _ => (s.putNow l.ctx l.addr l.bytes).1

/-- The writes that were put off are tried again, oldest first. -/
def State.settle (s : State) : State := s.ecc.late.foldl State.land { s with ecc := { s.ecc with late := [] } }

/-- R358: a queue takes the device's entries of `size` bytes: enabled, of that entry size, and not a Mladnel queue. -/
def State.qFits (s : State) (n size : Nat) : Bool :=
  (s.queue n).enabled && (s.queue n).entryBytes n = size && !isMladnel n

/-- R358: write a notice or a verdict, or drop it where the queue is full or does not fit. -/
def State.qNotice (s : State) (n : Nat) (bs : List Byte) : State :=
  if s.qFits n bs.length && !s.qFull n && s.qmgrUp then s.qWrite n bs else s.qDrop n

/-- R356: the device reads the entry at CONS, `none` where R418 refuses it. -/
def State.qRead (s : State) (n i : Nat) : State × Option (List Byte) :=
  let q := s.queue n
  s.ctxRead q.devCtx (q.entryAddr n i) (q.entryBytes n)

/-- The read of the entry must wait for its memory. -/
def State.qReadWaits (s : State) (n i : Nat) : Bool :=
  let q := s.queue n
  s.ctxWaits q.devCtx (q.entryAddr n i) (q.entryBytes n) false

/-- The device has consumed an entry. -/
def State.qConsume (s : State) (n : Nat) : State :=
  let q := s.queue n
  s.setQueue n { q with cons := (q.cons + 1) % 2 ^ 32 }

/-! ### Mladnel messages (R310, R311) -/

def reqQueue (i : Nat) : Nat := 57344 + 2 * i
def repQueue (i : Nat) : Nat := 57344 + 2 * i + 1

/-! Fields of a header (R311). -/
def hOp (h : List Byte) : Nat := leAt h 0 2
def hFlags (h : List Byte) : Nat := leAt h 2 1
def hSlice (h : List Byte) : Nat := leAt h 3 1
def hSeq (h : List Byte) : Nat := leAt h 4 2
def hStatus (h : List Byte) : Nat := leAt h 6 2
def hTag (h : List Byte) : Nat := leAt h 8 4
def hLen (h : List Byte) : Nat := leAt h 0x0C 2
def hReplyLen (h : List Byte) : Nat := leAt h 0x0E 2
def hAddr (h : List Byte) : Nat := leAt h 0x10 8
def hArg (h : List Byte) : Nat := leAt h 0x18 8

/-! Status codes (R315). -/
def msOk : Nat := 0
def msBusy : Nat := 1
def msBadarg : Nat := 2
def msNofit : Nat := 3
def msShape : Nat := 4
def msDenied : Nat := 5
def msDeniedHold : Nat := 6
def msAlreadyDone : Nat := 7
def msAborted : Nat := 8
def msRestarting : Nat := 9
def msVersion : Nat := 10
def msTimeout : Nat := 11
def msFault : Nat := 12

/-- The reply header to request header `h` (R311): REPLY set, STATUS, REPLY_LEN and ARG filled in, SEQ and TAG returned. -/
def replyHeader (h : List Byte) (status len arg : Nat) : List Byte :=
  leBytes 2 (hOp h) ++ leBytes 1 (hFlags h % 8 / 4 * 4 + 1) ++ leBytes 1 (hSlice h) ++ leBytes 2 (hSeq h) ++ leBytes 2 status
    ++ leBytes 4 (hTag h) ++ leBytes 2 (hLen h) ++ leBytes 2 len ++ leBytes 8 (hAddr h) ++ leBytes 8 arg

/-- An event header (R321). -/
def eventHeader (op slice seq arg : Nat) : List Byte :=
  leBytes 2 op ++ leBytes 1 2 ++ leBytes 1 slice ++ leBytes 2 seq ++ leBytes 2 0 ++ leBytes 4 0 ++ leBytes 2 0
    ++ leBytes 2 0 ++ leBytes 8 0 ++ leBytes 8 arg

/-- The reply queue of mailbox `i` takes an entry now: nothing is held before it, it has room, and the Queue Manager works (R21). -/
def State.repRoom (s : State) (i : Nat) : Bool :=
  (s.mb i).held.isEmpty && !s.qFull (repQueue i) && s.qmgrUp

/-- R314: a reply enters the reply queue, or is held while it is full. -/
def State.sendReply (s : State) (i : Nat) (header : List Byte) : State :=
  let m := s.mb i
  if s.repRoom i then s.qWrite (repQueue i) header
  else s.setMb i { m with held := m.held ++ [header] }

/-- R332: the mailbox loses its negotiation once the reply of a DETACH stands in its queue. -/
def State.endNegotiation (s : State) (i : Nat) : State :=
  if (s.mb i).held.isEmpty then (s.setMb i { s.mb i with negEnds := false }).wr (MLMB_MB_STATUS.NEGOTIATED i) 0
  else s.setMb i { s.mb i with negEnds := true }

/-- R314: replies held for room enter in order while there is room. -/
def State.flushReplies (s : State) (i : Nat) : Nat → State
  | 0 => s
  | n + 1 =>
    match (s.mb i).held with
    | [] => s
    | h :: t =>
      if s.qFull (repQueue i) || !s.qmgrUp then s
      else
        let s1 := (s.setMb i { s.mb i with held := t }).qWrite (repQueue i) h
        State.flushReplies (s1.when (s1.mb i).negEnds (fun u => u.endNegotiation i)) i n

/-- R321: one event to mailbox `i`: written, or dropped and counted while the reply queue is full; every event advances
the event counter. -/
def State.sendEvent (s : State) (i op arg : Nat) : State :=
  if bit (s.rd (MLMB_MB_FEATURES.FEATURES i)) 9 && s.on (MLMB_MB_STATUS.NEGOTIATED i) then
    let m := s.mb i
    let s1 := s.setMb i { m with evSeq := (m.evSeq + 1) % 65536 }
    if s.repRoom i then
      s1.qWrite (repQueue i) (eventHeader op (if i < 64 then i else 0) m.evSeq arg)
    else
      let m1 := s1.mb i
      (s1.setMb i { m1 with lost := m1.lost + 1, lostPending := true }).satAdd (MLMB_MB_STATUS.EVENTS_DROPPED i) 1
  else s

/-- R321: RESTART_NOTICE to every mailbox. -/
def State.restartNotice (s : State) (proc cause : Nat) (completed failed : Bool) : State :=
  s.each (List.range 68) (fun t i =>
    t.sendEvent i 0x8001 (proc + cause * 2 ^ 8 + b2n completed * 2 ^ 16 + b2n failed * 2 ^ 17))

end Sys2Proof.Machine
end

