-- ==== Sys2Proof/Machine/Jobs.lean ====
section
/-! DEFINITION. Jobs and Seats together: issue order and arbitration, seating, stopping, halting, the end of a job
(02_tensor_core R41-R70; 07_scheduling R160-R184). The commands' meanings call these. -/

namespace Sys2Proof.Machine

/-! ### Lessons as placed -/

/-- Seats of a stage of a replica, in stage order. -/
def Lesson.stageSeats (l : Lesson) (replica stage : Nat) : List Nat :=
  match l.places.find? (fun p => p.replica = replica && p.stage = stage) with
  | some p => p.seats
  | none => []

/-- Every Seat of the Lesson, with its replica. -/
def Lesson.allSeats (l : Lesson) : List (Nat × Nat) := l.places.flatMap (fun p => p.seats.map (fun g => (g, p.replica)))

def Lesson.clusters (l : Lesson) : List Nat := l.places.map (·.cluster)

/-- Number of Seat groups (R166). -/
def Lesson.groups (l : Lesson) : Nat := if imIndependent l.image then stSeats l.image 0 else stSeatsPerCore l.image 0

/-- Elements of a list with their positions. -/
def indexed {α : Type} : Nat → List α → List (Nat × α)
  | _, [] => []
  | n, x :: t => (n, x) :: indexed (n + 1) t

/-- The Seats of group `i` with their replicas, replica 0 first, stages ascending, stage Seats ascending (R166, R237). -/
def Lesson.groupSeats (l : Lesson) (i : Nat) : List (Nat × Nat) :=
  l.places.flatMap (fun p => (indexed 0 p.seats).filterMap (fun q =>
    if (if imIndependent l.image then q.1 else q.1 % max (stSeatsPerCore l.image p.stage) 1) = i then some (q.2, p.replica)
    else none))

/-- A Seat is free: IDLE, held by no job (R166), and nothing of an earlier one is still in flight (R175, R242). -/
def State.seatFree (s : State) (g : Nat) : Bool := s.seatState g = 1 && (s.seat g).job.isNone && (s.seat g).flight.isEmpty

/-- The cluster of a Seat can take work: its CCC runs and neither the cluster nor the core is withdrawn (R112, R324). -/
def State.placeUp (s : State) (g : Nat) : Bool :=
  s.cccState (clusterOf g) = 1 && s.hubClock (dieOf (clusterOf g)) && !(s.cluster (clusterOf g)).withdrawn && !(s.core (coreOf g)).withdrawn

/-- Seats of a group that can be seated now, if the group is free. -/
def State.groupFree (s : State) (l : Lesson) (i : Nat) : Option (List (Nat × Nat)) :=
  let g := l.groupSeats i
  if !g.isEmpty && g.all (fun p => s.seatFree p.1 && s.placeUp p.1) then some g else none

/-- R168: the lowest free Seat of a replica of an independent Lesson. -/
def State.freeOf (s : State) (l : Lesson) (replica : Nat) : Option Nat :=
  (l.stageSeats replica 0).find? (fun g => s.seatFree g && s.placeUp g)

/-- R168, R169: the group that a job takes: its home group, or the first free one. -/
def State.pickGroup (s : State) (l : Lesson) (home : Option Nat) : Option (Option Nat × List (Nat × Nat)) :=
  match home with
  | some i => (s.groupFree l i).map (fun g => (some i, g))
  | none =>
    if imIndependent l.image then
      match s.freeOf l 0 with
      | none => none
      | some g0 =>
        if imSafety l.image then (s.freeOf l 1).map (fun g1 => (none, [(g0, 0), (g1, 1)]))
        else some (none, [(g0, 0)])
    else
      ((List.range l.groups).findSome? (fun i => (s.groupFree l i).map (fun g => (some i, g))))

/-! ### Issue order (R172) -/

def Job.deadlineEn (j : Job) : Bool := bit j.flags 0
def Job.abortAtDeadline (j : Job) : Bool := bit j.flags 1
def Job.noFallback (j : Job) : Bool := bit j.flags 2

/-- The rank of a Seat under R172 as one number, the lower the higher it ranks; `none` without work. -/
def State.seatKey (s : State) (g : Nat) : Option Nat :=
  match (s.seat g).job with
  | none => none
  | some r =>
    if r.quiz then some (1 * 2 ^ 192)
    else
      match s.job? r.ref with
      | none => none
      | some j =>
        let rank := match j.cls with
          | 0 => 0
          | 1 => if j.deadlineEn && s.clock.now < j.arm then 4 else 2
          | c => c + 1
        let dl := if j.deadlineEn then j.deadline else 2 ^ 64
        some (rank * 2 ^ 192 + b2n (!j.boosted) * 2 ^ 160 + dl * 2 ^ 80 + j.intake)

/-- A Seat runs SAFETY work or a Quiz run (R187, R247). -/
def State.seatSafe (s : State) (g : Nat) : Bool :=
  match (s.seat g).job with
  | none => false
  | some r => r.quiz || (match s.job? r.ref with | some j => j.cls = 0 | none => false)

/-- The cluster lies in an open window, or in one for which other Seats have been parked (R187). -/
def State.inWindow (s : State) (cluster : Nat) : Bool := s.reg.windows.any (fun w => (w.isOpen || w.soon) && bit w.mask cluster)

/-- Issue on the core's die is halted, or the die has no clock (R292, R376, R384). -/
def State.dieHalted (s : State) (cluster : Nat) : Bool :=
  (s.die (dieOf cluster)).dipHalt || (s.die (dieOf cluster)).heatHalt || !(s.die (dieOf cluster)).powered
    || !s.unitOn (dieOf cluster)

/-- A Seat may be given the issue path. -/
def State.eligible (s : State) (g : Nat) : Bool :=
  (s.seatState g = 2 || s.seatState g = 5) && s.placeUp g && !(s.core (coreOf g)).drill
    && (!s.inWindow (clusterOf g) || s.seatSafe g)

/-- The eligible Seat of core `m` that ranks highest, the lower Seat number on a tie. -/
def State.bestSeat (s : State) (m : Nat) : Option (Nat × Nat) :=
  (List.range 8).foldl (fun acc k =>
    let g := 8 * m + k
    if s.eligible g then
      match s.seatKey g with
      | none => acc
      | some key =>
        match acc with
        | none => some (g, key)
        | some (_, b) => if key < b then some (g, key) else acc
    else acc) none

/-- The ISSUING Seat of a core (R41). -/
def State.issuingSeat (s : State) (m : Nat) : Option Nat :=
  (List.range 8).findSome? (fun k => if s.seatState (8 * m + k) = 3 then some (8 * m + k) else none)

/-- R172, R173: the issue path of core `m` goes to Seat `g` of rank `key`, the highest-ranked: at once where it is unused, and away from the
ISSUING Seat only where `g` outranks it. -/
def State.direct (s : State) (m g key : Nat) : State :=
  match s.issuingSeat m with
  | none => s.setCore m { s.core m with incoming := some g, outgoing := none }
  | some k =>
    match s.seatKey k with
    | some b => if key < b then s.setCore m { s.core m with incoming := some g, outgoing := some k } else s
    | none => s.setCore m { s.core m with incoming := some g, outgoing := some k }

/-- R172, R173: the CCC directs the issue path of core `m` to the highest-ranked Seat. An incoming Seat that may no longer issue is dropped (R187). The switch ends at
SEAT_SWITCH_END. -/
def State.arbitrate (s : State) (m : Nat) : State :=
  match s.bestSeat m with
  | none =>
    match (s.core m).incoming with
    | some k => if s.eligible k then s else s.setCore m { s.core m with incoming := none, outgoing := none }
    | none => s
  | some (g, key) =>
    let c := s.core m
    match c.incoming with
    | some k =>
      if s.eligible k then
        match s.seatKey k with
        | some b => if key < b then s.setCore m { c with incoming := some g } else s
        | none => s.setCore m { c with incoming := some g }
      else (s.setCore m { c with incoming := none, outgoing := none }).direct m g key
    | none => s.direct m g key

/-! ### Stopping Seats (R175) -/

/-- Descriptors of a stopped Seat: transfer and post-processing work is squashed at its next boundary; work of the issue
path drains. -/
def squashAll (fl : List InFlight) : List InFlight := fl.map (fun f => { f with squash := true })

/-- R175: a Seat of an ended job returns to IDLE. -/
def State.stopSeat (s : State) (g : Nat) : State :=
  let x := s.seat g
  let s1 := s.setSeat g { x with job := none, wait := none, ended := false, lastC := none, issued := false,
                                 flight := squashAll x.flight }
  let s2 := if s.seatState g = 0 then s1 else s1.setSeatState g 1
  s2.arbitrate (coreOf g)

/-- R376: as `stopSeat`, but the partial descriptors are discarded and transfer work squashed at once. -/
def State.dropSeat (s : State) (g : Nat) : State :=
  let s1 := s.setSeat g { s.seat g with flight := [] }
  s1.stopSeat g

/-! ### The end of a job (R174, R181) -/

/-- The runs of a job that still go: the Seats of the original unless it was stopped, and of its fallback. -/
def Job.liveSeats (j : Job) : List (Nat × Nat) :=
  (if j.origStopped then [] else j.seats) ++ (match j.fb with | some f => f.seats | none => [])

/-- R237: the signature over the S values of the Seats of one replica. -/
def State.jobSig (s : State) (seats : List (Nat × Nat)) (replica : Nat) : Nat :=
  crc64 0 ((seats.filter (fun p => p.2 = replica)).flatMap (fun p => leBytes 8 (s.seat p.1).sig.toNat))

/-- The state of a job that has ended (R165). -/
def Job.hasEnded (j : Job) : Bool := 5 ≤ j.state

/-- End a job ABORTED (6) or FAILED (7) with a status (R174): its Seats stop (R175), except `keep`, a Seat that halted and
stays HALTED until the completion is written (log entry 15). -/
def State.endJob (s : State) (t st status : Nat) (keep : Option Nat) : State :=
  match s.job? t with
  | none => s
  | some j =>
    if j.hasEnded || j.state = 4 then s
    else
      let seats := j.liveSeats.map (·.1)
      let sig := s.jobSig (if j.usedFallback then (match j.fb with | some f => f.seats | none => j.seats) else j.seats) 0
      let s1 := s.setJob t { j with state := st, status := status, endTime := s.clock.now, sigOut := BitVec.ofNat 64 sig,
                                    late := j.late || (j.deadlineEn && j.deadline < s.clock.now) }
      s1.each seats (fun u g => if some g = keep then u else u.stopSeat g)

/-- R174: an event that strikes the original (`onFb` false) or the fallback run of a job. While both run it stops that one
under R175, every Seat of it to IDLE, and leaves the state word unchanged; an event that strikes the only run that has Seats ends the job. -/
def State.strike (s : State) (t : Nat) (onFb : Bool) (st status : Nat) (keep : Option Nat) : State :=
  match s.job? t with
  | none => s
  | some j =>
    match j.fb, onFb, j.origStopped with
    | some f, true, false =>
      if j.seats.isEmpty then s.endJob t st status keep
      else (s.setJob t { j with fb := none }).each (f.seats.map (·.1)) State.stopSeat
    | some _, false, false => (s.setJob t { j with origStopped := true }).each (j.seats.map (·.1)) State.stopSeat
    | _, _, _ => s.endJob t st status keep

/-- R50: a Seat halts with an error; its job fails with MS_TIMEOUT for SYNC_TIMEOUT and MS_FAULT otherwise (R174). The fault
source of the error is raised, but for the sources that the failing access raised itself. -/
def State.haltSeat (s : State) (g err : Nat) : State :=
  let x := s.seat g
  let s1 := s.setSeat g { x with flight := squashAll x.flight, wait := none, lastC := none }
  let s2 := (s1.setSeatState g 6).wr (CLC_SEAT_STATE.LAST_ERR (g / 64) (g % 64)) err
  let s3 := if err = 1 then s2.raise (srcCluster (clusterOf g) 0)
    else if err = 6 then s2.raise (srcCluster (clusterOf g) 2) else s2
  let s4 := match x.job with
    | some r => if r.quiz then s3 else s3.strike r.ref r.fallback 7 (if err = 3 then msTimeout else msFault) (some g)
    | none => s3
  s4.arbitrate (coreOf g)

/-- R50, R279: a Seat's access outside its share or its slice's ranges: logged in the core's pair, and the Seat halts with
SHARE_VIOL. `reason` is 6 SHARE or 5 RANGE. -/
def State.shareViol (s : State) (g addr : Nat) (write : Bool) (reason : Nat) : State :=
  let w : Initiator := ⟨.seat, g, 0⟩
  let m : Fin 128 := ⟨coreOf g % 128, Nat.mod_lt _ (by decide)⟩
  let s1 := s.logViol ⟨.core m, reason, srcCluster (clusterOf g) 1⟩ (s.ctx w) addr write
  s1.haltSeat g 2

/-- After a Seat was parked: RUNNING becomes PREEMPTED when a Seat of the group is PARKED and none is ISSUING (R174). -/
def State.noteParked (s : State) (g : Nat) : State :=
  match (s.seat g).job with
  | none => s
  | some r =>
    if r.quiz then s
    else
      match s.job? r.ref with
      | none => s
      | some j =>
        let seats := j.liveSeats.map (·.1)
        if j.state = 2 && seats.any (fun x => s.seatState x = 5) && seats.all (fun x => s.seatState x ≠ 3) then
          s.setJob r.ref { j with state := 3 }
        else s

/-- The first issue of any Seat makes the job RUNNING, and an issue of a preempted job makes it RUNNING again (R174). -/
def State.noteIssue (s : State) (g : Nat) : State :=
  let s0 := if (s.seat g).issued then s else s.setSeat g { s.seat g with issued := true }
  match (s0.seat g).job with
  | none => s0
  | some r =>
    if r.quiz then s0
    else
      match s0.job? r.ref with
      | none => s0
      | some j =>
        s0.setJob r.ref { j with
          state := if j.state = 1 ∨ j.state = 3 then 2 else j.state,
          firstIssue := match j.firstIssue with | some t => some t | none => some s0.clock.now }

/-- The Seat has an END descriptor in flight beside the issue path. A switch of the issue path waits for it, and no window parks the Seat: it goes
to IDLE (R69, log entry 76). -/
def State.endPending (s : State) (g : Nat) : Bool :=
  (s.seat g).flight.any (fun f => bit (f.words.getD 0 0) 8 && f.unit ≠ 0 && !f.squash)

/-- Park a Seat (R66). Its transfer and post-processing work pauses at the next boundary (R68), where DMA_BURST_END and
POSTPROC_STEP_BOUNDARY see it parked. -/
def State.parkSeat (s : State) (g : Nat) : State :=
  ((s.setSeat g { s.seat g with lastC := none }).setSeatState g 5).noteParked g

/-! ### Seating (R170) -/

/-- The vector registers 29 to 31 of a seated Seat (R170). `list` holds (SLOT, POSITION) of the work list. -/
def seatVregs (args : List Nat) (list : List (Nat × Nat)) (replica : Nat) (quiz fallback : Bool)
    (old : Table (BitVec 32)) : Table (BitVec 32) :=
  let put := fun (t : Table (BitVec 32)) (p : Nat × Nat) => Table.set t 0#32 p.1 (BitVec.ofNat 32 p.2)
  let base := Table.cut old (29 * 64) (32 * 64)
  let a := (indexed (31 * 64) args).foldl put base
  let b := [(31 * 64 + 8, list.length), (31 * 64 + 9, replica), (31 * 64 + 10, b2n quiz), (31 * 64 + 11, b2n fallback)].foldl put a
  let c := (indexed (30 * 64) (list.map (fun p => 2 ^ 31 + p.1))).foldl put b
  (indexed (29 * 64) (list.map (·.2))).foldl put c

/-- R170, R235, R43: make a Seat READY for a job or a Quiz run at descriptor pointer `entry`. -/
def State.readySeat (s : State) (g entry : Nat) (job : SeatJob) (args : List Nat) (list : List (Nat × Nat)) : State :=
  let x := s.seat g
  let s1 := s.setSeat g { x with
    vregs := seatVregs args list job.replica job.quiz job.fallback x.vregs
    sig := 0#64, wait := none, job := some job, ended := false, lastC := none, issued := false,
    ptrOver := false, convs := [] }
  let s2 := s1.wr (CLC_SEAT_DESC_PTR.PTR (g / 64) (g % 64)) entry
  let s3 := s2.wr (CLC_SEAT_PROGRESS.PROGRESS (g / 64) (g % 64)) 0
  s3.setSeatState g 2

/-- The stage of a Seat in a Lesson. -/
def Lesson.stageOf (l : Lesson) (g : Nat) : Nat :=
  match l.places.find? (fun p => p.seats.contains g) with
  | some p => p.stage
  | none => 0

/-- Make the Seats of a group READY and let their cores arbitrate. -/
def State.readyGroup (s : State) (l : Lesson) (seats : List (Nat × Nat)) (mk : Nat → SeatJob) (quiz : Bool)
    (args : List Nat) (list : List (Nat × Nat)) : State :=
  let s1 := s.each seats (fun u p =>
    u.readySeat p.1 (if quiz then imQuizEntry l.image else stEntry l.image (l.stageOf p.1)) (mk p.2) args list)
  s1.each seats (fun u p => u.arbitrate (coreOf p.1))

/-! ### Tags (R163) -/

/-- The next tag, if one is free: tags never issued first, then freed tags in the order in which they were freed. -/
def State.nextTag (s : State) : Option Nat :=
  if s.reg.freshTag < 1024 then some s.reg.freshTag else s.reg.freeTags.head?

/-- Take tag `t` with the next generation, 1 to 63 (R163). -/
def State.takeTag (s : State) (t : Nat) : State × Nat :=
  let g := Table.get s.reg.gens 0 t % 63 + 1
  let r := s.reg
  ({ s with reg := { r with
      freshTag := if r.freshTag < 1024 then r.freshTag + 1 else r.freshTag
      freeTags := if r.freshTag < 1024 then r.freeTags else r.freeTags.tail
      gens := Table.set r.gens 0 t g } }, g)

/-- Free tag `t` once its completion has been written (R163). -/
def State.freeTag (s : State) (t : Nat) : State :=
  { s with jobs := Table.del s.jobs t, reg := { s.reg with freeTags := s.reg.freeTags ++ [t] } }

/-- HANDLE of a job: GEN in [15:10], TAG in [9:0] (R160). -/
def handleOf (gen tag : Nat) : Nat := gen % 64 * 1024 + tag % 1024

/-- Jobs in flight of a slice. -/
def State.sliceJobs (s : State) (i : Nat) : List (Nat × Job) := s.jobs.filter (fun p => p.2.slice = i)

/-- Every job whose Seats, of the original or of the fallback, satisfy `f` is struck with FAILED and a status. -/
def State.strikeSeats (s : State) (f : Nat → Bool) (status : Nat) : State :=
  s.each s.jobs (fun u p =>
    match u.job? p.1 with
    | none => u
    | some j =>
      let orig := !j.origStopped && j.seats.any (fun x => f x.1)
      let fb := match j.fb with | some r => r.seats.any (fun x => f x.1) | none => false
      let u1 := if orig then u.strike p.1 false 7 status none else u
      if fb then u1.strike p.1 true 7 status none else u1)

/-- Stop a Quiz run of Lesson `k`: its Seats return to IDLE and the run becomes pending again (R242, R324, R376). -/
def State.stopQuiz (s : State) (k : Nat) (drop : Bool) : State :=
  match s.lesson? k with
  | none => s
  | some l =>
    if l.quizSeats.isEmpty then s
    else
      let s1 := s.setLesson k { l with quizSeats := [], quizPending := true }
      s1.each l.quizSeats (fun u p => if drop then u.dropSeat p.1 else u.stopSeat p.1)

/-- Stop the Quiz runs with a Seat that satisfies `f`. -/
def State.stopQuizzes (s : State) (f : Nat → Bool) (drop : Bool) : State :=
  s.each s.lessons (fun u p => if p.2.quizSeats.any (fun x => f x.1) then u.stopQuiz p.1 drop else u)

/-- R21: the CCCs of die `d` are without their hub link or their clock: the jobs in their clusters fail with MS_RESTARTING, and Quiz runs there become
pending again. -/
def State.cccsLost (s : State) (d : Nat) : State :=
  let on := fun g => dieOf (clusterOf g) = d
  (s.strikeSeats on msRestarting).stopQuizzes on false

end Sys2Proof.Machine
end

