-- ==== Sys2Proof/Machine/Issue.lean ====
section
/-! DEFINITION. Issue and completion of descriptors (02_tensor_core R46-R50, R59, R64; 10 R235, R236): what the rows of
the descriptor classes share. -/

namespace Sys2Proof.Machine

/-- The Seat may issue now: it holds the issue path, no switch away from it is pending, its die issues and its memory is zero-filled, no window
shuts it out, and its END has not issued (R41, R47, R66, R96, R187, R376). -/
def State.canIssue (s : State) (g : Nat) : Bool :=
  s.seatState g = 3 && (s.core (coreOf g)).incoming.isNone && !s.dieHalted (clusterOf g)
    && !(s.core (coreOf g)).drill && s.cccState (clusterOf g) = 1 && s.memUp (clusterOf g)
    && (!s.inWindow (clusterOf g) || s.seatSafe g)
    && (s.seat g).flight.all (fun f => !dEnd f.words || f.squash) && !(s.seat g).ended

/-- The address of the next descriptor, and whether its 64 bytes lie in the share (R46). -/
def State.descAt (s : State) (g : Nat) : Nat × Bool :=
  let sh := s.shareOf g
  let off := if (s.seat g).ptrOver then 0x200000 else s.rd (CLC_SEAT_DESC_PTR.PTR (g / 64) (g % 64)) * 64
  (sh.1 + off, off + 64 ≤ sh.2)

/-- The Lesson that a Seat runs work of. -/
def State.seatLesson (s : State) (g : Nat) : Option Lesson :=
  match (s.seat g).job with
  | none => none
  | some r =>
    if r.quiz then s.lesson? r.ref
    else
      match s.job? r.ref with
      | none => none
      | some j => if r.fallback then (match j.fb with | some f => s.lesson? f.lesson | none => none) else s.lesson? j.lesson

/-! ### RAST in a RASTER Lesson (09_raster_display R224) -/

/-- Bytes per pixel of a pass: 4 for RGBA8, 8 for RGBA16F (R220). -/
def RastPass.pixel (p : RastPass) : Nat := if leAt p.cmd 3 1 = 0 then 4 else 8
def RastPass.width (p : RastPass) : Nat := leAt p.cmd 4 2
def RastPass.height (p : RastPass) : Nat := leAt p.cmd 6 2

/-- The pass that a tile command names, by PASS_ID. -/
def State.passOf (s : State) (id : Nat) : Option RastPass :=
  match s.rast.pass with
  | some p => if p.id = id then some p else none
  | none => none

/-- R224: the words of a RAST descriptor as the core takes it: OPCODE and W3 to W6 from the tile command `a`, the rest from the
image words `ws`. Words 8 to 14 carry what else the tile command and its pass give: bytes per pixel, TARGET_STRIDE, the columns
and rows of the tile inside the surface, CLEAR and CLEAR_DEPTH, CLEAR_COLOUR, and RECORDS (log entry 18). -/
def State.tileWords (s : State) (ws a : List Nat) : List Nat :=
  let arg := fun i => a.getD i 0
  let p := s.passOf (bits (arg 0) 31 16)
  let tx := bits (arg 1) 15 0
  let ty := bits (arg 1) 31 16
  let inside := fun (n t : Nat) => min 32 (n - 32 * t)
  let w0 := ws.getD 0 0
  [w0 - bits w0 7 4 * 16 + bits (arg 0) 1 0 * 16, ws.getD 1 0, ws.getD 2 0,
   2 ^ 62 + 0x1800000 + 256 * bits (arg 4) 14 0,
   bits (arg 0) 31 16 * 2 ^ 32 + arg 1 % 2 ^ 32,
   bits (arg 3) 9 0 * 2 ^ 32 + arg 2 % 2 ^ 32,
   2 ^ 63 + bits (arg 6) 3 0 * 2 ^ 32 + arg 5 % 2 ^ 32,
   ws.getD 7 0,
   (match p with | some q => q.pixel | none => 4), bits (arg 6) 31 8,
   (match p with | some q => inside q.width tx | none => 32), (match p with | some q => inside q.height ty | none => 32),
   bits (arg 0) 3 2, arg 7 % 2 ^ 32, bits (arg 4) 25 16 + 1]

/-- ARGS of the job that a Seat works for; zeros for a Quiz run. -/
def State.seatArgs (s : State) (g : Nat) : List Nat :=
  match (s.seat g).job with
  | some r => if r.quiz then [] else (match s.job? r.ref with | some j => j.args | none => [])
  | none => []

/-- The Seat works for a RASTER Lesson. -/
def State.seatRaster (s : State) (g : Nat) : Bool :=
  match s.seatLesson g with | some l => imRaster l.image | none => false

/-- The words of the next descriptor: eight from memory, with those of R224 in place for a RAST descriptor of a RASTER Lesson. -/
def State.descWords (s : State) (g : Nat) : List Nat :=
  let ws := (List.range 8).map (fun i => s.readLe ((s.descAt g).1 + 8 * i) 8)
  if dClass ws = 8 && s.seatRaster g then s.tileWords ws (s.seatArgs g) else ws

/-- Advance the pointer by 64 bytes; it never wraps (R46). -/
def State.advance (s : State) (g : Nat) : State :=
  let f := CLC_SEAT_DESC_PTR.PTR (g / 64) (g % 64)
  if s.rd f = 32767 then s.setSeat g { s.seat g with ptrOver := true } else s.wr f (s.rd f + 1)

/-- R46-R50: issue the descriptor at the Seat's pointer as class `cls` and opcode `op`. A fetch outside the share halts the
Seat with SHARE_VIOL, an uncorrectable word with ECC_UNCORR, an unused class or opcode and a descriptor that is not `ok`
with DESC_INVALID. A descriptor of another class or opcode is not this command's. FENCE and END wait for every earlier
descriptor (R47). The pointer of a Seat that halts here stays at the descriptor at fault (log entry 75). -/
def State.issue (s : State) (g cls op : Nat) (ok : State → List Nat → Bool) (run : State → List Nat → State) : State :=
  if !s.canIssue g || s.anyHeld [((s.descAt g).1, 64)] then s
  else
    let at' := s.descAt g
    if !at'.2 then (s.noteIssue g).shareViol g at'.1 false 6
    else
      let ws := s.descWords g
      let p := s.eccRead at'.1 64
      if !p.2 then (p.1.noteIssue g).haltSeat g 5
      else if opcodes (dClass ws) ≤ dOp ws then (p.1.noteIssue g).haltSeat g 1
      else if dClass ws ≠ cls ∨ dOp ws ≠ op then s
      else if (dFence ws || dEnd ws) && !(s.seat g).flight.isEmpty then s
      else if bits (wd ws 0) 15 11 ≠ 0 ∨ !ok s ws then (p.1.noteIssue g).haltSeat g 1
      else run p.1 ws

/-- The first address of a list of share ranges (offset, length) that lies outside a share of `size` bytes. -/
def outside (size : Nat) : List (Nat × Nat) → Option Nat
  | [] => none
  | (o, n) :: t => if size < o + n ∧ 0 < n then some (if o < size then size else o) else outside size t

/-- Share offsets as physical ranges. -/
def physical (base : Nat) (l : List (Nat × Nat)) : List (Nat × Nat) := l.map (fun p => (base + p.1, p.2))

/-- What a compute descriptor touches, as share offsets: its unit, the Locker ranges it names, those of them that it reads from
Locker (all but the accumulators taken from the array, R59), and the ranges it writes. -/
structure Footprint where
  unit : Nat
  names : List (Nat × Nat)
  reads : List (Nat × Nat)
  writes : List (Nat × Nat)
  deriving DecidableEq, Repr

/-- The outputs of a compute descriptor: elements by bit address and width, the bytes folded into the signature, the vector
registers after it, and for an array descriptor what it leaves in the array (R59). -/
structure Result where
  outs : List (Nat × Nat × Nat)
  sig : List Byte
  vregs : Table (BitVec 32)
  inArray : Option (Option (Nat × List (Nat × Nat × Nat)))

/-- R48, R59: the array's copy of a C tile goes when another descriptor writes into that tile, so that results stay those of
strictly sequential execution. -/
def dropC (writes : List (Nat × Nat)) (c : Option (Nat × List (Nat × Nat × Nat))) : Option (Nat × List (Nat × Nat × Nat)) :=
  match c with
  | some (b, outs) => if anyOverlap writes (outs.map (fun o => (o.1 / 8, ceilDiv (o.1 % 8 + o.2.1) 8))) then none else some (b, outs)
  | none => none

/-- Start a compute descriptor: its ranges lie in the share or the Seat halts with SHARE_VIOL; it waits for the earlier
descriptors of R48; an uncorrectable word read halts the Seat with ECC_UNCORR (R99); otherwise it is in flight with the
results of reading every input before writing any output. -/
def State.launch (s : State) (g : Nat) (ws : List Nat) (p : Footprint) (mk : State → Result) : State :=
  let sh := s.shareOf g
  match outside sh.2 p.names, outside sh.2 p.writes with
  | some o, _ => (s.noteIssue g).shareViol g (sh.1 + o) false 6
  | none, some o => (s.noteIssue g).shareViol g (sh.1 + o) true 6
  | none, none =>
    let reads := unionRanges (physical sh.1 p.reads)
    let writes := unionRanges (physical sh.1 p.writes)
    if hazard (s.seat g).flight reads writes || s.anyHeld (reads ++ writes) then s
    else
      let e := (unionRanges (physical sh.1 p.reads)).foldl
        (fun (acc : State × Bool) r => let q := acc.1.eccRead r.1 r.2; (q.1, acc.2 && q.2)) (s.noteIssue g, true)
      if !e.2 then e.1.haltSeat g 5
      else
        let r := mk e.1
        let x := e.1.seat g
        let f : InFlight := ⟨ws, p.unit, reads, writes, r.outs, r.sig, 0, 0, none, [], false, false⟩
        (e.1.setSeat g { x with
          flight := x.flight ++ [f], vregs := r.vregs, lastC := r.inArray.getD (dropC writes x.lastC) }).advance g

/-- The state as the descriptor reads it: the accumulators of the preceding array descriptor in place (R59). -/
def State.chained (s : State) (outs : List (Nat × Nat × Nat)) : State := s.putOuts outs

/-- R59: ACC_IN is taken from the array. -/
def State.fromArray (s : State) (g accBase : Nat) : Option (List (Nat × Nat × Nat)) :=
  match (s.seat g).lastC with
  | some (b, outs) => if b = accBase then some outs else none
  | none => none

/-! ### Completion (R64, R235) -/

/-- Element `i` removed from a list. -/
def dropAt {α : Type} : Nat → List α → List α
  | _, [] => []
  | 0, _ :: t => t
  | n + 1, x :: t => x :: dropAt n t

/-- Ranges of whole bytes that outputs cover, and the bytes that they cover only in part (R73). -/
def outRanges (outs : List (Nat × Nat × Nat)) : List (Nat × Nat) × List (Nat × Nat) :=
  let whole := unionRanges (outs.map (fun o => (o.1, o.2.1)))
  (whole.map (fun p => (ceilDiv p.1 8, (p.1 + p.2) / 8 - ceilDiv p.1 8)),
   whole.flatMap (fun p => (if p.1 % 8 = 0 then [] else [(p.1 / 8, 1)])
     ++ (if (p.1 + p.2) % 8 = 0 then [] else [((p.1 + p.2) / 8, 1)])))

/-- Write outputs through ECC (R100): whether every write could be made. -/
def State.storeOuts (s : State) (outs : List (Nat × Nat × Nat)) : State × Bool :=
  let r := outRanges outs
  let e := s.eccWrites (r.2 ++ r.1)
  if e.2 then (e.1.putOuts outs, true) else (e.1, false)

/-- LAST_DESC_ID and the progress of the Seat after a descriptor has completed (R43, R44, R47). -/
def State.noteDone (s : State) (g : Nat) (f : InFlight) : State :=
  (s.wr (CLC_SEAT_STATE.LAST_DESC_ID (g / 64) (g % 64)) (dId f.words)).satAdd (CLC_SEAT_PROGRESS.PROGRESS (g / 64) (g % 64))
    (dProgress f.words)

/-- Entry `i` of the Seat's descriptors in flight is gone (R50, R68, R175). -/
def State.squashAt (s : State) (g i : Nat) : State := s.setSeat g { s.seat g with flight := dropAt i (s.seat g).flight }

/-- After a descriptor has completed: LAST_DESC_ID, progress, signature; after END the Seat is IDLE and its part of the job
is done (R43, R47, R69, R235). -/
def State.credit (s : State) (g : Nat) (f : InFlight) (i : Nat) : State :=
  let x := s.seat g
  let sig := if dSig f.words then BitVec.ofNat 64 (crc64 x.sig.toNat (leBytes 4 (dId f.words) ++ f.sigBytes)) else x.sig
  let s1 := s.setSeat g { x with flight := dropAt i x.flight, sig := sig, ended := x.ended || dEnd f.words }
  let s2 := s1.noteDone g f
  if dEnd f.words then (s2.setSeatState g 1).arbitrate (coreOf g) else s2

/-- DESCRIPTOR_COMPLETE for entry `i` of the Seat's descriptors in flight. Of a Seat that has stopped or halted, the work of the issue path still
drains and completes (R64, R175), and other work goes. One whose outputs cannot be written halts its Seat and is gone (R50, R100). -/
def State.completeDesc (s : State) (g i : Nat) : State :=
  let x := s.seat g
  match x.flight[i]? with
  | none => s
  | some f =>
    if f.squash && f.unit = 0 && s.anyHeld f.writes then s
    else if f.squash then
      if f.unit = 0 then
        let p := s.storeOuts f.out
        (if p.2 then p.1.noteDone g f else p.1).squashAt g i
      else s.squashAt g i
    else if f.paused || f.pos < f.total || s.anyHeld f.writes then s
    else if dClass f.words = 7 && x.wait.isSome then s
    else
      let p := s.storeOuts f.out
      if p.2 then p.1.credit g f i else (p.1.squashAt g i).haltSeat g 5

/-- A descriptor in flight holds the array: it is of the issue path, and no SYNC that its Seat waits in. -/
def InFlight.inArray (f : InFlight) (x : SeatX) : Bool := f.unit = 0 && !(dClass f.words = 7 && x.wait.isSome)

/-- The array drains: every issue-path descriptor in flight of the Seat completes, oldest first (R64, R66). -/
def State.drain (s : State) (g : Nat) : Nat → State
  | 0 => s
  | n + 1 =>
    match (indexed 0 (s.seat g).flight).find? (fun p => p.2.inArray (s.seat g)) with
    | none => s
    | some (i, _) => State.drain (s.completeDesc g i) g n

/-- The array of core `m` drains, whichever Seat's descriptors it holds (R41). -/
def State.drainCore (s : State) (m : Nat) : State :=
  s.each ((List.range 8).map (8 * m + ·)) (fun t g => t.drain g (t.seat g).flight.length)

/-- The array of core `m` holds nothing: a march hold keeps the writes of a descriptor waiting (R108). -/
def State.drained (s : State) (m : Nat) : Bool :=
  ((List.range 8).map (8 * m + ·)).all (fun g => (s.seat g).flight.all (fun f => !f.inArray (s.seat g)))

end Sys2Proof.Machine
end

