-- ==== Sys2Proof/Machine/Array.lean ====
section
/-! DEFINITION. The tensor array: MMA and CONV (02_tensor_core R56-R60; 03_arithmetic R71-R84; 05_convolution_pooling
R121-R133). -/

namespace Sys2Proof.Machine

/-! ### Shared by MMA and CONV -/

/-- Rows of `n` consecutive elements at a TREF, as share offsets. -/
def rowRanges (t : Tref) (rows n : Nat) : List (Nat × Nat) :=
  (List.range rows).map (fun r => (t.base + r * t.s1, t.fmt.span n))

/-- R49, R74: the output TREF names the output format, aligned, and OUTCTL is well formed. -/
def outOk (t : Tref) (oc : Nat) (allowed : Fmt → Bool) : Bool := t.ok && t.code = ocFmt oc && ocOk oc allowed

/-- R74: an ACC_IN tile is CARRY. -/
def accOk (t : Tref) : Bool := t.ok && t.fmt = .carry

/-- The encoding written for an output lane (R79, R82, R83). -/
def laneOut (oc : Nat) (f : Fmt) (sixteen : Bool) (start : Lane) (prods : List (Num × Num)) : Nat :=
  if sixteen then
    let w := path16Lane start prods
    if f = .carry then (Lane.ofF32 w).toBits else outNum oc f (f32of w)
  else
    let l := exactLane start prods
    if f = .carry then l.toBits else outNum oc f l.num

/-- The bytes of a list of outputs of one format, in order (R236). -/
def sigOuts (f : Fmt) (outs : List (Nat × Nat × Nat)) : List Byte := outs.flatMap (fun o => sigElem f o.2.2)

/-- The state as an array descriptor reads it: with the accumulators of the preceding array descriptor in place of its ACC_IN tile
where they are taken from the array (R59). -/
def State.accView (s : State) (g : Nat) (acc : Option Tref) (e : State) : State :=
  match (match acc with | some t => s.fromArray g t.base | none => none) with
  | some o => e.chained o
  | none => e

/-- Run an array descriptor: `acc` is its ACC_IN reference when ACC_IN_EN is 1, `accRanges` the ranges of that tile, `lanes`
its outputs computed from a state. R59 takes the accumulators from the array. -/
def State.runArray (s : State) (g : Nat) (ws : List Nat) (acc : Option Tref) (accRanges reads writes : List (Nat × Nat))
    (out : Tref) (lanes : State → List (Nat × Nat × Nat)) : State :=
  let held := match acc with | some t => s.fromArray g t.base | none => none
  let fromL := if acc.isSome && held.isNone then accRanges else []
  s.launch g ws ⟨0, accRanges ++ reads, fromL ++ reads, writes⟩ (fun e =>
    let outs := lanes (s.accView g acc e)
    ⟨outs, sigOuts out.fmt outs, (e.seat g).vregs,
      some (if out.fmt = .carry then some (out.base, outs) else none)⟩)

/-! ### SPARSE24 metadata (R57) -/

/-- The 4-bit entry of group `q` in the metadata row at share address `a`. -/
def State.metaEntry (s : State) (a q : Nat) : Nat := (s.byte (a + q / 2)).toNat / (if q % 2 = 0 then 1 else 16) % 16

/-- Dense positions of the stored values of a row of `k` dense positions, with their stored index. -/
def State.sparsePositions (s : State) (a k : Nat) : List (Nat × Nat) :=
  (List.range (k / 4)).flatMap (fun q =>
    let e := s.metaEntry a q
    [(4 * q + e % 4, 2 * q), (4 * q + e / 4, 2 * q + 1)])

/-! ### MMA -/

def mmaM (ws : List Nat) : Nat := fld ws 6 5 0 + 1
def mmaN (ws : List Nat) : Nat := fld ws 6 11 6 + 1
def mmaK (ws : List Nat) : Nat := fld ws 6 22 12 + 1
def mmaAccEn (ws : List Nat) : Bool := bit (wd ws 6) 23
def mmaOc (ws : List Nat) : Nat := fld ws 7 15 0

/-- R49, R53, R58, R74 for MMA; `sp` for SPARSE24. A field that no value of the others makes the descriptor use is zero (log entry 74). -/
def mmaOk (sp : Bool) (_s : State) (ws : List Nat) : Bool :=
  let a := tref (wd ws 1)
  let b := tref (wd ws 2)
  let c := tref (wd ws 3)
  let k := mmaK ws
  let inOk := fun (t : Tref) => t.ok && (inFmt t.fmt || t.fmt.isMx) && (t.fmt.isMx || t.s2 = 0)
  inOk a && inOk b && outOk c (mmaOc ws) accOut && c.s2 = 0
    && (if mmaAccEn ws then accOk (tref (wd ws 4)) && (tref (wd ws 4)).s2 = 0 else wd ws 4 = 0)
    && (a.fmt.isMx || fld ws 5 20 0 = 0) && (b.fmt.isMx || fld ws 5 41 21 = 0)
    && !bit (wd ws 5) 63 && (sp || fld ws 5 62 42 = 0) && fld ws 6 63 24 = 0 && fld ws 7 63 16 = 0
    && k ≤ kLimit (max (rateClass a.fmt) (rateClass b.fmt)) sp
    && (!(a.fmt.isMx || b.fmt.isMx) || k % 32 = 0) && (!sp || k % 4 = 0)

/-- Element `i` of a row of an MMA operand under its block scale (R72): the block is that of dense position `p`. -/
def State.mmaElem (s : State) (t : Tref) (share scaleOff row i p : Nat) : Num :=
  let v := t.fmt.decode (s.elem t.fmt (share + t.base + row * t.s1) i)
  if t.fmt.isMx then scaled (s.byte (share + scaleOff + row * t.s2 + p / 32)).toNat v else v

/-- The products of output lane (i, j) in the order of R81. -/
def State.mmaProducts (s : State) (share : Nat) (ws : List Nat) (sp : Bool) (i j : Nat) : List (Num × Num) :=
  let a := tref (wd ws 1)
  let b := tref (wd ws 2)
  let k := mmaK ws
  let av := fun p => s.mmaElem a share (fld ws 5 20 0) i p p
  if sp then
    (s.sparsePositions (share + fld ws 5 62 42 + j * ceilDiv k 8) k).map (fun q =>
      (av q.1, s.mmaElem b share (fld ws 5 41 21) j q.2 q.1))
  else (List.range k).map (fun p => (av p, s.mmaElem b share (fld ws 5 41 21) j p p))

/-- The C elements of an MMA, row by row (R56). -/
def State.mmaOuts (s : State) (share : Nat) (ws : List Nat) (sp : Bool) : List (Nat × Nat × Nat) :=
  let a := tref (wd ws 1)
  let b := tref (wd ws 2)
  let c := tref (wd ws 3)
  let acc := tref (wd ws 4)
  (List.range (mmaM ws)).flatMap (fun i => (List.range (mmaN ws)).map (fun j =>
    let start := if mmaAccEn ws then Lane.ofBits (s.elem .carry (share + acc.base + i * acc.s1) j) else Lane.zero
    (8 * (share + c.base + i * c.s1) + j * c.fmt.bits, c.fmt.bits,
      laneOut (mmaOc ws) c.fmt (a.fmt.is16 || b.fmt.is16) start (s.mmaProducts share ws sp i j))))

/-- The ACC_IN tile of an MMA, where it has one. -/
def mmaAcc (ws : List Nat) : Option Tref := if mmaAccEn ws then some (tref (wd ws 4)) else none
def mmaAccRanges (ws : List Nat) : List (Nat × Nat) :=
  if mmaAccEn ws then rowRanges (tref (wd ws 4)) (mmaM ws) (mmaN ws) else []

/-- The share ranges that an MMA reads beside ACC_IN: A, B, their MX scales and the SPARSE24 metadata (R56, R57, R72). -/
def mmaReads (sp : Bool) (ws : List Nat) : List (Nat × Nat) :=
  let a := tref (wd ws 1)
  let b := tref (wd ws 2)
  let m := mmaM ws
  let n := mmaN ws
  let k := mmaK ws
  let scales := fun (x : Tref) off rows => if x.fmt.isMx then (List.range rows).map (fun r => (off + r * x.s2, k / 32)) else []
  rowRanges a m k ++ rowRanges b n (if sp then k / 2 else k) ++ scales a (fld ws 5 20 0) m ++ scales b (fld ws 5 41 21) n
    ++ (if sp then (List.range n).map (fun r => (fld ws 5 62 42 + r * ceilDiv k 8, ceilDiv k 8)) else [])

/-- The rows of C. -/
def mmaWrites (ws : List Nat) : List (Nat × Nat) := rowRanges (tref (wd ws 3)) (mmaM ws) (mmaN ws)

/-- R56: an MMA descriptor. -/
def State.mma (s : State) (g : Nat) (sp : Bool) : State :=
  s.issue g 1 (if sp then 1 else 0) (mmaOk sp) (fun t ws =>
    t.runArray g ws (mmaAcc ws) (mmaAccRanges ws) (mmaReads sp ws) (mmaWrites ws) (tref (wd ws 3))
      (fun e => e.mmaOuts (t.shareOf g).1 ws sp))

/-! ### CONV -/

/-- The window geometry of CONV and POOL (R121-R126), fields plus 1 where stored minus 1. -/
structure Geo where
  kh : Nat
  kw : Nat
  sh : Nat
  sw : Nat
  dh : Nat
  dw : Nat
  padMode : Nat
  padT : Nat
  padB : Nat
  padL : Nat
  padR : Nat
  inH : Nat
  inW : Nat
  y0 : Nat
  x0 : Nat
  th : Nat
  tw : Nat
  koffY : Nat
  koffX : Nat
  deriving DecidableEq, Repr

def convGeo (ws : List Nat) : Geo :=
  ⟨fld ws 5 2 0 + 1, fld ws 5 5 3 + 1, fld ws 5 8 6 + 1, fld ws 5 11 9 + 1, fld ws 5 14 12 + 1, fld ws 5 17 15 + 1,
   fld ws 5 19 18, fld ws 5 25 20, fld ws 5 31 26, fld ws 5 37 32, fld ws 5 43 38,
   fld ws 6 15 0 + 1, fld ws 6 31 16 + 1, fld ws 6 47 32, fld ws 6 63 48, fld ws 7 5 0 + 1, fld ws 7 11 6 + 1,
   fld ws 7 53 48, fld ws 7 59 54⟩

/-- R123: the output extent on one axis for a kernel of `k` taps; 0 where it is less than 1. -/
def outExtent (inp padA padB k d s : Nat) : Nat :=
  let dk := (k - 1) * d + 1
  if inp + padA + padB < dk then 0 else (inp + padA + padB - dk) / s + 1

/-- R124: the tile lies in an output of at least one position. The kernel is taken up to the taps of this descriptor
(log entry 17). -/
def Geo.shapeOk (q : Geo) : Bool :=
  q.y0 + q.th ≤ outExtent q.inH q.padT q.padB (q.koffY + q.kh) q.dh q.sh
    && q.x0 + q.tw ≤ outExtent q.inW q.padL q.padR (q.koffX + q.kw) q.dw q.sw

/-- R124: the whole input at `ch` channels lies in a share of `size` bytes. -/
def Geo.inputFits (q : Geo) (t : Tref) (ch size : Nat) : Bool :=
  t.base + (q.inH - 1) * t.s1 + (q.inW - 1) * t.s2 + t.fmt.span ch ≤ size

/-- R124: the output tile of `n` channels lies in the share. -/
def Geo.tileFits (q : Geo) (t : Tref) (n size : Nat) : Bool :=
  t.base + (q.th - 1) * t.s1 + (q.tw - 1) * t.s2 + t.fmt.span n ≤ size

/-- R125: the input row and column that tap (ky, kx) of tile position (i, j) reads. -/
def Geo.tap (q : Geo) (i j ky kx : Nat) : Int × Int :=
  ((((q.y0 + i) * q.sh + (q.koffY + ky) * q.dh : Nat) : Int) - (q.padT : Int),
   (((q.x0 + j) * q.sw + (q.koffX + kx) * q.dw : Nat) : Int) - (q.padL : Int))

/-- The position lies in the image. -/
def Geo.inside (q : Geo) (p : Int × Int) : Bool := 0 ≤ p.1 && p.1 < q.inH && 0 ≤ p.2 && p.2 < q.inW

/-- The image position nearest to `p`, each axis clamped on its own (R126 EDGE). -/
def Geo.clampPos (q : Geo) (p : Int × Int) : Nat × Nat :=
  ((clampInt 0 ((q.inH : Int) - 1) p.1).toNat, (clampInt 0 ((q.inW : Int) - 1) p.2).toNat)

/-- R125, R126: the encoding that a tap reads for channel `ch` of the input at TREF `t`. -/
def State.window (s : State) (share : Nat) (q : Geo) (t : Tref) (padConst : Nat) (p : Int × Int) (ch : Nat) : Nat :=
  if q.inside p || q.padMode = 2 then
    let c := q.clampPos p
    s.elem t.fmt (share + t.base + c.1 * t.s1 + c.2 * t.s2) ch
  else if q.padMode = 1 then padConst % 2 ^ t.fmt.bits
  else 0

/-- The taps of the window in weight order. -/
def Geo.taps (q : Geo) : List (Nat × Nat) :=
  (List.range q.kh).flatMap (fun ky => (List.range q.kw).map (fun kx => (ky, kx)))

/-- The tile positions, row by row. -/
def Geo.positions (q : Geo) : List (Nat × Nat) :=
  (List.range q.th).flatMap (fun i => (List.range q.tw).map (fun j => (i, j)))

/-- The ranges of the input elements that taps address (R125). -/
def Geo.touched (q : Geo) (t : Tref) (ch : Nat) : List (Nat × Nat) :=
  q.positions.flatMap (fun ij => q.taps.filterMap (fun k =>
    let p := q.tap ij.1 ij.2 k.1 k.2
    if q.inside p || q.padMode = 2 then
      let c := q.clampPos p
      some (t.base + c.1 * t.s1 + c.2 * t.s2, t.fmt.span ch)
    else none))

/-- The tile's rows of `n` channels at a TREF. -/
def Geo.tileRanges (q : Geo) (t : Tref) (n : Nat) : List (Nat × Nat) :=
  q.positions.map (fun ij => (t.base + ij.1 * t.s1 + ij.2 * t.s2, t.fmt.span n))

def convCout (ws : List Nat) : Nat := fld ws 7 17 12 + 1
def convCin (ws : List Nat) : Nat := fld ws 7 27 18 + 1
def convGroups (ws : List Nat) : Nat := fld ws 5 59 44 + 1
def convAccEn (ws : List Nat) : Bool := bit (wd ws 7) 28
def convOc (ws : List Nat) : Nat := fld ws 7 47 32

/-- Input channels per tap in weight order: CIN', and the number of input channels the descriptor reads (R122, R127). -/
def convPerTap (op : Nat) (ws : List Nat) : Nat := if op = 2 then 1 else convCin ws
def convChannels (op : Nat) (ws : List Nat) : Nat :=
  if op = 2 then convCout ws else if op = 1 then convGroups ws * convCin ws else convCin ws

/-- R60: the reduction length. -/
def convK (op : Nat) (ws : List Nat) : Nat := convPerTap op ws * (convGeo ws).kh * (convGeo ws).kw

/-- R128: the group rules. -/
def convGroupsOk (op : Nat) (ws : List Nat) : Bool :=
  match op with
  | 1 => convCout ws % convGroups ws = 0
  | 2 => convGroups ws = convCout ws && convCin ws = 1
  | _ => convGroups ws = 1

/-- R49, R53, R58, R60, R74 for CONV. -/
def convFieldsOk (op : Nat) (ws : List Nat) : Bool :=
  let i := tref (wd ws 1)
  let w := tref (wd ws 2)
  let o := tref (wd ws 3)
  let q := convGeo ws
  i.ok && inFmt i.fmt && w.ok && inFmt w.fmt && (op = 3 || w.s2 = 0) && outOk o (convOc ws) accOut
    && (if convAccEn ws then accOk (tref (wd ws 4)) else wd ws 4 = 0)
    && q.kh ≤ 7 && q.kw ≤ 7 && q.padMode ≤ 2 && fld ws 5 63 60 = 0 && q.th * q.tw ≤ 64
    && fld ws 7 31 29 = 0 && fld ws 7 63 60 = 0
    && convK op ws ≤ kLimit (max (rateClass i.fmt) (rateClass w.fmt)) (op = 3) && (op ≠ 3 || convK op ws % 4 = 0)

/-- R129, R130 as one descriptor shows them: a kernel pass stands at a multiple of 7 taps within 64 taps and 64 passes, and every pass but the first
takes its accumulators from its predecessor. -/
def convPassOk (q : Geo) (accEn : Bool) : Bool :=
  q.koffY % 7 = 0 && q.koffX % 7 = 0 && q.koffY + q.kh ≤ 64 && q.koffX + q.kw ≤ 64 && (q.koffY / 7 + 1) * (q.koffX / 7 + 1) ≤ 64
    && (accEn || (q.koffY = 0 && q.koffX = 0))

/-- R124 for CONV in a share of `size` bytes, with R128 and what one descriptor shows of R130. -/
def convShapeOk (op size : Nat) (ws : List Nat) : Bool :=
  let q := convGeo ws
  convPassOk q (convAccEn ws) && q.shapeOk && q.inputFits (tref (wd ws 1)) (convChannels op ws) size
    && q.tileFits (tref (wd ws 3)) (convCout ws) size && convGroupsOk op ws

def convOk (op g : Nat) (s : State) (ws : List Nat) : Bool := convFieldsOk op ws && convShapeOk op (s.shareOf g).2 ws

/-- The first input channel that output channel `o` reads (R127). -/
def convFirst (op : Nat) (ws : List Nat) (o : Nat) : Nat :=
  match op with
  | 1 => o / (convCout ws / convGroups ws) * convCin ws
  | 2 => o
  | _ => 0

/-- The products of output channel `o` at tile position (i, j) in weight order (R81, R125, R127, R57). -/
def State.convProducts (s : State) (share padConst op : Nat) (ws : List Nat) (i j o : Nat) : List (Num × Num) :=
  let t := tref (wd ws 1)
  let w := tref (wd ws 2)
  let q := convGeo ws
  let per := convPerTap op ws
  let row := share + w.base + o * w.s1
  let inp := fun p =>
    let tap := p / per
    t.fmt.decode (s.window share q t padConst (q.tap i j (tap / q.kw) (tap % q.kw)) (convFirst op ws o + p % per))
  let wgt := fun n => w.fmt.decode (s.elem w.fmt row n)
  if op = 3 then
    (s.sparsePositions (share + w.base + w.s2 + o * ceilDiv (convK op ws) 8) (convK op ws)).map (fun x => (inp x.1, wgt x.2))
  else (List.range (convK op ws)).map (fun p => (inp p, wgt p))

/-- The OUT elements of a CONV by tile row, column and channel. -/
def State.convOuts (s : State) (share padConst op : Nat) (ws : List Nat) : List (Nat × Nat × Nat) :=
  let o := tref (wd ws 3)
  let acc := tref (wd ws 4)
  let sixteen := (tref (wd ws 1)).fmt.is16 || (tref (wd ws 2)).fmt.is16
  (convGeo ws).positions.flatMap (fun ij => (List.range (convCout ws)).map (fun n =>
    let start := if convAccEn ws then
        Lane.ofBits (s.elem .carry (share + acc.base + ij.1 * acc.s1 + ij.2 * acc.s2) n)
      else Lane.zero
    (8 * (share + o.base + ij.1 * o.s1 + ij.2 * o.s2) + n * o.fmt.bits, o.fmt.bits,
      laneOut (convOc ws) o.fmt sixteen start (s.convProducts share padConst op ws ij.1 ij.2 n))))

/-- The ACC_IN tile of a CONV, where it has one. -/
def convAcc (ws : List Nat) : Option Tref := if convAccEn ws then some (tref (wd ws 4)) else none
def convAccRanges (ws : List Nat) : List (Nat × Nat) :=
  if convAccEn ws then (convGeo ws).tileRanges (tref (wd ws 4)) (convCout ws) else []

/-- The share ranges that a CONV reads beside ACC_IN: the input elements that its taps address, the weights, and the SPARSE24
metadata (R57, R125). -/
def convReads (op : Nat) (ws : List Nat) : List (Nat × Nat) :=
  let w := tref (wd ws 2)
  let n := convCout ws
  let k := convK op ws
  (convGeo ws).touched (tref (wd ws 1)) (convChannels op ws) ++ rowRanges w n (if op = 3 then k / 2 else k)
    ++ (if op = 3 then (List.range n).map (fun r => (w.base + w.s2 + r * ceilDiv k 8, ceilDiv k 8)) else [])

/-- The tile of OUT. -/
def convWrites (ws : List Nat) : List (Nat × Nat) := (convGeo ws).tileRanges (tref (wd ws 3)) (convCout ws)

/-! ### The commands -/

/-- MMA DENSE (R56). -/
def execMmaDense (seat : Fin 1024) (s : State) : Host.Outcome State Fault Refusal := .next (s.live (s.mma seat.val false))

/-- MMA SPARSE24 (R57). -/
def execMmaSparse24 (seat : Fin 1024) (s : State) : Host.Outcome State Fault Refusal := .next (s.live (s.mma seat.val true))

end Sys2Proof.Machine
end

