-- ==== Sys2Proof/Machine/RegCheck.lean ====
section
/-! DEFINITION. An access to a register that exists, with its full width (00_scope R12-R16; 11_fault_collection R277, R417; 15_bridges_pair_link R337,
R345): the checks, the answer to one that is refused, and the effect. -/

namespace Sys2Proof.Machine

/-- The answer to an access that fails with `reason` at its far side: a posted write over a Die Bridge has had its response, and its failure comes
back as a write-error message (R345); any other access gets an error response (R277). A Seat, whose engine waits for the outcome of its writes (R50),
gets both. -/
def State.answerFailed (s : State) (c : Ctx) (a : Nat) (bs : List Byte) (write : Bool) (reason : Nat) : State :=
  match dieBridge c.die a with
  | some b => if write then { s.postWrite b c a a bs reason with bus := if c.kind = .seat then .error else .done } else { s with bus := .error }
  | none => { s with bus := .error }

/-- The outcome of an access that is a violation (R277). -/
def State.refused (s : State) (w : Initiator) (v : Viol) (addr : Nat) (write : Bool) : State :=
  (s.logViol v (s.ctx w) addr write).answerFailed (s.ctx w) addr [] write v.reason

/-- The outcome of a register access that the register's block refuses. -/
def State.regRefused (s : State) (w : Initiator) (addr : Nat) (write : Bool) (reason : Nat) : State :=
  s.refused w (regViol addr reason) addr write

/-- R341, R339: the access waits for a lock or for a write of the device that is on its way, or a read for a tag. -/
def State.held (s : State) (w : Initiator) (a n : Nat) (write : Bool) : Bool :=
  s.lockWaits (s.initId w) a n || s.lateOver a n || (!write && !s.tagsFor (startDie w) a)

/-- The same, and the access waits while a strict slice comes first on the die link (R330). -/
def State.regHolds (s : State) (w : Initiator) (a n : Nat) (write : Bool) : Bool :=
  s.held w a n write || s.strictFirst (s.sliceOf w) (0, linkBytes (startDie w) a n write)

/-- An access to a register that exists, with its full width: the rights check, for the partner the window check, then the effect (R417). A
write that crosses dies is a posted write of the Die Bridge (R337). -/
def State.regAccess (s : State) (w : Initiator) (f : RegFam) (i j : Nat) (write : Bool) (k : State → State) : State :=
  let a := (f.reg i j).addr
  if !s.arrives w.kind w.index a || !s.regUp a then { s with bus := .error }
  else if !s.rightsOk f i w write then s.regRefused w a write 3
  else if !pairChannel a && s.pairShut w.kind (s.sliceOf w) a 8 write then s.refused w windowViol a write
  else if s.regHolds w a 8 write then { s with bus := .wait 256 }
  else
    let s1 := s.useQuota (s.sliceOf w) 0 (linkBytes (startDie w) a 8 write)
    if write then k (s1.countCross (startDie w) a) else k s1

/-- A write to a register of a family: the checks, the effect, and the response. -/
def State.regWr (s : State) (w : Initiator) (f : RegFam) (i j : Nat) (k : State → State) : State :=
  s.regAccess w f i j true (fun t => { k t with bus := .done })

/-- A read of a register of a family: the checks, the value read, and the effect of the read. -/
def State.regRd (s : State) (w : Initiator) (f : RegFam) (i j : Nat) (v : State → Nat) (k : State → State) : State :=
  s.regAccess w f i j false (fun t => { k t with bus := .data (v t) })

end Sys2Proof.Machine
end

