-- ==== Sys2Proof/Machine/Fcu.lean ====
section
/-! DEFINITION. The rows of fault collection that act on the FCU's own registers (11_fault_collection R266-R277). -/

namespace Sys2Proof.Machine

/-- R266, R280, R281: the source is of the level kind. -/
def isLevelSrc (n : Nat) : Bool :=
  if 0x100 ≤ n then n % 16 = 9 || n % 16 = 10 || n % 16 = 11
  else n ≤ 0x007 || n = 0x015 || n = 0x026 || n = 0x029 || n = 0x02A || n = 0x032 || (0x041 ≤ n && n ≤ 0x043)
    || n = 0x048 || n = 0x049 || n = 0x051 || n = 0x061 || n = 0x091 || n = 0x0A1 || n = 0x0A3
    || (0x0C0 ≤ n && n ≤ 0x0DF)

/-- FCU_CTRL.ALIVE_HZ accepts 250 to 10,000. -/
def fcuCtrlOk (x : Fld) (n : Nat) : Bool := x.lo ≠ 32 || (250 ≤ n && n ≤ 10000)

/-- A write to FCU_CTRL: ALIVE_HZ and LOCK until LOCK is set. -/
def State.fcuCtrlWrite (s : State) (v : Nat) : State :=
  s.plainWrite FCU_CTRL (RegFam.fields .fcu_ctrl) (s.on FCU_CTRL.LOCK) v fcuCtrlOk

/-- A write to FCU_SRCn_CFG (R267-R269, R282): a zero W_MS and a CLASS below DEFAULT_CLASS are not taken, the reactions set at
reset stay, and an ID that is not used is not configured. -/
def State.fcuCfgWrite (s : State) (n v : Nat) : State :=
  match srcReset n with
  | none => s
  | some r =>
    if s.on FCU_CTRL.LOCK then s
    else
      let s1 := if bits v 63 48 = 0 then s else s.wr (FCU_SRC_CFG.W_MS n) (bits v 63 48)
      let s2 := (s1.wr (FCU_SRC_CFG.N n) (bits v 47 40)).wr (FCU_SRC_CFG.REACT n) (bits v 39 36 ||| r.2.2.2)
      if bits v 1 0 < r.1 then s2 else s2.wr (FCU_SRC_CFG.CLASS n) (bits v 1 0)

/-- A write to FCU_SRC_ACKk (R273). -/
def State.fcuAckWrite (s : State) (k v : Nat) : State := s.each (sourcesOf k v) State.ackSrc

/-- A write to FCU_SRC_STATUSk (R274): a source that is not set has nothing to clear. -/
def State.fcuStatusWrite (s : State) (k v : Nat) : State := s.each (sourcesOf k v) State.clearSrc

/-- A write to FCU_SW_RAISE. -/
def State.fcuRaiseWrite (s : State) (v : Nat) : State := if bit v 4 then s.raise (srcSwFault (bits v 3 0)) else s

/-- A write to FCU_LOG_PTR (R276): FROZEN is cleared by a 1. -/
def State.fcuLogPtrWrite (s : State) (v : Nat) : State := if bit v 32 then s.wr FCU_LOG_PTR.FROZEN 0 else s

/-- R272: a failure of the self-check stops ALIVE_OUT by a path of its own. -/
def State.selfcheckFail (s : State) : State :=
  (s.stopAlive.wr FCU_SUMMARY.SELFCHECK_FAIL 1).assertSrc srcFcuSelfcheck

/-- R272, R396: the start-up self-check has passed and ALIVE_OUT toggles, unless it was stopped; without a verified Security Core
firmware the self-check is never started. -/
def execAliveOutStart (s : State) : Host.Outcome State Fault Refusal :=
  .next (s.live (
    if s.on FCU_SUMMARY.ALIVE_STOPPED || s.boot.fcuPassed || s.rd SEC_STATE.SC_STATE = 0 then s
    else { s with fcu := { s.fcu with aliveRun := true, aliveHz := s.rd FCU_CTRL.ALIVE_HZ }
                  boot := { s.boot with fcuPassed := true } }.noteService))

/-- R272: half a period of 1 / ALIVE_HZ has passed: ALIVE_OUT toggles, and the written ALIVE_HZ takes effect. -/
def execAliveOutEdge (s : State) : Host.Outcome State Fault Refusal :=
  .next (s.live (
    if s.fcu.aliveRun then
      { s with fcu := { s.fcu with aliveHz := s.rd FCU_CTRL.ALIVE_HZ }
               pins := { s.pins with aliveOut := !s.pins.aliveOut } }
    else s))

/-- R272: FCU_SELFCHECK_FAIL. -/
def execFcuSelfcheckFail (s : State) : Host.Outcome State Fault Refusal := .next (s.live s.selfcheckFail)

/-- R273: FCU_ACK. -/
def execFcuAck (who : Initiator) (k : Fin 8) (data : Word) (s : State) : Host.Outcome State Fault Refusal :=
  .next (s.live (s.regWr who .fcu_src_ack k.val 0 (fun t => t.fcuAckWrite k.val data.toNat)))

/-- R274: FCU_CLEAR. -/
def execFcuClear (who : Initiator) (k : Fin 8) (data : Word) (s : State) : Host.Outcome State Fault Refusal :=
  .next (s.live (s.regWr who .fcu_src_status k.val 0 (fun t => t.fcuStatusWrite k.val data.toNat)))

/-- R267: FCU_SW_RAISE. -/
def execFcuSwRaise (who : Initiator) (data : Word) (s : State) : Host.Outcome State Fault Refusal :=
  .next (s.live (s.regWr who .fcu_sw_raise 0 0 (fun t => t.fcuRaiseWrite data.toNat)))

/-- R276: FCU_LOG_UNFREEZE. -/
def execFcuLogUnfreeze (who : Initiator) (data : Word) (s : State) : Host.Outcome State Fault Refusal :=
  .next (s.live (s.regWr who .fcu_log_ptr 0 0 (fun t => t.fcuLogPtrWrite data.toNat)))

/-- R272: FCU_CTRL_WRITE. -/
def execFcuCtrlWrite (who : Initiator) (data : Word) (s : State) : Host.Outcome State Fault Refusal :=
  .next (s.live (s.regWr who .fcu_ctrl 0 0 (fun t => t.fcuCtrlWrite data.toNat)))

/-- R275: FCU_SUMMARY_READ. -/
def execFcuSummaryRead (who : Initiator) (s : State) : Host.Outcome State Fault Refusal :=
  .next (s.live (s.regRd who .fcu_summary 0 0 State.summaryWord (fun t => t.fcuReadClear (t.ctx who) .fcu_summary 0)))

/-- R275: FCU_LOG_PTR_READ. -/
def execFcuLogPtrRead (who : Initiator) (s : State) : Host.Outcome State Fault Refusal :=
  .next (s.live (s.regRd who .fcu_log_ptr 0 0 (fun t => t.reg64 FCU_LOG_PTR) (fun t => t.fcuReadClear (t.ctx who) .fcu_log_ptr 0)))

/-- R275: FCU_SRC_STATE_READ. -/
def execFcuSrcStateRead (who : Initiator) (source : Fin 512) (s : State) : Host.Outcome State Fault Refusal :=
  .next (s.live (s.regRd who .fcu_src_state source.val 0 (fun t => t.reg64 (FCU_SRC_STATE source.val))
    (fun t => t.fcuReadClear (t.ctx who) .fcu_src_state source.val)))

/-- The family and indices of a violation log's VIOL_INFO (R279). -/
def violFam : ViolLog → RegFam × Nat × Nat
  | .hub => (.hub_viol_info, 0, 0)
  | .core m => (.core_viol_info, m.val / 8, m.val % 8)
  | .cluster n => (.clc_viol_info, n.val, 0)
  | .wmark => (.wmark_viol_info, 0, 0)
  | .bridge b => (.brg_viol_info, b.val, 0)

/-- R277: VIOL_INFO_READ returns the fields and clears COUNT. -/
def execViolInfoRead (who : Initiator) (log : ViolLog) (s : State) : Host.Outcome State Fault Refusal :=
  let p := violFam log
  .next (s.live (s.regRd who p.1 p.2.1 p.2.2 (fun t => t.reg64 (p.1.reg p.2.1 p.2.2))
    (fun t => t.readClear (p.1.reg p.2.1 p.2.2) p.1.fields)))

/-- R280: PCIE_ERROR raises PCIE_ERR. -/
def execPcieError (s : State) : Host.Outcome State Fault Refusal := .next (s.live (s.raise srcPcieErr))

/-- R351: LIN_ERROR raises LIN_ERR. -/
def execLinError (_ctl : Fin 4) (s : State) : Host.Outcome State Fault Refusal := .next (s.live (s.raise srcLinErr))

end Sys2Proof.Machine
end

