-- ==== Sys2Proof/Machine/Service.lean ====
section
/-! DEFINITION. Service levels (01_device_architecture R25-R28), and what goes when a Lesson is unloaded, a cluster or a core is
withdrawn, or a compute die is powered down (06_lessons R158; 04_locker_slate R96, R112; 17_power_clocks_reset R379). -/

namespace Sys2Proof.Machine

/-! ### Releasing a Lesson (R158) -/

/-- A released Seat: EMPTY, its share zeroed and given back, nothing of the Lesson in flight. -/
def State.releaseSeat (s : State) (g : Nat) : State :=
  let sh := s.shareOf g
  let n := g / 64
  let i := g % 64
  let s1 := s.wipeRange sh.1 (sh.1 + sh.2)
  let s2 := (s1.wr (CLC_SEAT_SHARE.SIZE_4K n i) 0).wr (CLC_SEAT_SHARE.BASE_4K n i) 0
  let s3 := s2.setSeat g { SeatX.zero with vregs := (s2.seat g).vregs }
  (s3.setSeatState g 0).arbitrate (coreOf g)

/-- The CCCs, which are no secure-world initiators, have no access to a Slate region of `n` bytes at `base`: it begins below the level (R114). -/
def State.regionShut (s : State) (base n : Nat) : Bool :=
  n ≠ 0 && slateBase ≤ base && base < lockerBase && (base - slateBase) % 0x2000000 < s.slateLevel

/-- Such an access is logged with the CCC as its initiator. -/
def State.cccViol (s : State) (base : Nat) (write : Bool) : State :=
  s.logViol ⟨.wmark, 4, srcSlateWmarkViol⟩ (s.ctx ⟨.ccc, (base - slateBase) / 0x2000000, 0⟩) base write

/-- A CCC zeroes a range. -/
def State.cccWipe (s : State) (base n : Nat) : State := if s.regionShut base n then s.cccViol base true else s.wipeRange base (base + n)

/-- A stage given back: its Seats, its region and its synchronisation block. -/
def State.releasePlace (s : State) (p : StagePlace) : State :=
  let s1 := s.each p.seats State.releaseSeat
  let s2 := s1.cccWipe (slateAddr p.cluster (p.slateOff * 65536)) (p.slate64k * 65536)
  match p.block with
  | none => s2
  | some b =>
    let c := s2.cluster p.cluster
    s2.setCluster p.cluster { c with blocks := Table.del c.blocks b, sems := Table.cut c.sems (b * 256) ((b + 1) * 256) }

/-- The registers of a queue at reset but for the fields `c` of QCFG and its counts, PROD, CONS and DROPPED, which stay (R403). -/
def QRec.kept (x : QRec) (c : Nat) : QRec :=
  { QRec.zero with cfg := BitVec.ofNat 64 (x.dropped * 2 ^ 48 + c), prod := x.prod, cons := x.cons }

/-- A queue that no Lesson uses any more: unowned and disabled. -/
def State.resetQueue (s : State) (q : Nat) : State := s.setQueue q ((s.queue q).kept 0)

/-- Some job in flight still writes to completion queue `q`. -/
def State.cqWaits (s : State) (q : Nat) : Bool := s.jobs.any (fun p => p.2.cq = q && !p.2.discard)

/-- The queues of a Lesson given back, with what the Registrar keeps of their records; a completion queue that a record still waits for keeps
its registers until it is allotted again (log entry 26). -/
def State.releaseQueues (s : State) (l : Lesson) : State :=
  let n := imQueues l.image
  let mine := fun q => l.queueFirst ≤ q && q < l.queueFirst + n
  let r := s.reg
  let s1 := { s with
    reg := { r with preAborts := r.preAborts.filter (fun p => !mine p.1), badRuns := r.badRuns.filter (fun p => !mine p.1) }
    rast := { s.rast with gone := s.rast.gone.filter (fun p => !mine p.1) } }
  (List.range n).foldl (fun t i =>
    let u := t.resetQueue (l.queueFirst + i)
    if u.cqWaits (l.cqFirst + i) then u else u.resetQueue (l.cqFirst + i)) s1

/-- Every resource of Lesson `k` given back (R158). -/
def State.releaseLesson (s : State) (k : Nat) : State :=
  match s.lesson? k with
  | none => s
  | some l =>
    let s1 := s.each l.places State.releasePlace
    let s2 := s1.releaseQueues l
    let s3 := { s2 with lessons := Table.del s2.lessons k,
                        roster := s2.roster.filter (fun e => !(e.2.slice = l.slice && e.2.lesson = l.id)) }
    if l.quizFailed && !s3.lessons.any (fun p => p.2.quizFailed) then s3.deassertSrc srcQuizFail else s3

/-- Jobs of Lesson `k`, as the original or as the fallback run. -/
def State.jobsOf (s : State) (k : Nat) : List Nat :=
  (s.jobs.filter (fun p => p.2.lesson = k || (match p.2.fb with | some f => f.lesson = k | none => false))).map (·.1)

/-- R96, R112, R155: a Lesson treated as unloaded: its jobs fail with `status`, and its resources go. A forced unload that waited for those jobs is
done with them (R158). -/
def State.unloadLesson (s : State) (k status : Nat) : State :=
  let s1 := (s.jobsOf k).foldl (fun u t =>
    match u.job? t with
    | none => u
    | some j => if j.lesson = k then u.strike t false 7 status none else u.strike t true 7 status none) s
  let s2 := (s1.stopQuiz k true).releaseLesson k
  match (s.lesson? k).bind (·.releaseMb) with
  | some (mb, h) => s2.sendReply mb (replyHeader h msOk 0 0)
  | none => s2

/-- R159: the load in progress is given up: whatever it had placed is released, and its request gets `status`, or nothing where the host has gone. -/
def State.dropLoad (s : State) (status : Nat) (gone : Bool) : State :=
  match s.reg.loading with
  | none => s
  | some d =>
    let k := lessonKey d.lesson.slice d.lesson.id
    let s1 := ({ s with reg := { s.reg with loading := none } }.setLesson k d.lesson).releaseLesson k
    if gone then s1 else s1.sendReply d.mb (replyHeader d.header status 0 0)

/-- R159: an event that meets a load on a place that it has chosen. -/
def State.dropLoadWhere (s : State) (f : StagePlace → Bool) (status : Nat) : State :=
  match s.reg.loading with
  | none => s
  | some d => if d.lesson.places.any f then s.dropLoad status false else s

/-- Unload every Lesson with a stage that satisfies `f`, with a load in progress there. -/
def State.unloadWhere (s : State) (f : StagePlace → Bool) (status : Nat) : State :=
  (s.lessons.filter (fun p => p.2.places.any f)).foldl (fun u p => u.unloadLesson p.1 status) (s.dropLoadWhere f status)

/-- R112, R250: a cluster is withdrawn: no further work, its jobs fail with MS_FAULT, its Lessons are unloaded. -/
def State.withdrawCluster (s : State) (n : Nat) : State :=
  let s1 := s.setCluster n { s.cluster n with withdrawn := true }
  (s1.strikeSeats (fun g => clusterOf g = n) msFault).unloadWhere (fun p => p.cluster = n) msFault

/-- R112, R250: a core is withdrawn. -/
def State.withdrawCore (s : State) (m : Nat) : State :=
  let s1 := s.setCore m { s.core m with withdrawn := true }
  (s1.strikeSeats (fun g => coreOf g = m) msFault).unloadWhere (fun p => p.seats.any (fun g => coreOf g = m)) msFault

/-! ### A compute die loses its power (R28, R96, R379) -/

/-- A register of a cluster control block that only a reset of the device clears: its counts and logs of R402, which are the violation logs,
CLC_MEM_UELOG and CLC_MEM_ECCCOUNT (R403). -/
def longRunReg (a : Nat) : Bool := let o := (a - 0x20000000) % 0x10000; (0x2000 ≤ o && o < 0x2090) || (0x3000 ≤ o && o < 0x3010)

/-- The registers of a die's clusters at reset: the cluster control blocks of the die, but for the counts and logs that stay. -/
def State.clearClusterRegs (s : State) (d : Nat) : State :=
  { s with regs := s.regs.filter (fun p => p.1 < clusterBase (8 * d) || clusterBase (8 * d + 8) ≤ p.1 || longRunReg p.1) }

/-- PWR_EN_CDn is high (R410). -/
def State.pwrEn (s : State) (d : Nat) : Bool := if d = 0 then s.pins.pwrEn0 else s.pins.pwrEn1

/-- PWR_EN_CDn is driven high or low, and the device keeps when (R410). -/
def State.setPwrEn (s : State) (d : Nat) (v : Bool) : State :=
  if s.pwrEn d = v then s
  else
    let s1 := if d = 0 then { s with pins := { s.pins with pwrEn0 := v } } else { s with pins := { s.pins with pwrEn1 := v } }
    s1.setDie d (if v then { s.die d with enAt := s.clock.up } else { s.die d with offAt := some s.clock.up })

/-- A link has retrained: the tags on it of reads that have had their error response are free (R339). -/
def State.freeLinkTags (s : State) (mask : Nat) : State :=
  s.each [1, 2, 3] (fun t b =>
    let x := t.bridge b
    let fresh := fun (r : BridgeRead) => let k := linkBit (b - 1) (r.tag / 256); bit mask k && !bit s.pwr.linksUp k
    t.setBridge b { x with reads := x.reads.filter (fun r => !((r.timedOut || r.squashed) && fresh r)) })

/-- LINK_UP of the Die Bridges from the links that are trained (R18, R336). -/
def State.setLinks (s : State) (mask : Nat) : State :=
  let s0 := s.freeLinkTags mask
  let s1 := { s0 with pwr := { s0.pwr with linksUp := mask } }
  ((s1.wr (BRG_STATUS.LINK_UP 1) (b2n (bit mask 1 && bit mask 2))).wr (BRG_STATUS.LINK_UP 2) (b2n (bit mask 0 && bit mask 1))).wr
    (BRG_STATUS.LINK_UP 3) (b2n (bit mask 0 && bit mask 2))

/-! ### Drill steps abandoned (R251, R324, R376) -/

/-- The cluster that a Drill instance tests, for the units on the compute dies: 0 core logic, 1 Locker, 2 Slate (R245). -/
def drillCluster (unit inst : Nat) : Option Nat :=
  match unit with
  | 0 => some (inst / 8)
  | 1 => some (inst / 8)
  | 2 => some inst
  | _ => none

/-- A Drill step leaves core `m`: paused transfer work of its Seats goes on, except of PARKED Seats, and issue resumes (R247). -/
def State.freeCore (s : State) (m : Nat) : State :=
  let s1 := s.setCore m { s.core m with drill := false }
  let s2 := s1.each ((List.range 8).map (8 * m + ·)) (fun u g =>
    if u.seatState g = 5 then u
    else u.setSeat g { u.seat g with flight := (u.seat g).flight.map (fun f => { f with paused := false }) })
  s2.arbitrate m

/-- A Drill march step of cluster `n` uses its march engine (R246). -/
def State.drillMarch (s : State) (n : Nat) : Bool :=
  s.proc.passes.any (fun p => p.2.running && ((p.1 / 128 = 1 && p.1 % 128 / 8 = n) || (p.1 / 128 = 2 && p.1 % 128 = n)))

/-- The march engine of cluster `n` rests. -/
def State.idleMarch (s : State) (n : Nat) : State :=
  (s.setCluster n { s.cluster n with march := March.zero }).wr (CLC_MARCH_STATUS.BUSY n) 0

/-- The running Drill steps on the clusters that satisfy `f` are abandoned without a verdict and run again later; their cores take
work again. -/
def State.dropDrill (s : State) (f : Nat → Bool) : State :=
  let hit := fun (p : Nat × DrillPass) =>
    p.2.running && (match drillCluster (p.1 / 128) (p.1 % 128) with | some n => f n | none => false)
  let s1 := { s with proc := { s.proc with
    passes := s.proc.passes.map (fun p => if hit p then (p.1, { p.2 with running := false }) else p) } }
  let s2 := s1.each ((List.range 16).filter (fun n => f n && s.drillMarch n)) State.idleMarch
  (s2.cores.filter (fun p => p.2.drill && f (p.1 / 8))).foldl (fun u p => u.freeCore p.1) s2

/-- Die `d` powered down and held until the reset of the device: its Lessons unloaded, its memories lost, its registers, links and
withdrawals gone, and the level sources of its clusters no longer asserting (R28, R96, R112, R281). -/
def State.powerDownDie (s : State) (d : Nat) : State :=
  let s1 := (s.unloadWhere (fun p => dieOf p.cluster = d) msFault).dropDrill (fun n => dieOf n = d)
  let s2 := (s1.wipeRange (slateAddr (8 * d) 0) (slateAddr (8 * d + 8) 0)).wipeRange
    (lockerAddr (64 * d) 0) (lockerAddr (64 * d + 64) 0)
  let s3 := s2.clearClusterRegs d
  let s4 := { s3 with
    seats := Table.cut s3.seats (512 * d) (512 * d + 512)
    cores := Table.cut s3.cores (64 * d) (64 * d + 64)
    clusters := Table.cut s3.clusters (8 * d) (8 * d + 8)
    boot := { s3.boot with secretShut := s3.boot.secretShut.filter (· ≠ d + 1), cdi := Table.del s3.boot.cdi (d + 1) } }
  let s5 := (List.range 8).foldl (fun u i =>
    (((u.setCcc (8 * d + i) 0).deassertSrc (srcCluster (8 * d + i) 9)).deassertSrc (srcCluster (8 * d + i) 10)).deassertSrc
      (srcCluster (8 * d + i) 11)) s4
  let x := s5.die d
  let s6 := (s5.setDie d { Die.zero with held := true, govCeil := x.govCeil, enAt := x.enAt, offAt := x.offAt }).setPwrEn d false
  let s7 := ((s6.wr (PMC_OPP_CD.CUR d) 0).wr (PMC_OPP_CD.TARGET d) 0).wr (PMC_OPP_CD.CLAMPED d) 0
  s7.setLinks (clearBit (clearBit s7.pwr.linksUp 0) (d + 1))

/-- A fault powers die `d` down: the links that it takes down raise DIE_LINK_DOWN_C and DIE_LINK_DOWN_Hn (R379). -/
def State.loseDie (s : State) (d : Nat) : State :=
  let up := s.pwr.linksUp
  let s1 := s.powerDownDie d
  let s2 := if bit up 0 then s1.assertSrc srcDieLinkDownC else s1
  if bit up (d + 1) then s2.assertSrc (srcDieLinkDownH d) else s2

end Sys2Proof.Machine
end

