-- ==== Sys2Proof/Machine/Memory.lean ====
section
/-! DEFINITION. Locker and Slate: write-back of corrected words, scrubbing, the march test with repair and withdrawal, and the
Locker shares (04_locker_slate R98-R113; 02_tensor_core R45). -/

namespace Sys2Proof.Machine

/-! ### ECC write-back and scrubbing -/

/-- R98, R101: the corrected word is written back, unless a write has superseded it. -/
def execEccWriteback (addr : PAddr) (s : State) : Host.Outcome State Fault Refusal :=
  .next (s.live { s with ecc := { s.ecc with wb := s.ecc.wb.filter (· ≠ wordOf addr.toNat) } })

/-- Physical start and end of memory `m` of cluster `n` (0-7 Locker of a local core, 8 Slate). -/
def memRange (n m : Nat) : Nat × Nat :=
  if m = 8 then (slateAddr n 0, slateAddr (n + 1) 0) else (lockerAddr (8 * n + m) 0, lockerAddr (8 * n + m + 1) 0)

def State.scrubState (s : State) (n m : Nat) : Nat := Table.get (s.cluster n).scrub 0 m
def State.setScrub (s : State) (n m v : Nat) : State :=
  let c := s.cluster n
  s.setCluster n { c with scrub := Table.set c.scrub 0 m v }

/-- SCRUB_PERIOD_END (R102): a pass that has not finished is late, otherwise the next pass starts. -/
def execScrubPeriodEnd (cluster : Fin 16) (mem : Fin 9) (s : State) : Host.Outcome State Fault Refusal :=
  let n := cluster.val
  .next (s.live (
    if !s.memUp n then s
    else if s.scrubState n mem.val = 0 then s.setScrub n mem.val 1
    else (s.setScrub n mem.val 2).raise (srcCluster n 7)))

/-- SCRUB_PASS_END (R102): every word has been read, single-bit errors are corrected, uncorrectable words are logged and left
marked; after a late pass the next one starts at once. -/
def execScrubPassEnd (cluster : Fin 16) (mem : Fin 9) (s : State) : Host.Outcome State Fault Refusal :=
  let n := cluster.val
  let r := memRange n mem.val
  .next (s.live (
    if !s.memUp n || s.scrubState n mem.val = 0 then s
    else
      let s1 := (s.eccRead r.1 (r.2 - r.1)).1
      s1.setScrub n mem.val (if s.scrubState n mem.val = 2 then 1 else 0)))

/-! ### The march test (R107-R113) -/

/-- A Seat of the core is at work (R109). -/
def State.coreBusy (s : State) (m : Nat) : Bool :=
  (List.range 8).any (fun k =>
    let g := 8 * m + k
    (2 ≤ s.seatState g && s.seatState g ≤ 5) || (s.seat g).flight.any (fun f => f.unit ≠ 0))

/-- A Seat of the core is not EMPTY. -/
def State.coreBound (s : State) (m : Nat) : Bool := (List.range 8).any (fun k => s.seatState (8 * m + k) ≠ 0)

/-- A Lesson region lies in the Slate. -/
def State.slateInUse (s : State) (n : Nat) : Bool :=
  (s.lessons.map (·.2) ++ (s.reg.loading.map (·.lesson)).toList).any (fun l => l.places.any (fun q => q.cluster = n && 0 < q.slate64k))

/-- The memories that CLC_MARCH_CTRL names, Lockers first in ascending core order, then the Slate (R107). -/
def State.marchMems (s : State) (n : Nat) : List Nat :=
  (List.range 8).filter (fun i => bit (s.rd (CLC_MARCH_CTRL.LOCKER_MASK n)) i)
    ++ (if s.on (CLC_MARCH_CTRL.SLATE n) then [8] else [])

/-- R109: the test is refused. -/
def State.marchRefused (s : State) (n : Nat) (mems : List Nat) (first last : Nat) (destructive bySec : Bool) : Bool :=
  mems.any (fun m =>
    if m = 8 then (destructive && s.slateInUse n) || (!bySec && first * 0x40000 < s.slateLevel) || 127 < last
    else s.coreBusy (8 * n + m) || (destructive && s.coreBound (8 * n + m)) || 31 < last)

/-- The test begins: its first group is held (R108). -/
def State.beginMarch (s : State) (n : Nat) (mems : List Nat) (first last : Nat) (destructive startup : Bool) : State :=
  match mems with
  | [] => (s.wr (CLC_MARCH_STATUS.RESULT n) 1).wr (CLC_MARCH_CTRL.START n) 0
  | m :: rest =>
    let s1 := (s.wr (CLC_MARCH_STATUS.BUSY n) 1).wr (CLC_MARCH_CTRL.START n) 1
    s1.setCluster n { s1.cluster n with
      march := ⟨rest, m, first, first, last, destructive, false, [], some (m, first), startup⟩ }

/-- A write of START (R109). -/
def State.marchStart (s : State) (n : Nat) (bySec : Bool) : State :=
  let mems := s.marchMems n
  let first := s.rd (CLC_MARCH_CTRL.GROUP_FIRST n)
  let last := first + s.rd (CLC_MARCH_CTRL.GROUP_COUNT n)
  let destructive := s.on (CLC_MARCH_CTRL.MODE n)
  if s.marchRefused n mems first last destructive bySec then
    (s.wr (CLC_MARCH_STATUS.RESULT n) 4).wr (CLC_MARCH_CTRL.START n) 0
  else s.beginMarch n mems first last destructive false

/-- SCRUB_MS takes 1 to 1,000; START is not stored by the write itself. -/
def marchCtrlOk (x : Fld) (v : Nat) : Bool := (x.lo ≠ 32 || (1 ≤ v && v ≤ 1000)) && x.lo ≠ 0

/-- A write to CLC_MARCH_CTRL: its fields, and a test where START is written while none runs. -/
def State.marchCtrlWrite (s : State) (n v : Nat) (bySec : Bool) : State :=
  let s1 := s.plainWrite (CLC_MARCH_CTRL n) (RegFam.fields .clc_march_ctrl) false v marchCtrlOk
  if bit v 0 && !s.on (CLC_MARCH_STATUS.BUSY n) && s.memUp n then s1.marchStart n bySec else s1

/-- MARCH_START (R109). -/
def execMarchStart (who : Initiator) (cluster : Fin 16) (data : Word) (s : State) : Host.Outcome State Fault Refusal :=
  .next (s.live (s.regWr who .clc_march_ctrl cluster.val 0
    (fun t => t.marchCtrlWrite cluster.val data.toNat (isSecCore who))))

/-- Spare rows of a bank of memory `m` (R95). -/
def spareRows (m : Nat) : Nat := if m = 8 then 32 else 8

/-- Address of a row of a bank (R95): granules interleave over the banks. -/
def rowAddr (n m bank row : Nat) : Nat :=
  (memRange n m).1 + (if m = 8 then row * 4096 + bank * 64 else row * 1024 + bank * 64)

/-- A bank and row that exist in the group under test. -/
def rowInGroup (m group : Nat) (f : RowFailure) : Bool := f.bank < (if m = 8 then 64 else 16) && f.row / 64 = group

/-- Spare rows of bank `bank` of memory `m` in use: those that the manufacturing test fused and those of soft repairs since the die came up (R111). -/
def State.sparesUsed (s : State) (n m bank : Nat) : Nat :=
  Table.get (s.cluster n).sparesUsed 0 (m * 64 + bank)
    + (s.fuses.fusedRows.filter (fun r => r.1 = n && r.2.1 = m && r.2.2.1 = bank)).length

/-- The fewest spare rows left in any bank of the memories `l` of cluster `n` (CLC_MARCH_STATUS). -/
def State.sparesLeft (s : State) (n : Nat) (l : List Nat) (cap : Nat) : Nat :=
  l.foldl (fun a m => (List.range 64).foldl (fun b bank => min b (cap - s.sparesUsed n m bank)) a) cap

/-- CLC_MARCH_STATUS says how many spare rows are left. -/
def State.noteSpares (s : State) (n : Nat) : State :=
  (s.wr (CLC_MARCH_STATUS.SLATE_SPARES n) (s.sparesLeft n [8] 32)).wr (CLC_MARCH_STATUS.LOCKER_SPARES n)
    (s.sparesLeft n [0, 1, 2, 3, 4, 5, 6, 7] 8)

/-- R111: a failing row is remapped to a spare of its bank, or its memory has failed. -/
def State.marchFail (s : State) (n : Nat) (f : RowFailure) : State :=
  let c := s.cluster n
  let m := c.march.mem
  let s1 := ((s.wr (CLC_MARCH_STATUS.FAIL_MEM n) m).wr (CLC_MARCH_STATUS.FAIL_ROW n) f.row).wr
    (CLC_MARCH_STATUS.FAIL_BANK n) f.bank
  if s.sparesUsed n m f.bank < spareRows m then
    let t := Table.set c.sparesUsed 0 (m * 64 + f.bank) (Table.get c.sparesUsed 0 (m * 64 + f.bank) + 1)
    (s1.setCluster n { c with
      sparesUsed := t, remapped := (m, f.bank, f.row) :: c.remapped, march := { c.march with repaired := true } }).noteSpares n
  else
    s1.setCluster n { c with march := { c.march with
      failed := if c.march.failed.contains m then c.march.failed else c.march.failed ++ [m] } }

/-- The group is written back, with single-bit errors corrected and uncorrectable words still marked, or filled with zero (R107,
R111); what of that counts is the model's (log entry 97). -/
def State.groupBack (s : State) (n : Nat) : State :=
  let q := (s.cluster n).march
  let r := groupRange n q.mem q.group
  if q.destructive then s.wipeRange r.1 (r.1 + r.2)
  else
    let s1 := s.each (s.ecc.ce.filter (hits r.1 r.2)) State.eccFix
    { s1 with ecc := { s1.ecc with wb := s1.ecc.wb.filter (fun w => !hits r.1 r.2 w) } }

/-- R110, R112: the test has ended. -/
def State.endMarch (s : State) (n : Nat) : State :=
  let q := (s.cluster n).march
  let s1 := s.setCluster n { s.cluster n with march := March.zero }
  let s2 := (s1.wr (CLC_MARCH_STATUS.BUSY n) 0).wr (CLC_MARCH_CTRL.START n) 0
  if !q.failed.isEmpty then
    let s3 := (s2.wr (CLC_MARCH_STATUS.RESULT n) 3).assertSrc (srcCluster n 9)
    s3.each q.failed (fun u m => if m = 8 then u.withdrawCluster n else u.withdrawCore (8 * n + m))
  else if q.repaired then (s2.wr (CLC_MARCH_STATUS.RESULT n) 2).raise (srcCluster n 8)
  else s2.wr (CLC_MARCH_STATUS.RESULT n) 1

/-- The last row group of memory `m` in the start-up test, or of the test as started. -/
def marchLast (q : March) (m : Nat) : Nat := if q.startup then (if m = 8 then 127 else 31) else q.last

/-- MARCH_ROW_GROUP_END (R108): the group in hand ends, its hold is released, and the next group starts. A failing row of a Drill step is
not repaired; the step's verdict decides (R250). -/
def execMarchRowGroupEnd (cluster : Fin 16) (failures : List RowFailure) (s : State) : Host.Outcome State Fault Refusal :=
  let n := cluster.val
  let q := (s.cluster n).march
  .next (s.live (
    match q.held with
    | none => s
    | some _ =>
      let s1 := (s.groupBack n).each (if s.drillMarch n then [] else failures.filter (rowInGroup q.mem q.group)) (fun u f => u.marchFail n f)
      let c := s1.cluster n
      if q.group < marchLast q q.mem then
        s1.setCluster n { c with march := { c.march with group := q.group + 1, held := some (q.mem, q.group + 1) } }
      else
        match q.mems with
        | m :: rest =>
          s1.setCluster n { c with march := { c.march with
            mems := rest, mem := m, group := q.first, held := some (m, q.first) } }
        | [] => if s.drillMarch n then s1.setCluster n { c with march := { c.march with held := none } } else s1.endMarch n))

/-- CLC_MEM_ECCCOUNT_READ (R14): the counts are returned and cleared. -/
def execClcMemEcccountRead (who : Initiator) (cluster : Fin 16) (s : State) : Host.Outcome State Fault Refusal :=
  .next (s.live (s.regRd who .clc_mem_ecccount cluster.val 0 (fun t => t.reg64 (CLC_MEM_ECCCOUNT cluster.val))
    (fun t => t.readClear (CLC_MEM_ECCCOUNT cluster.val) (RegFam.fields .clc_mem_ecccount))))

/-! ### Locker shares (R45) -/

/-- The range `base`, `size` in units of 4 KiB overlaps the share of another Seat of the core. -/
def State.shareOverlaps (s : State) (g base size : Nat) : Bool :=
  (List.range 8).any (fun k =>
    let h := 8 * coreOf g + k
    h ≠ g && overlaps base size (s.rd (CLC_SEAT_SHARE.BASE_4K (h / 64) (h % 64))) (s.rd (CLC_SEAT_SHARE.SIZE_4K (h / 64) (h % 64))))

/-- R45: a write to CLC_SEAT_SHARE. -/
def State.seatShareWrite (s : State) (g v : Nat) : State :=
  let n := g / 64
  let i := g % 64
  let err := CLC_SEAT_STATE.LAST_ERR n i
  let base := bits v 8 0
  let size := bits v 25 16
  if s.seatState g ≠ 0 || 512 < base + size || s.shareOverlaps g base size then
    if s.seatState g = 6 then s else s.wr err 4
  else
    let s1 := s.plainWrite (CLC_SEAT_SHARE n i) (RegFam.fields .clc_seat_share) false v (fun _ _ => true)
    if s1.rd err = 4 then s1.wr err 0 else s1

/-- CLC_SEAT_SHARE_WRITE (R45). -/
def execClcSeatShareWrite (who : Initiator) (seat : Fin 1024) (data : Word) (s : State) : Host.Outcome State Fault Refusal :=
  .next (s.live (s.regWr who .clc_seat_share (seat.val / 64) (seat.val % 64) (fun t => t.seatShareWrite seat.val data.toNat)))

/-! ### Wipes of the secure partitions: starting and merging (R115, R117, R290) -/

/-- A range joins a wipe that runs, or starts one. -/
def joinRange (old : Option (Nat × Nat)) (lo hi : Nat) : Option (Nat × Nat) :=
  match old with
  | none => some (lo, hi)
  | some (a, b) => if a = b then some (lo, hi) else if lo = hi then some (a, b) else some (min a lo, max b hi)

/-- A wipe of offsets `lo` to below `hi` of every Slate. -/
def State.wipeSlates (s : State) (lo hi : Nat) : State :=
  { s with sec := { s.sec with slateWipe := joinRange s.sec.slateWipe lo hi } }.wr WMARK_SLATE_CTRL.WIPE_BUSY 1

/-- A wipe of offsets `lo` to below `hi` of LPDDR5X; `full` at the whole bandwidth. -/
def State.wipeDram (s : State) (lo hi : Nat) (full : Bool) : State :=
  { s with sec := { s.sec with dramWipe := joinRange s.sec.dramWipe lo hi, dramFull := s.sec.dramFull || full } }.wr
    WMARK_DRAM_CTRL.WIPE_BUSY 1

/-- Both secure partitions are wiped at full bandwidth (R298, R302, R303). The wipe of LPDDR5X that is not trained runs first after
training. -/
def State.wipeBoth (s : State) : State :=
  let s1 := s.wipeSlates 0 s.slateLevel
  if s1.boot.dramTrained then s1.wipeDram 0 s1.dramLevel true else { s1 with sec := { s1.sec with tamperDram := true } }

/-! ### Wipes: their ends -/

/-- The Slate wipe has ended (R115, R116): zero everywhere in its range; a non-zero word shuts that cluster's partition until reset. -/
def State.slateWiped (s : State) (bad : List Nat) : State :=
  match s.sec.slateWipe with
  | none => s
  | some (lo, hi) =>
    let s1 := (List.range 16).foldl (fun (u : State) n => u.wipeRange (slateAddr n lo) (slateAddr n hi)) s
    let shut := bad.filter (fun n => (s.die (dieOf n)).powered && !s.sec.slateShut.contains n)
    let s2 := (((s1.wr WMARK_SLATE_CTRL.WIPE_BUSY 0).wr WMARK_SLATE_CTRL.WIPE_REQ 0).satAdd WMARK_SLATE_CTRL.WIPE_COUNT 1)
    let s3 := match s2.sec.slateLevel with | some v => s2.wr WMARK_SLATE.LEVEL_64K v | none => s2
    let s4 := { s3 with sec := { s3.sec with slateWipe := none, slateLevel := none, slateShut := s3.sec.slateShut ++ shut } }
    if shut.isEmpty then s4 else (s4.wr WMARK_SLATE_CTRL.WIPE_FAIL 1).assertSrc srcSlateWipeFail

/-- The LPDDR5X wipe has ended (R290). -/
def State.dramWiped (s : State) (bad : Bool) : State :=
  match s.sec.dramWipe with
  | none => s
  | some (lo, hi) =>
    let s1 := s.wipeRange (dramBase + lo) (dramBase + hi)
    let s2 := (((s1.wr WMARK_DRAM_CTRL.WIPE_BUSY 0).wr WMARK_DRAM_CTRL.WIPE_REQ 0).satAdd WMARK_DRAM_CTRL.WIPE_COUNT 1)
    let s3 := match s2.sec.dramLevel with | some v => s2.wr WMARK_DRAM.LEVEL_1M v | none => s2
    let s4 := { s3 with sec := { s3.sec with
      dramWipe := none, dramLevel := none, dramFull := false, dramShut := s3.sec.dramShut || bad } }
    if bad then (s4.wr WMARK_DRAM_CTRL.WIPE_FAIL 1).assertSrc srcSlateWipeFail else s4

end Sys2Proof.Machine
end

