-- ==== Sys2Proof/Machine/Layers.lean ====
section
/-! DEFINITION. The layers of convolutions that a Seat runs (05_convolution_pooling R124, R129-R131): which CONV descriptors make up one layer, and the
canonical form of their passes, for the loader and for the core. -/

namespace Sys2Proof.Machine

/-- A CONV descriptor of an image: section, index, words; of a Seat: its words. -/
structure ConvD where
  sec : Nat
  idx : Nat
  ws : List Nat
  deriving DecidableEq, Repr

/-- The opcode; a GROUPED or DEPTHWISE convolution of one group is a STANDARD one (R127). -/
def ConvD.op (d : ConvD) : Nat := dOp d.ws
def ConvD.kind (d : ConvD) : Nat := if convGroups d.ws = 1 && d.op ≠ 3 then 0 else d.op
def ConvD.geo (d : ConvD) : Geo := convGeo d.ws
def ConvD.inp (d : ConvD) : Tref := tref (wd d.ws 1)
def ConvD.out (d : ConvD) : Tref := tref (wd d.ws 3)
def ConvD.sixteen (d : ConvD) : Bool := d.inp.fmt.is16 || (tref (wd d.ws 2)).fmt.is16

/-- `d` takes its accumulators from the CARRY output of `p` (R130). -/
def ConvD.follows (p d : ConvD) : Bool :=
  let acc := tref (wd d.ws 4)
  convAccEn d.ws && p.out.fmt = .carry && p.out.base = acc.base && p.out.s1 = acc.s1 && p.out.s2 = acc.s2

/-- Two descriptors read the same image at different channels: their inputs lie within one column of each other, or within one row of an image one
column wide; those of an image of one element always do (log entry 96). -/
def ConvD.sameInput (p d : ConvD) : Bool :=
  let n := if p.geo.inW ≠ 1 then p.inp.s2 else p.inp.s1
  (p.geo.inW = 1 && p.geo.inH = 1) || (p.inp.base - d.inp.base < n && d.inp.base - p.inp.base < n)

/-- `d` carries on the layer of `p`: the same layer geometry, and the next channels of the same kernel pass or a later pass; on the 16-bit path any
channels of the same input, for there every order but the canonical one is refused (R131, log entry 96). -/
def ConvD.sameLayer (p d : ConvD) : Bool :=
  let a := p.geo
  let b := d.geo
  p.kind = d.kind && convCout p.ws = convCout d.ws && convGroups p.ws = convGroups d.ws && p.inp.code = d.inp.code
    && (tref (wd p.ws 2)).code = (tref (wd d.ws 2)).code && p.inp.s1 = d.inp.s1 && p.inp.s2 = d.inp.s2
    && { a with kh := 0, kw := 0, koffY := 0, koffX := 0 } = { b with kh := 0, kw := 0, koffY := 0, koffX := 0 }
    && ((a.koffY = b.koffY && a.koffX = b.koffX && a.kh = b.kh && a.kw = b.kw
          && (8 * p.inp.base + convChannels p.op p.ws * p.inp.fmt.bits = 8 * d.inp.base || (d.sixteen && p.sameInput d)))
        || a.koffY < b.koffY || (a.koffY = b.koffY && a.koffX < b.koffX))

/-- Put a descriptor behind the latest chain that it follows, chains and their descriptors latest first. -/
def chainAdd (d : ConvD) : List (List ConvD) → Option (List (List ConvD))
  | [] => none
  | c :: t =>
    match c with
    | p :: _ => if p.follows d then some ((d :: c) :: t) else (chainAdd d t).map (fun r => c :: r)
    | [] => (chainAdd d t).map (fun r => c :: r)

/-- The accumulator chains of CONV descriptors in the order in which they run (log entry 96). -/
def convChains (ds : List ConvD) : List (List ConvD) :=
  (ds.foldl (fun cs d => match chainAdd d cs with | some r => r | none => [d] :: cs) []).map List.reverse

/-- Cut a chain into layers (log entry 96). -/
def layersOf : List ConvD → List (List ConvD)
  | [] => []
  | d :: t =>
    match layersOf t with
    | (e :: l) :: r => if d.sameLayer e then (d :: e :: l) :: r else [d] :: (e :: l) :: r
    | r => [d] :: r

/-- The full kernel of a layer (R129). -/
def layerKernel (l : List ConvD) : Nat × Nat :=
  l.foldl (fun k d => (max k.1 (d.geo.koffY + d.geo.kh), max k.2 (d.geo.koffX + d.geo.kw))) (0, 0)

/-- Split `n` in parts of at most `c`, at most `fuel` of them: (start, length). -/
def parts (c n : Nat) : Nat → Nat → List (Nat × Nat)
  | 0, _ => []
  | fuel + 1, start => if n ≤ start then [] else (start, min c (n - start)) :: parts c n fuel (start + min c (n - start))

/-- The canonical descriptors of a layer (R130): tap offsets, taps, first channel and channels of each. -/
def canonical (kh kw channels limit : Nat) (single : Bool) : List (Nat × Nat × Nat × Nat × Nat × Nat) :=
  (parts 7 kh 64 0).flatMap (fun y => (parts 7 kw 64 0).flatMap (fun x =>
    let c := if single then channels else max 1 (limit / (y.2 * x.2))
    (parts c channels 1024 0).map (fun ch => (y.1, x.1, y.2, x.2, ch.1, ch.2))))

/-- R129-R131: the layer is native, or an exact layer split freely, or in the canonical form: all of it where it is `whole`, as far as it goes
otherwise. -/
def layerOk (whole : Bool) (l : List ConvD) : Bool :=
  match l with
  | [] => true
  | d :: _ =>
    let k := layerKernel l
    let decomposed := 7 < k.1 || 7 < k.2 || l.any (fun e => e.geo.koffY ≠ 0 || e.geo.koffX ≠ 0)
    let sixteen := l.any ConvD.sixteen
    if !decomposed && !(sixteen && 1 < l.length) then true
    else
      let single := convGroups d.ws ≠ 1 || d.op = 2
      let limit := kLimit (max (rateClass d.inp.fmt) (rateClass (tref (wd d.ws 2)).fmt)) (d.op = 3)
      let first := l.filter (fun e => e.geo.koffY = 0 && e.geo.koffX = 0)
      let channels := (first.map (fun e => convPerTap e.op e.ws)).sum
      let want := canonical k.1 k.2 channels limit single
      let got := l.map (fun e => (e.geo.koffY, e.geo.koffX, e.geo.kh, e.geo.kw,
        (8 * e.inp.base - 8 * d.inp.base) / e.inp.fmt.bits, convPerTap e.op e.ws))
      k.1 ≤ 64 && k.2 ≤ 64 && ceilDiv k.1 7 * ceilDiv k.2 7 ≤ 64 && l.all (fun e => d.inp.base ≤ e.inp.base)
        && (if whole then got = want else got = want.take got.length)

/-! ### At the core (R124) -/

/-- The chains of a Seat's CONV descriptors that may still go on, latest first, with `d` behind the one that it follows. -/
def seatChains (cs : List (List (List Nat))) (ws : List Nat) : List (List ConvD) :=
  let old := cs.map (fun c => c.map (fun w => (⟨0, 0, w⟩ : ConvD)))
  match chainAdd ⟨0, 0, ws⟩ old with
  | some r => r
  | none => [⟨0, 0, ws⟩] :: old

/-- R124 at the core: no layer that a CONV descriptor carries on, or ends, breaks R130 or R131. One that writes CARRY may go on. -/
def State.convChainOk (s : State) (g : Nat) (ws : List Nat) : Bool :=
  let d : ConvD := ⟨0, 0, ws⟩
  match (seatChains (s.seat g).convs ws).find? (fun c => c.head? = some d) with
  | none => true
  | some c => match (layersOf c.reverse).getLast? with
    | none => true
    | some l => layerOk (d.out.fmt ≠ .carry) l

/-- The Seat has issued a CONV descriptor: its chain grows, and a chain that has ended is gone. -/
def State.noteConv (s : State) (g : Nat) (ws : List Nat) : State :=
  let cs := (seatChains (s.seat g).convs ws).filter (fun c => match c with | d :: _ => d.out.fmt = .carry | [] => false)
  s.setSeat g { s.seat g with convs := cs.map (fun c => c.map (fun d => d.ws)) }

end Sys2Proof.Machine
end

