-- ==== Sys2Proof/Machine/Conv.lean ====
section
/-! DEFINITION. The CONV descriptors (02_tensor_core R57-R60; 05_convolution_pooling R122-R133). -/

namespace Sys2Proof.Machine

/-- R125: a CONV descriptor, which R124 checks with the passes before it. -/
def State.conv (s : State) (g op : Nat) : State :=
  s.issue g 2 op (fun u ws => convOk op g u ws && u.convChainOk g ws) (fun t ws =>
    let r := t.runArray g ws (convAcc ws) (convAccRanges ws) (convReads op ws) (convWrites ws) (tref (wd ws 3))
      (fun e => e.convOuts (t.shareOf g).1 (t.rd (CLC_SEAT_PADCONST.VALUE (g / 64) (g % 64))) op ws)
    r.when ((t.seat g).flight.length < (r.seat g).flight.length) (fun u => u.noteConv g ws))

/-! ### The commands -/

/-- CONV STANDARD (R125). -/
def execConvStandard (seat : Fin 1024) (s : State) : Host.Outcome State Fault Refusal := .next (s.live (s.conv seat.val 0))

/-- CONV GROUPED (R127). -/
def execConvGrouped (seat : Fin 1024) (s : State) : Host.Outcome State Fault Refusal := .next (s.live (s.conv seat.val 1))

/-- CONV DEPTHWISE (R127). -/
def execConvDepthwise (seat : Fin 1024) (s : State) : Host.Outcome State Fault Refusal := .next (s.live (s.conv seat.val 2))

/-- CONV SPARSE24 (R57). -/
def execConvSparse24 (seat : Fin 1024) (s : State) : Host.Outcome State Fault Refusal := .next (s.live (s.conv seat.val 3))

end Sys2Proof.Machine
end

