-- ==== Sys2Proof/Machine/Mladnel.lean ====
section
/-! DEFINITION. The Mladnel block: taking requests, the checks of R419, serving and replying, HELLO, events, and the requests of
Proctor's fault service (13_firmware_mladnel R310-R321, R419; 11_fault_collection R275). -/

namespace Sys2Proof.Machine

/-! ### The opcodes (R316) -/

/-- One opcode: allowed on slice and on privileged mailboxes, its feature bit, the payload lengths it takes, and whether its
reply carries a payload. -/
structure OpInfo where
  onSlice : Bool
  onPriv : Bool
  feature : Nat
  lenOk : Nat → Bool
  reply : Bool

/-- The opcodes other than HELLO. -/
def opInfo : Nat → Option OpInfo
  | 0x0002 => some ⟨true, false, 0, (· = 0), false⟩
  | 0x0003 => some ⟨true, false, 0, (· = 0), false⟩
  | 0x0004 => some ⟨true, false, 0, (· = 0), false⟩
  | 0x0005 => some ⟨true, true, 0, (· = 0), false⟩
  | 0x0006 => some ⟨false, true, 10, (· = 304), false⟩
  | 0x0010 => some ⟨true, false, 1, (· = 16), true⟩
  | 0x0011 => some ⟨true, false, 1, (· = 0), false⟩
  | 0x0012 => some ⟨true, false, 1, (· = 0), false⟩
  | 0x0020 => some ⟨true, false, 2, (· = 24), false⟩
  | 0x0021 => some ⟨true, false, 2, (· = 0), false⟩
  | 0x0022 => some ⟨true, false, 2, (· = 0), false⟩
  | 0x0030 => some ⟨false, true, 3, (fun n => n % 24 = 0 && n ≤ 384), false⟩
  | 0x0031 => some ⟨false, true, 3, (· = 24), false⟩
  | 0x0032 => some ⟨false, true, 3, (· = 12), false⟩
  | 0x0100 => some ⟨true, true, 6, (· = 0), false⟩
  | 0x0101 => some ⟨false, true, 6, (· = 0), false⟩
  | 0x0200 => some ⟨true, true, 7, (· = 0), true⟩
  | 0x0201 => some ⟨true, false, 7, (fun n => 1 ≤ n && n ≤ 64), true⟩
  | 0x0202 => some ⟨false, true, 8, (1 ≤ ·), false⟩
  | 0x0203 => some ⟨false, true, 8, (1 ≤ ·), false⟩
  | 0x0300 => some ⟨false, true, 4, (· = 16), false⟩
  | 0x0301 => some ⟨false, true, 4, (· = 0), false⟩
  | 0x0302 => some ⟨false, true, 5, (fun n => n = 0 || n = 64), false⟩
  | 0x0303 => some ⟨false, true, 5, (fun n => n = 0 || n = 64), false⟩
  | _ => none

def isSliceMb (i : Nat) : Bool := i < 64

/-- R419 step 6: the header fields of a request (R311). -/
def headerOk (i : Nat) (h : List Byte) (o : OpInfo) : Bool :=
  (hFlags h = 0 || (hFlags h = 4 && hOp h = 0x0011)) && hSlice h < 64 && (!isSliceMb i || hSlice h = i)
    && hStatus h = 0 && hReplyLen h = 0 && hLen h ≤ 4096 && o.lenOk (hLen h)
    && hAddr h % 64 = 0 && hAddr h < 2 ^ 48 && ((hAddr h = 0) = (hLen h = 0 && !o.reply))

/-- A HELLO skips steps 1 to 7; its server checks its header fields the same way (R318, R419). -/
def helloInfo : OpInfo := ⟨true, true, 0, (· = 16), true⟩

/-- R313, R419 steps 1 to 7: the status, ARG and whether MLMB_PROTOCOL_ERR is raised, for the first check that fails. -/
def State.mlmbCheck (s : State) (i : Nat) (h : List Byte) : Option (Nat × Nat × Bool) :=
  let seq := s.rd (MLMB_MB_STATUS.EXPECT_SEQ i)
  if hOp h = 0x0001 then none
  else if hSeq h ≠ seq then some (msBadarg, seq, true)
  else if !s.on (MLMB_MB_STATUS.NEGOTIATED i) then some (msVersion, 0, false)
  else
    match opInfo (hOp h) with
    | none => some (msBadarg, 0, true)
    | some o =>
      if !(if isSliceMb i then o.onSlice else o.onPriv) then some (msBadarg, 0, false)
      else if !bit (s.rd (MLMB_MB_FEATURES.FEATURES i)) o.feature then some (msVersion, 0, false)
      else if !headerOk i h o then some (msBadarg, 0, false)
      else if isSliceMb i && hOp h ≠ 0x0004 && (s.slice i).phase ≠ 1 then some (msDenied, 0, false)
      else none

/-- The answer to a secure request while the Security Core is not there (R21, R294, R295): it has not been loaded, restarts, has failed, or has no
clock. -/
def State.secAway (s : State) : Option Nat :=
  match s.rd SEC_STATE.SC_STATE with
  | 1 => if s.domainOn 5 then none else some msRestarting
  | 3 => some msFault
  | _ => some msRestarting

/-- R21, R294, R295, R308, R322: the answer of the MLMB block for a server that cannot take the request now, be it that it has not been loaded,
restarts, has failed or has lost its clock. -/
def State.serverAway (s : State) (op : Nat) : Option Nat :=
  match op / 256 with
  | 0 => if s.rd MLMB_FW_STATE.REGISTRAR = 3 then some msFault else none
  | 1 => match s.rd MLMB_FW_STATE.PMC with | 1 => if s.domainOn 3 then none else some msBusy | 3 => some msFault | _ => some msBusy
  | 2 => s.secAway
  | 3 => if s.rd MLMB_FW_STATE.PROCTOR = 3 || !s.domainOn 11 then some msFault else none
  | _ => none

/-- The server of an opcode runs. -/
def State.serverUp (s : State) (op : Nat) : Bool :=
  match op / 256 with
  | 0 => s.regRunning
  | 1 => s.pmcRunning
  | 2 => s.scRunning
  | _ => s.procRunning

/-! ### Taking a request (R313, R314, R332, R419) -/

/-- The sender of the oldest request in the ring, and the others. -/
def Mailbox.popSender (m : Mailbox) : Initiator × Mailbox :=
  match m.senders with
  | [] => (registrar, m)
  | w :: t => (w, { m with senders := t })

/-- A request taken from a slice mailbox counts as a heartbeat (R332). -/
def State.beat (s : State) (i : Nat) : State :=
  if isSliceMb i && (s.slice i).phase = 1 then s.setSlice i { s.slice i with lastBeat := s.clock.up } else s

/-- R314: an earlier request of mailbox `i` to server `k` is still to be answered: a load in progress, a forced unload, a run of R333, a lifecycle
change. -/
def State.answersLater (s : State) (i k : Nat) : Bool :=
  if k = 0 then
    s.lessons.any (fun p => match p.2.releaseMb with | some r => r.1 = i | none => false)
      || s.slices.any (fun p => p.2.runReplies.any (fun r => r.1 = i))
      || (match s.reg.loading with | some d => d.mb = i | none => false)
  else if k = 2 then (match s.sec.pendingLife with | some r => r.1 = i | none => false)
  else false

/-- The requests of mailbox `i` that server `k` has taken and not answered are answered by the MLMB block (R322). -/
def State.answerMb (s : State) (i k status : Nat) : State :=
  let mine := fun (r : Req) => hOp r.header / 256 = k
  let m := s.mb i
  (s.setMb i { m with taken := m.taken.filter (fun r => !mine r) }).each (m.taken.filter mine) (fun v r =>
    v.sendReply i (replyHeader r.header status 0 0))

/-- The request goes to its server, with the features and the state of the slice as they are now (R320, R335). -/
def State.holdRequest (s : State) (i : Nat) (w : Initiator) (h : List Byte) (met : Bool) : State :=
  let m := s.mb i
  (s.setMb i { m with taken := m.taken ++ [⟨h, w, s.rd (MLMB_MB_FEATURES.FEATURES i), met⟩] }).when
    (hOp h = 0x0010) (fun t => { t with reg := { t.reg with arrivals := t.reg.arrivals ++ [i], lastLoad := i } })

/-- A request has been read from the ring (R313, R322, R332, R335, R419): EXPECT_SEQ becomes its SEQ + 1, and it is answered at once or routed to its
server. One that the MLMB block answers for the server comes after the earlier ones to it (R314). -/
def State.routeRequest (s : State) (i : Nat) (w : Initiator) (h : List Byte) : State :=
  let s1 := (s.wr (MLMB_MB_STATUS.EXPECT_SEQ i) (hSeq h + 1)).beat i
  match s.mlmbCheck i h with
  | some (st, arg, err) => (s1.when err (fun t => t.raise srcMlmbProtocol)).sendReply i (replyHeader h st 0 arg)
  | none =>
    let met := isSliceMb i && (s.slice i).running
    match s1.serverAway (hOp h) with
    | some st =>
      if s1.answersLater i (hOp h / 256) then s1.holdRequest i w h met
      else (s1.answerMb i (hOp h / 256) st).sendReply i (replyHeader h st 0 0)
    | none => s1.holdRequest i w h met

/-- The opcode of the next request in the ring of mailbox `i`, where the ring and the reply queue let it be taken. -/
def State.frontOp (s : State) (i : Nat) : Option Nat :=
  let q := s.queue (reqQueue i)
  if q.occupancy = 0 || !s.repRoom i || s.qReadWaits (reqQueue i) q.cons then none else (s.qRead (reqQueue i) q.cons).2.map hOp

/-- R151: the Registrar takes LESSON_LOADs from the mailboxes in round robin: the next one behind the mailbox of the latest whose turn it can be. -/
def State.loadTurn (s : State) (i : Nat) : Bool :=
  s.frontOp i ≠ some 0x0010
    || ((List.range 68).map (fun k => (s.reg.lastLoad + 1 + k) % 68)).find? (fun j => s.frontOp j = some 0x0010) = some i

/-- MLMB_REQUEST_TAKE (R314): replies held for room go first; then the next request in ring order, while the reply queue has room. -/
def State.takeRequest (s0 : State) (i : Nat) : State :=
  let s := s0.flushReplies i (s0.mb i).held.length
  let n := reqQueue i
  let q := s.queue n
  if q.occupancy = 0 || !s.repRoom i || s.qReadWaits n q.cons || !s.loadTurn i then s
  else
    let p := s.qRead n q.cons
    let s1 := p.1.qConsume n
    let w := (s1.mb i).popSender
    let s2 := s1.setMb i w.2
    match p.2 with
    | none => s2.sendReply i (replyHeader (List.replicate 32 0#8) msBadarg 0 0)
    | some h => s2.routeRequest i w.1 h

/-! ### Serving (R312, R314) -/

/-- What a server answers: the state, STATUS, ARG and reply payload; `none` where the reply comes later. -/
structure Answer where
  st : State
  status : Nat
  arg : Nat
  payload : List Byte
  later : Bool

def State.answer (s : State) (status : Nat) : Answer := ⟨s, status, 0, [], false⟩
def State.answerArg (s : State) (arg : Nat) : Answer := ⟨s, msOk, arg, [], false⟩

/-- R314, R335: request `r` of mailbox `i`, for the server of `op`, waits for the answers to earlier ones. A DETACH or a SLICE_RESET does not wait for
what its own sequence ends or is merged with (R159, R335). -/
def State.standsBehind (s : State) (i op : Nat) (r : Req) : Bool :=
  if op = 0x0003 || op = 0x0005 then
    let other := fun (k : Nat) => k ≠ hSlice r.header
    s.lessons.any (fun p => other p.2.slice && (match p.2.releaseMb with | some q => q.1 = i | none => false))
      || s.slices.any (fun p => other p.1 && p.2.runReplies.any (fun q => q.1 = i))
      || (match s.reg.loading with | some d => d.mb = i && other d.lesson.slice | none => false)
  else s.answersLater i (op / 256)

/-- The oldest taken request of the mailbox for the server of `op`, if it is of that opcode, and the requests without it. -/
def takeFor (op : Nat) : List Req → List Req → Option (Req × List Req)
  | _, [] => none
  | seen, r :: t =>
    if hOp r.header / 256 = op / 256 then (if hOp r.header = op then some (r, seen ++ t) else none)
    else takeFor op (seen ++ [r]) t

/-- R312: write the reply payload and send the reply; an error response on the buffer makes it MS_BADARG. -/
def State.reply (s : State) (i : Nat) (who : Ctx) (h : List Byte) (status arg : Nat) (payload : List Byte) : State :=
  if payload.isEmpty then s.sendReply i (replyHeader h status 0 arg)
  else
    let p := s.ctxWrite who (hAddr h) payload
    if p.2 then p.1.sendReply i (replyHeader h status payload.length arg)
    else p.1.sendReply i (replyHeader h msBadarg 0 0)

/-- R312: the payload of a request, or none where its read gets an error response. -/
def State.payload (s : State) (who : Ctx) (h : List Byte) : State × Option (List Byte) :=
  if hLen h = 0 then (s, some []) else s.ctxRead who (hAddr h) (hLen h)

/-- R312: the reply buffer can be written; otherwise the violation is logged. -/
def State.bufferOk (s : State) (who : Ctx) (h : List Byte) (need : Bool) : State × Bool :=
  if !need then (s, true)
  else
    match s.memCheck who (hAddr h) 4096 true with
    | .viol v => (s.logViol v who (hAddr h) true, false)
    | .err => (s, false)
    | _ => (s, true)

/-- The server of `op` executes the request of that opcode that is due on mailbox `i`, and replies. Requests of one mailbox to one server are
answered in order (R314); one whose payload cannot be read yet stays due. -/
def State.serve (s : State) (i op : Nat) (run : State → Req → List Byte → Answer) : State :=
  if !s.serverUp op then s
  else
    match takeFor op [] (s.mb i).taken with
    | none => s
    | some (r, rest) =>
      let s1 := s.setMb i { s.mb i with taken := rest }
      let c := s1.ctx r.who
      let need := if op = 0x0001 then true else match opInfo op with | some o => o.reply | none => false
      let b := s1.bufferOk c r.header need
      if s.standsBehind i op r then s
      else if op = 0x0001 && !headerOk i r.header helloInfo then s1.sendReply i (replyHeader r.header msBadarg 0 0)
      else if hLen r.header ≠ 0 && s1.ctxWaits c (hAddr r.header) (hLen r.header) false then s
      else if !b.2 then b.1.sendReply i (replyHeader r.header msBadarg 0 0)
      else
        let p := b.1.payload c r.header
        match p.2 with
        | none => p.1.sendReply i (replyHeader r.header msBadarg 0 0)
        | some bs =>
          let a := run p.1 r bs
          if a.later then a.st else a.st.reply i c r.header a.status a.arg a.payload

/-! ### HELLO (R313, R319, R320) -/

/-- Features offered on a mailbox kind. -/
def offered (i : Nat) : Nat := if isSliceMb i then 0x2C7 else 0x7F9

/-- R319, R320: HELLO. A later one replaces only version and features, a failing one leaves them as they were; requests already taken are not
checked again. -/
def State.helloRun (s : State) (i : Nat) (bs : List Byte) : Answer :=
  if bs.length ≠ 16 || leAt bs 4 4 ≠ 0 then s.answer msBadarg
  else if !(leAt bs 0 2 ≤ 0x300 && 0x300 ≤ leAt bs 2 2) then s.answer msVersion
  else
    let f := leAt bs 8 8 &&& offered i
    let s1 := ((s.wr (MLMB_MB_STATUS.VERSION i) 0x300).wr (MLMB_MB_STATUS.NEGOTIATED i) 1).wr (MLMB_MB_FEATURES.FEATURES i) f
    ⟨s1, msOk, 0, leBytes 2 0x300 ++ leBytes 2 0x300 ++ leBytes 4 0 ++ leBytes 8 f, false⟩

/-! ### Proctor's fault requests (R275) -/

/-- The sources that FAULT_ACK or FAULT_CLEAR names; `none` where ARG or the payload is malformed. -/
def faultSources (arg : Nat) (bs : List Byte) : Option (List Nat) :=
  if bit arg 63 then
    if arg = 2 ^ 63 ∧ bs.length = 64 then some ((List.range 8).flatMap (fun k => sourcesOf k (leAt bs (8 * k) 8))) else none
  else if arg < 512 ∧ bs.isEmpty then some [arg] else none

def State.faultAckRun (s : State) (r : Req) (bs : List Byte) : Answer :=
  match faultSources (hArg r.header) bs with
  | none => s.answer msBadarg
  | some l => (s.each l State.ackSrc).answer msOk

/-- CLEAR returns the number of clears ignored under R274. -/
def State.faultClearRun (s : State) (r : Req) (bs : List Byte) : Answer :=
  match faultSources (hArg r.header) bs with
  | none => s.answer msBadarg
  | some l => (s.each l State.clearSrc).answerArg (l.filter (fun n => s.on (FCU_SRC_STATE.ASSERTING n))).length

/-! ### The commands -/

/-- MLMB_REQUEST_TAKE (R314). -/
def execMlmbRequestTake (mb : Fin 68) (s : State) : Host.Outcome State Fault Refusal := .next (s.live (s.takeRequest mb.val))

/-- R396: the report of a refused boot item: a reply of LESSON_LOAD with its STATUS; the spec does not give the other fields, which are free
values (log entry 36). -/
def State.bootReport (s : State) (i status : Nat) : State × List Byte :=
  let a := s.draw
  let b := a.2.draw
  let c := b.2.draw
  (c.2, leBytes 2 0x0010 ++ leBytes 1 1 ++ leBytes 1 i ++ leBytes 2 (Config.freeWord a.1).toNat ++ leBytes 2 status
    ++ leBytes 4 (Config.freeWord b.1).toNat ++ leBytes 4 0 ++ leBytes 8 0 ++ leBytes 8 (Config.freeWord c.1).toNat)

/-- R396: a boot item was refused: reported to the mailbox that negotiated LESSONS first, or kept for it. -/
def State.noteRefusal (s : State) (status : Nat) : State :=
  match s.boot.reportMb with
  | none => { s with boot := { s.boot with bootRefusals := s.boot.bootRefusals ++ [status] } }
  | some i =>
    let p := s.bootReport i status
    p.1.sendReply i p.2

/-- R396: the first mailbox that negotiates LESSONS gets the refusals kept so far. -/
def State.reportBoot (s : State) (i : Nat) : State :=
  if s.boot.reportMb.isSome || !s.on (MLMB_MB_STATUS.NEGOTIATED i) || !bit (s.rd (MLMB_MB_FEATURES.FEATURES i)) 1 then s
  else
    { s with boot := { s.boot with reportMb := some i, bootRefusals := [] } }.each s.boot.bootRefusals State.noteRefusal

/-- HELLO (R319). -/
def execHello (mb : Fin 68) (s : State) : Host.Outcome State Fault Refusal :=
  .next (s.live ((s.serve mb.val 0x0001 (fun t _ bs => t.helloRun mb.val bs)).reportBoot mb.val))

/-- EVENTS_LOST (R321): replies held for room go first; then, with room left, the event reports what was dropped. -/
def execEventsLost (mb : Fin 68) (s : State) : Host.Outcome State Fault Refusal :=
  let i := mb.val
  .next (s.live (
    let s1 := s.flushReplies i (s.mb i).held.length
    let m := s1.mb i
    if m.lostPending && s1.repRoom i then
      (s1.setMb i { m with lost := 0, lostPending := false }).sendEvent i 0x8003 m.lost
    else s1))

/-- MLMB_STATUS_READ (R14). -/
def execMlmbStatusRead (who : Initiator) (mb : Fin 68) (s : State) : Host.Outcome State Fault Refusal :=
  .next (s.live (s.regRd who .mlmb_mb_status mb.val 0 (fun t => t.reg64 (MLMB_MB_STATUS mb.val))
    (fun t => t.readClear (MLMB_MB_STATUS mb.val) (RegFam.fields .mlmb_mb_status))))

/-- FAULT_ACK (R275). -/
def execFaultAck (mb : Fin 68) (s : State) : Host.Outcome State Fault Refusal :=
  .next (s.live (s.serve mb.val 0x0302 (fun t r bs => t.faultAckRun r bs)))

/-- FAULT_CLEAR (R275). -/
def execFaultClear (mb : Fin 68) (s : State) : Host.Outcome State Fault Refusal :=
  .next (s.live (s.serve mb.val 0x0303 (fun t r bs => t.faultClearRun r bs)))

end Sys2Proof.Machine
end

