-- ==== Sys2Proof/Machine/Vector.lean ====
section
/-! DEFINITION. The vector unit: POOL and VEC (02_tensor_core R61, R416; 03_arithmetic R85-R92; 05_convolution_pooling
R134, R135). -/

namespace Sys2Proof.Machine

/-! ### POOL -/

/-- The window geometry of a POOL descriptor: dilation 1 and no tap offset (R134). -/
def poolGeo (ws : List Nat) : Geo :=
  ⟨fld ws 3 3 0 + 1, fld ws 3 7 4 + 1, fld ws 3 11 8 + 1, fld ws 3 15 12 + 1, 1, 1, fld ws 3 33 32, fld ws 3 19 16,
   fld ws 3 23 20, fld ws 3 27 24, fld ws 3 31 28, fld ws 4 15 0 + 1, fld ws 4 31 16 + 1, fld ws 4 47 32, fld ws 4 63 48,
   fld ws 5 5 0 + 1, fld ws 5 11 6 + 1, 0, 0⟩

def poolCh (ws : List Nat) : Nat := fld ws 5 21 12 + 1
def poolOc (ws : List Nat) : Nat := fld ws 5 47 32

/-- R49, R53, R74 for POOL. AVG_VALID takes no padding position (R135), so that its PAD_MODE is 0. -/
def poolFieldsOk (ws : List Nat) : Bool :=
  let i := tref (wd ws 1)
  let q := poolGeo ws
  i.ok && inFmt i.fmt && outOk (tref (wd ws 2)) (poolOc ws) poolOut
    && q.kh ≤ 15 && q.kw ≤ 15 && q.sh ≤ 15 && q.sw ≤ 15 && q.padT ≤ 14 && q.padB ≤ 14 && q.padL ≤ 14 && q.padR ≤ 14
    && q.padMode ≤ (if dOp ws = 1 then 0 else 2) && q.th * q.tw ≤ 64
    && fld ws 3 63 34 = 0 && fld ws 5 31 22 = 0 && fld ws 5 63 48 = 0 && wd ws 6 = 0 && wd ws 7 = 0

/-- R124 for POOL. -/
def poolShapeOk (size : Nat) (ws : List Nat) : Bool :=
  let q := poolGeo ws
  q.shapeOk && q.inputFits (tref (wd ws 1)) (poolCh ws) size && q.tileFits (tref (wd ws 2)) (poolCh ws) size

def poolOk (g : Nat) (s : State) (ws : List Nat) : Bool := poolFieldsOk ws && poolShapeOk (s.shareOf g).2 ws

/-- A count as FP32; every count of a window is exact. -/
def f32Nat (n : Nat) : F32 := f32to (numOfInt n)

/-- R89, R135: one POOL output. `op`: 0 MAX, 1 AVG_VALID, 2 AVG_ALL. -/
def State.poolValue (s : State) (share padConst op : Nat) (ws : List Nat) (i j c : Nat) : F32 :=
  let t := tref (wd ws 1)
  let q := poolGeo ws
  let taps := if op = 1 then q.taps.filter (fun k => q.inside (q.tap i j k.1 k.2)) else q.taps
  let xs := taps.map (fun k => f32El t.fmt (s.window share q t padConst (q.tap i j k.1 k.2) c))
  match op, xs with
  | 0, x :: rest => rest.foldl fmax x
  | 0, [] => 0#32
  | _, [] => 0#32
  | _, xs => fdiv (xs.foldl fadd 0#32) (f32Nat xs.length)

/-- The OUT elements of a POOL by tile row, column and channel. -/
def State.poolOuts (s : State) (share pad op : Nat) (ws : List Nat) : List (Nat × Nat × Nat) :=
  let o := tref (wd ws 2)
  (poolGeo ws).positions.flatMap (fun ij => (List.range (poolCh ws)).map (fun c =>
    (8 * (share + o.base + ij.1 * o.s1 + ij.2 * o.s2) + c * o.fmt.bits, o.fmt.bits,
      outNum (poolOc ws) o.fmt (f32of (s.poolValue share pad op ws ij.1 ij.2 c)))))

/-- The share ranges that a POOL reads and writes. AVG_VALID takes no padding position, so none of EDGE either (R135). -/
def poolReads (op : Nat) (ws : List Nat) : List (Nat × Nat) :=
  let q := poolGeo ws
  (if op = 1 then { q with padMode := 0 } else q).touched (tref (wd ws 1)) (poolCh ws)
def poolWrites (ws : List Nat) : List (Nat × Nat) := (poolGeo ws).tileRanges (tref (wd ws 2)) (poolCh ws)

/-- R135: a POOL descriptor. -/
def State.pool (s : State) (g op : Nat) : State :=
  s.issue g 3 op (poolOk g) (fun t ws =>
    t.launch g ws ⟨0, poolReads op ws, poolReads op ws, poolWrites ws⟩ (fun e =>
      let outs := e.poolOuts (t.shareOf g).1 (t.rd (CLC_SEAT_PADCONST.VALUE (g / 64) (g % 64))) op ws
      ⟨outs, sigOuts (tref (wd ws 2)).fmt outs, (e.seat g).vregs, none⟩))

/-! ### VEC: fields and operands -/

def vecLen (ws : List Nat) : Nat := fld ws 5 11 0 + 1
def vecRows (ws : List Nat) : Nat := fld ws 5 23 12 + 1
def vecFunc (ws : List Nat) : Nat := fld ws 5 27 24
def vecOc (ws : List Nat) : Nat := fld ws 5 47 32
/-- Vector register number and USE_VREG of operand `o`: 0 A, 1 B, 2 C, 3 D. -/
def vecReg (ws : List Nat) (o : Nat) : Nat := fld ws 6 (6 * o + 4) (6 * o)
def vecUse (ws : List Nat) (o : Nat) : Bool := bit (wd ws 6) (6 * o + 5)
def vecImm (ws : List Nat) (o : Nat) : F32 := BitVec.ofNat 32 (if o = 1 then fld ws 7 31 0 else fld ws 7 63 32)

/-- Operands an opcode uses (R61). -/
def vecHas (op o : Nat) : Bool :=
  match o with
  | 1 => op ≤ 4 || op = 10
  | 2 => op = 2 || op = 10
  | _ => true

/-- Elements of operand `o` (R61). -/
def vecCount (op o : Nat) (ws : List Nat) : Nat :=
  if op = 10 ∧ (o = 1 ∨ o = 2) then vecLen ws
  else if op = 8 ∧ o = 3 then vecRows ws
  else vecRows ws * vecLen ws

/-- R416: operand B or C is the scalar immediate. -/
def vecScalar (op o : Nat) (ws : List Nat) : Bool :=
  (o = 1 || o = 2) && vecHas op o && !vecUse ws o && wd ws (o + 1) = 0

/-- A source or destination format is MX in CONVERT (R91). -/
def vecMxSrc (op : Nat) (ws : List Nat) : Bool := op = 9 && !vecUse ws 0 && (tref (wd ws 1)).fmt.isMx
def vecMxDst (op : Nat) (ws : List Nat) : Bool := op = 9 && !vecUse ws 3 && (tref (wd ws 4)).fmt.isMx

/-- R74: a VEC source format. -/
def vecSrcFmt (op : Nat) (f : Fmt) : Bool := (f ≠ .carry || op = 0 || op = 9) && (!f.isMx || op = 9)

/-- R74: a VEC destination format. -/
def vecDstFmt (op : Nat) (f : Fmt) : Bool :=
  poolOut f || (f = .carry && (op = 0 || op = 9)) || (op = 9 && (f.isMx || f = .e3m2 || f = .e2m3))

/-- The opcode has FUNC values 0 to this. -/
def vecFuncMax (op : Nat) : Nat := match op with | 5 => 5 | 7 => 1 | 8 => 2 | _ => 0

/-- R61: a vector-register operand of `n` elements ends at register 31. -/
def vregFits (r n : Nat) : Bool := r + ceilDiv n 64 ≤ 32

/-- R49, R61, R91, R416: a source operand. Of its TREF word and its register number the one that USE_VREG leaves unused is zero (log entry
74). -/
def vecSrcOk (op o : Nat) (ws : List Nat) : Bool :=
  let t := tref (wd ws (o + 1))
  if vecHas op o then
    if vecUse ws o then vregFits (vecReg ws o) (vecCount op o ws) && wd ws (o + 1) = 0
    else if vecReg ws o ≠ 0 then false
    else if vecScalar op o ws then true
    else t.ok && t.s2 = 0 && vecSrcFmt op t.fmt && (!(op = 10 && o ≠ 0) || t.s1 = 0)
  else if (o = 1 && vecMxSrc op ws) || (o = 2 && vecMxDst op ws) then t.code = 0 && t.s2 = 0 && vecReg ws o = 0 && !vecUse ws o
  else wd ws (o + 1) = 0 && vecReg ws o = 0 && !vecUse ws o

/-- R49, R74, R85: the destination. -/
def vecDstOk (op : Nat) (ws : List Nat) : Bool :=
  let t := tref (wd ws 4)
  if vecUse ws 3 then vregFits (vecReg ws 3) (vecCount op 3 ws) && wd ws 4 = 0 && vecOc ws = 0
  else outOk t (vecOc ws) (vecDstFmt op) && t.s2 = 0 && vecReg ws 3 = 0

/-- R49, R53, R61, R74, R85, R91, R416 for VEC. -/
def vecOk (op : Nat) (_s : State) (ws : List Nat) : Bool :=
  vecRows ws * vecLen ws ≤ 4096 && vecFunc ws ≤ vecFuncMax op && fld ws 5 31 28 = 0 && fld ws 5 63 48 = 0
    && fld ws 6 63 24 = 0 && vecSrcOk op 0 ws && vecSrcOk op 1 ws && vecSrcOk op 2 ws && vecDstOk op ws
    && (!(vecMxSrc op ws || vecMxDst op ws) || vecLen ws % 32 = 0)
    && (op = 7 || vecScalar op 1 ws || fld ws 7 31 0 = 0) && (vecScalar op 2 ws || fld ws 7 63 32 = 0)

/-- The encoding of element (r, l) of source operand `o` in Locker. -/
def State.vecEl (s : State) (share o : Nat) (ws : List Nat) (r l : Nat) : Nat :=
  let t := tref (wd ws (o + 1))
  s.elem t.fmt (share + t.base + r * t.s1) l

/-- The row of operand `o` that result row `r` reads: B and C of SCALE have one row. -/
def vecRow (op o r : Nat) : Nat := if op = 10 ∧ o ≠ 0 then 0 else r

/-- Element (r, l) of operand `o` as an exact number, with the MX scale of CONVERT (R85, R90, R91). -/
def State.vecNum (s : State) (x : SeatX) (share op o : Nat) (ws : List Nat) (r l : Nat) : Num :=
  let row := vecRow op o r
  if vecUse ws o then f32of (x.vreg (vecReg ws o) (row * vecLen ws + l))
  else if vecScalar op o ws then f32of (vecImm ws o)
  else
    let t := tref (wd ws (o + 1))
    let v := numEl t.fmt (s.vecEl share o ws row l)
    if vecMxSrc op ws then
      let b := tref (wd ws 2)
      scaled (s.byte (share + b.base + r * b.s1 + l / 32)).toNat v
    else v

/-- Element (r, l) of operand `o` as FP32 (R85). -/
def State.vecF32 (s : State) (x : SeatX) (share op o : Nat) (ws : List Nat) (r l : Nat) : F32 :=
  let row := vecRow op o r
  if vecUse ws o then x.vreg (vecReg ws o) (row * vecLen ws + l)
  else if vecScalar op o ws then vecImm ws o
  else f32to (s.vecNum x share op o ws r l)

/-- Element (r, l) of operand `o` as a MODE 0 lane (R92). -/
def State.vecLane (s : State) (x : SeatX) (share op o : Nat) (ws : List Nat) (r l : Nat) : Lane :=
  let t := tref (wd ws (o + 1))
  if !vecUse ws o && !vecScalar op o ws && t.fmt = .carry then (Lane.ofBits (s.vecEl share o ws (vecRow op o r) l)).exact
  else Lane.ofNum (s.vecNum x share op o ws r l)

/-! ### VEC: arithmetic (R86-R88) -/

def f32Const (w : Nat) : F32 := BitVec.ofNat 32 w
def f32One : F32 := f32Const 0x3F800000
def f32Two : F32 := f32Const 0x40000000
def f32MinusOne : F32 := f32Const 0xBF800000
def f32Half : F32 := f32Const 0x3F000000
def f32Inf (neg : Bool) : F32 := f32Const (if neg then 0xFF800000 else 0x7F800000)

/-- R88: exp. Where x times 1/ln 2 leaves the FP32 range there is no nearest integer: the value is free (log entry 9). -/
def fexp (x : F32) : F32 :=
  match f32of x with
  | .nan => f32to .nan
  | .inf neg => if neg then 0#32 else f32Inf false
  | .fin _ _ _ =>
    match f32of (fmul x (f32Const 0x3FB8AA3B)) with
    | .fin neg m e =>
      let n := Num.rint (.fin neg m e)
      let mn := fneg (f32to (numOfInt n))
      let r := ffma mn (f32Const 0xB102E308) (ffma mn (f32Const 0x3F317218) x)
      let p := [0x3C088889, 0x3D2AAAAB, 0x3E2AAAAB, 0x3F000000, 0x3F800000, 0x3F800000].foldl
        (fun p k => ffma p r (f32Const k)) (f32Const 0x3AB60B61)
      f32to ((f32of p).scale n)
    | _ => Config.expOpen x

def fsigmoid (x : F32) : F32 := fdiv f32One (fadd f32One (fexp (fneg x)))
def ftanh (x : F32) : F32 := ffma f32Two (fsigmoid (fmul f32Two x)) f32MinusOne
def fgelu (x : F32) : F32 :=
  let a := fmul x x
  let b := ffma a (f32Const 0x3D372713) f32One
  let c := fmul (fmul x b) (f32Const 0x3F4C422A)
  let h := fmul f32Half x
  ffma h (ftanh c) h

/-- ACT by FUNC. -/
def factivate (func : Nat) (x : F32) : F32 :=
  match func with
  | 0 => fmax x 0#32
  | 1 => fgelu x
  | 2 => fsigmoid x
  | 3 => ftanh x
  | 4 => fmul x (fsigmoid x)
  | _ => fexp x

/-- One level of the pairwise tree of R87. -/
def pairUp (op : F32 → F32 → F32) : List F32 → List F32
  | a :: b :: t => op a b :: pairUp op t
  | l => l

/-- R87: the reduction of a row. -/
def rowReduce (op : F32 → F32 → F32) (identity : F32) (xs : List F32) : F32 :=
  let lanes := (List.range 64).map (fun l =>
    (List.range (ceilDiv xs.length 64)).foldl (fun acc k => if 64 * k + l < xs.length then op acc (xs.getD (64 * k + l) 0#32) else acc)
      identity)
  (pairUp op (pairUp op (pairUp op (pairUp op (pairUp op (pairUp op lanes)))))).headD identity

def rowSum (xs : List F32) : F32 := rowReduce fadd 0#32 xs
def rowMax (xs : List F32) : F32 := rowReduce fmax (f32Inf true) xs
def rowMin (xs : List F32) : F32 := rowReduce fmin (f32Inf false) xs

/-- R88: SOFTMAX of a row. -/
def softmaxRow (xs : List F32) : List F32 :=
  let m := rowMax xs
  let es := xs.map (fun x => fexp (fsub x m))
  let s := rowSum es
  es.map (fun e => fdiv e s)

/-- R88: NORM of a row with epsilon. -/
def normRow (func : Nat) (eps : F32) (xs : List F32) : List F32 :=
  let n := f32Nat xs.length
  if func = 0 then
    let mu := fdiv (rowSum xs) n
    let ds := xs.map (fun x => fsub x mu)
    let v := fdiv (rowSum (ds.map (fun d => fmul d d))) n
    let r := frsqrt (fadd v eps)
    ds.map (fun d => fmul d r)
  else
    let ms := fdiv (rowSum (xs.map (fun x => fmul x x))) n
    let r := frsqrt (fadd ms eps)
    xs.map (fun x => fmul x r)

/-- A row of operand A as FP32. -/
def State.vecRowA (s : State) (x : SeatX) (share op : Nat) (ws : List Nat) (r : Nat) : List F32 :=
  (List.range (vecLen ws)).map (fun l => s.vecF32 x share op 0 ws r l)

/-- The FP32 results of row `r`, for every opcode but CONVERT (R85-R88). -/
def State.vecResult (s : State) (x : SeatX) (share op : Nat) (ws : List Nat) (r : Nat) : List F32 :=
  let a := fun l => s.vecF32 x share op 0 ws r l
  let b := fun l => s.vecF32 x share op 1 ws r l
  let c := fun l => s.vecF32 x share op 2 ws r l
  let cols := List.range (vecLen ws)
  match op with
  | 0 => cols.map (fun l => fadd (a l) (b l))
  | 1 => cols.map (fun l => fmul (a l) (b l))
  | 2 => cols.map (fun l => ffma (a l) (b l) (c l))
  | 3 => cols.map (fun l => fmax (a l) (b l))
  | 4 => cols.map (fun l => fmin (a l) (b l))
  | 5 => cols.map (fun l => factivate (vecFunc ws) (a l))
  | 6 => softmaxRow (s.vecRowA x share op ws r)
  | 7 => normRow (vecFunc ws) (vecImm ws 1) (s.vecRowA x share op ws r)
  | 8 => [(match vecFunc ws with | 0 => rowSum | 1 => rowMax | _ => rowMin) (s.vecRowA x share op ws r)]
  | 9 => cols.map (fun l => f32to (s.vecNum x share op 0 ws r l))
  | _ => cols.map (fun l => ffma (a l) (b l) (c l))

/-! ### MX destinations (R91) -/

/-- emax of R91. -/
def mxEmax (f : Fmt) : Int := match f with | .mx8e4m3 => 8 | .mx8e5m2 => 15 | .mx6e3m2 => 4 | _ => 2

/-- floor(log2 |x|) of a finite non-zero number. -/
def numExp : Num → Int
  | .fin _ m e => e + (bitLen m : Int) - 1
  | _ => 0

/-- R91: scale and elements of one block of 32. -/
def mxBlock (f : Fmt) (xs : List Num) : Nat × List Nat :=
  if xs.any (fun x => match x with | .fin _ _ _ => false | _ => true) then (0xFF, xs.map (fun _ => 0))
  else if xs.all Num.isZero then (0, xs.map (fun _ => 0))
  else
    let top := (xs.filter (fun x => !x.isZero)).foldl (fun m x => max m (numExp x)) (-100000)
    let e := clampInt (-127) 127 (top - mxEmax f)
    ((e + 127).toNat, xs.map (fun x => f.encode true false (x.scale (-e))))

/-! ### VEC: running -/

/-- Ranges of a source operand in Locker. -/
def vecSrcRanges (op o : Nat) (ws : List Nat) : List (Nat × Nat) :=
  if !vecHas op o || vecUse ws o || vecScalar op o ws then []
  else rowRanges (tref (wd ws (o + 1))) (if op = 10 && o ≠ 0 then 1 else vecRows ws) (vecLen ws)

/-- Ranges of MX scale rows (R91). -/
def mxScaleRanges (t : Tref) (ws : List Nat) : List (Nat × Nat) :=
  (List.range (vecRows ws)).map (fun r => (t.base + r * t.s1, vecLen ws / 32))

/-- Ranges of D in Locker. -/
def vecDstRanges (op : Nat) (ws : List Nat) : List (Nat × Nat) :=
  if vecUse ws 3 then []
  else rowRanges (tref (wd ws 4)) (vecRows ws) (if op = 8 then 1 else vecLen ws)
    ++ (if vecMxDst op ws then mxScaleRanges (tref (wd ws 3)) ws else [])

/-- The D elements of row `r` written to Locker, and the scale bytes of an MX destination. -/
def State.vecOutRow (s : State) (x : SeatX) (share op : Nat) (ws : List Nat) (r : Nat) :
    List (Nat × Nat × Nat) × List (Nat × Nat × Nat) :=
  let d := tref (wd ws 4)
  let f := d.fmt
  let oc := vecOc ws
  let place := fun (vs : List Nat) =>
    (indexed 0 vs).map (fun p => (8 * (share + d.base + r * d.s1) + p.1 * f.bits, f.bits, p.2))
  let cols := List.range (vecLen ws)
  if vecMxDst op ws then
    let c := tref (wd ws 3)
    let blocks := (List.range (vecLen ws / 32)).map (fun k =>
      mxBlock f ((List.range 32).map (fun l => (s.vecNum x share op 0 ws r (32 * k + l)).scale (ocShift oc))))
    (place (blocks.flatMap (·.2)),
     (indexed 0 blocks).map (fun p => (8 * (share + c.base + r * c.s1 + p.1), 8, p.2.1)))
  else if f = .carry then
    (place (cols.map (fun l =>
      if op = 0 then ((s.vecLane x share op 0 ws r l).addLanes (s.vecLane x share op 1 ws r l)).toBits
      else (Lane.ofNum (s.vecNum x share op 0 ws r l)).toBits)), [])
  else if op = 9 then (place (cols.map (fun l => outNum oc f (s.vecNum x share op 0 ws r l))), [])
  else (place ((s.vecResult x share op ws r).map (fun v => outNum oc f (f32of v))), [])

/-- The vector registers after results, in row-major order from register `r`. -/
def SeatX.putVregs (x : SeatX) (r : Nat) (vs : List F32) : Table (BitVec 32) :=
  (indexed (64 * r) vs).foldl (fun t p => Table.set t 0#32 p.1 p.2) x.vregs

/-- What a VEC descriptor gives from a state and the Seat as it stands (R61, R85, R236). -/
def State.vecRun (s : State) (x : SeatX) (share op : Nat) (ws : List Nat) : Result :=
  let rows := List.range (vecRows ws)
  if vecUse ws 3 then
    let vs := rows.flatMap (fun r => s.vecResult x share op ws r)
    ⟨[], vs.flatMap (fun v => leBytes 4 v.toNat), x.putVregs (vecReg ws 3) vs, none⟩
  else
    let outs := rows.map (fun r => s.vecOutRow x share op ws r)
    let els := outs.flatMap (·.1)
    ⟨els ++ outs.flatMap (·.2), sigOuts (tref (wd ws 4)).fmt els, x.vregs, none⟩

/-- The share ranges that a VEC reads. -/
def vecReads (op : Nat) (ws : List Nat) : List (Nat × Nat) :=
  vecSrcRanges op 0 ws ++ vecSrcRanges op 1 ws ++ vecSrcRanges op 2 ws
    ++ (if vecMxSrc op ws then mxScaleRanges (tref (wd ws 2)) ws else [])

/-- A VEC descriptor of opcode `op`. -/
def State.vec (s : State) (g op : Nat) : State :=
  s.issue g 4 op (vecOk op) (fun t ws =>
    t.launch g ws ⟨0, vecReads op ws, vecReads op ws, vecDstRanges op ws⟩ (fun e => e.vecRun (e.seat g) (t.shareOf g).1 op ws))

/-! ### The commands -/

/-- POOL MAX (R135). -/
def execPoolMax (seat : Fin 1024) (s : State) : Host.Outcome State Fault Refusal := .next (s.live (s.pool seat.val 0))

/-- POOL AVG_VALID (R135). -/
def execPoolAvgValid (seat : Fin 1024) (s : State) : Host.Outcome State Fault Refusal := .next (s.live (s.pool seat.val 1))

/-- POOL AVG_ALL (R135). -/
def execPoolAvgAll (seat : Fin 1024) (s : State) : Host.Outcome State Fault Refusal := .next (s.live (s.pool seat.val 2))

/-- VEC ADD (R85, R92). -/
def execVecAdd (seat : Fin 1024) (s : State) : Host.Outcome State Fault Refusal := .next (s.live (s.vec seat.val 0))

/-- VEC MUL (R85). -/
def execVecMul (seat : Fin 1024) (s : State) : Host.Outcome State Fault Refusal := .next (s.live (s.vec seat.val 1))

/-- VEC FMA (R85). -/
def execVecFma (seat : Fin 1024) (s : State) : Host.Outcome State Fault Refusal := .next (s.live (s.vec seat.val 2))

/-- VEC MAX (R86). -/
def execVecMax (seat : Fin 1024) (s : State) : Host.Outcome State Fault Refusal := .next (s.live (s.vec seat.val 3))

/-- VEC MIN (R86). -/
def execVecMin (seat : Fin 1024) (s : State) : Host.Outcome State Fault Refusal := .next (s.live (s.vec seat.val 4))

/-- VEC ACT (R88). -/
def execVecAct (seat : Fin 1024) (s : State) : Host.Outcome State Fault Refusal := .next (s.live (s.vec seat.val 5))

/-- VEC SOFTMAX (R88). -/
def execVecSoftmax (seat : Fin 1024) (s : State) : Host.Outcome State Fault Refusal := .next (s.live (s.vec seat.val 6))

/-- VEC NORM (R88). -/
def execVecNorm (seat : Fin 1024) (s : State) : Host.Outcome State Fault Refusal := .next (s.live (s.vec seat.val 7))

/-- VEC REDUCE (R87). -/
def execVecReduce (seat : Fin 1024) (s : State) : Host.Outcome State Fault Refusal := .next (s.live (s.vec seat.val 8))

/-- VEC CONVERT (R90, R91). -/
def execVecConvert (seat : Fin 1024) (s : State) : Host.Outcome State Fault Refusal := .next (s.live (s.vec seat.val 9))

/-- VEC SCALE (R61). -/
def execVecScale (seat : Fin 1024) (s : State) : Host.Outcome State Fault Refusal := .next (s.live (s.vec seat.val 10))

end Sys2Proof.Machine
end

