-- ==== Sys2Proof/Machine/Post.lean ====
section
/-! DEFINITION. The post-processing unit: DECODE and SUPPRESS (05_convolution_pooling R136-R144). -/

namespace Sys2Proof.Machine

/-! ### Fields -/

def ppCount (ws : List Nat) : Nat := fld ws 5 12 0 + 1
def decClasses (ws : List Nat) : Nat := fld ws 5 20 13 + 1
def decThr (ws : List Nat) : F32 := BitVec.ofNat 32 (fld ws 5 63 32)
def ppHi (ws : List Nat) (i : Nat) : F32 := BitVec.ofNat 32 (fld ws i 63 32)
def ppLo (ws : List Nat) (i : Nat) : F32 := BitVec.ofNat 32 (fld ws i 31 0)

/-- Finite and greater than 0 (R138). -/
def f32Positive (w : F32) : Bool :=
  match f32of w with
  | .fin neg m _ => !neg && 0 < m
  | _ => false

/-- R137: a REG, PRIOR or SCORE operand. -/
def ppInOk (t : Tref) : Bool := t.ok && (inFmt t.fmt || t.fmt = .fp32) && t.s2 = 0

/-- R136, R137: a BOXES operand. -/
def boxesOk (t : Tref) : Bool := t.code = 0 && t.s1 = 32 && t.s2 = 0 && t.base % 32 = 0

/-- R49, R137, R138 for DECODE; `op` 0 ANCHOR, 1 CENTRE. -/
def decodeOk (op : Nat) (_s : State) (ws : List Nat) : Bool :=
  ppInOk (tref (wd ws 1)) && ppInOk (tref (wd ws 2)) && ppInOk (tref (wd ws 3)) && boxesOk (tref (wd ws 4))
    && fld ws 5 31 21 = 0 && !fnan (decThr ws) && f32Positive (ppLo ws 7) && f32Positive (ppHi ws 7)
    && (if op = 0 then wd ws 6 = 0 else f32Positive (ppLo ws 6) && f32Positive (ppHi ws 6))

/-! ### DECODE -/

/-- Element `i` of position `p` as FP32. -/
def State.ppElem (s : State) (share : Nat) (t : Tref) (p i : Nat) : F32 :=
  f32El t.fmt (s.elem t.fmt (share + t.base + p * t.s1) i)

/-- R140 step 1: the best class and its score, NaN scores left out. -/
def bestClass (scores : List F32) : Option (Nat × F32) :=
  (indexed 0 scores).foldl (fun best q =>
    if fnan q.2 then best
    else match best with
      | none => some q
      | some b => if flt b.2 q.2 then some q else best) none

/-- R136: the 32 bytes of a box record. -/
def boxRecord (x0 y0 x1 y1 score : F32) (cls : Nat) : List Byte :=
  leBytes 4 x0.toNat ++ leBytes 4 y0.toNat ++ leBytes 4 x1.toNat ++ leBytes 4 y1.toNat ++ leBytes 4 score.toNat
    ++ leBytes 2 cls ++ leBytes 10 0

/-- R139, R140: the record of position `p`. -/
def State.decodeRecord (s : State) (share op : Nat) (ws : List Nat) (p : Nat) : List Byte :=
  let reg := fun i => s.ppElem share (tref (wd ws 1)) p i
  let pri := fun i => s.ppElem share (tref (wd ws 2)) p i
  let box :=
    if op = 0 then
      let cx := fadd (pri 0) (fmul (reg 0) (pri 2))
      let cy := fadd (pri 1) (fmul (reg 1) (pri 3))
      let hw := fmul (fmul (pri 2) (fexp (reg 2))) f32Half
      let hh := fmul (fmul (pri 3) (fexp (reg 3))) f32Half
      (fsub cx hw, fsub cy hh, fadd cx hw, fadd cy hh)
    else
      let sx := ppLo ws 6
      let sy := ppHi ws 6
      let cx := fmul (fadd (pri 0) f32Half) sx
      let cy := fmul (fadd (pri 1) f32Half) sy
      (fsub cx (fmul (reg 0) sx), fsub cy (fmul (reg 1) sy), fadd cx (fmul (reg 2) sx), fadd cy (fmul (reg 3) sy))
  let clip := fun x lim => fmin (fmax x 0#32) lim
  let x0 := clip box.1 (ppLo ws 7)
  let y0 := clip box.2.1 (ppHi ws 7)
  let x1 := clip box.2.2.1 (ppLo ws 7)
  let y1 := clip box.2.2.2 (ppHi ws 7)
  let scores := (List.range (decClasses ws)).map (fun c => s.ppElem share (tref (wd ws 3)) p c)
  let none32 := boxRecord 0#32 0#32 0#32 0#32 (f32Inf true)
  match bestClass scores with
  | none => none32 0xFFFE
  | some (c, v) =>
    if fnan x0 || fnan y0 || fnan x1 || fnan y1 then none32 0xFFFE
    else if flt v (decThr ws) then none32 0xFFFF
    else boxRecord x0 y0 x1 y1 v c

/-- The share ranges that a DECODE reads and writes. -/
def decodeReads (op : Nat) (ws : List Nat) : List (Nat × Nat) :=
  let n := ppCount ws
  rowRanges (tref (wd ws 1)) n 4 ++ rowRanges (tref (wd ws 2)) n (if op = 0 then 4 else 2)
    ++ rowRanges (tref (wd ws 3)) n (decClasses ws)
def decodeWrites (ws : List Nat) : List (Nat × Nat) := [((tref (wd ws 4)).base, 32 * ppCount ws)]

/-- The box records of a DECODE, as bytes. -/
def State.decodeBytes (s : State) (share op : Nat) (ws : List Nat) : List Byte :=
  (List.range (ppCount ws)).flatMap (fun p => s.decodeRecord share op ws p)

/-- Bytes from address `a` as outputs. -/
def byteOuts (a : Nat) (bs : List Byte) : List (Nat × Nat × Nat) := (indexed a bs).map (fun q => (8 * q.1, 8, q.2.toNat))

/-- R139: a DECODE descriptor. -/
def State.decode (s : State) (g op : Nat) : State :=
  s.issue g 5 op (decodeOk op) (fun t ws =>
    t.launch g ws ⟨1, decodeReads op ws, decodeReads op ws, decodeWrites ws⟩ (fun e =>
      let bytes := e.decodeBytes (t.shareOf g).1 op ws
      ⟨byteOuts ((t.shareOf g).1 + (tref (wd ws 4)).base) bytes, bytes, (e.seat g).vregs, none⟩))

/-! ### SUPPRESS -/

def supMax (ws : List Nat) : Nat := fld ws 5 22 13 + 1

/-- R49, R137, R138 for SUPPRESS. -/
def suppressOk (_s : State) (ws : List Nat) : Bool :=
  let flat := fun (t : Tref) => t.code = 0 && t.s1 = 0 && t.s2 = 0
  boxesOk (tref (wd ws 1)) && flat (tref (wd ws 2)) && flat (tref (wd ws 3)) && wd ws 4 = 0 && fld ws 5 31 23 = 0
    && supMax ws ≤ 512 && !fnan (ppHi ws 5) && !flt (ppHi ws 5) 0#32 && !flt f32One (ppHi ws 5)
    && !fnan (ppLo ws 6) && fld ws 6 63 32 = 0 && wd ws 7 = 0

/-- A candidate (R141): its index, box, score and class. -/
structure Cand where
  index : Nat
  x0 : F32
  y0 : F32
  x1 : F32
  y1 : F32
  score : F32
  cls : Nat
  deriving DecidableEq, Repr

/-- The record at a physical address, where it is a candidate. -/
def State.candidate (s : State) (a index : Nat) (thr : F32) : Option Cand :=
  let f := fun o => BitVec.ofNat 32 (s.readLe (a + o) 4)
  let c : Cand := ⟨index, f 0, f 4, f 8, f 12, f 16, s.readLe (a + 20) 2⟩
  if c.cls ≤ 255 && !(fnan c.x0 || fnan c.y0 || fnan c.x1 || fnan c.y1 || fnan c.score) && !flt c.score thr then some c
  else none

/-- R142: `c` inserted behind every candidate whose score is not lower. -/
def insertCand (c : Cand) : List Cand → List Cand
  | [] => [c]
  | d :: t => if flt d.score c.score then c :: d :: t else d :: insertCand c t

/-- R143: the IoU of two boxes. -/
def iou (a b : Cand) : F32 :=
  let iw := fmax (fsub (fmin a.x1 b.x1) (fmax a.x0 b.x0)) 0#32
  let ih := fmax (fsub (fmin a.y1 b.y1) (fmax a.y0 b.y0)) 0#32
  let inter := fmul iw ih
  let area := fun (c : Cand) => fmul (fmax (fsub c.x1 c.x0) 0#32) (fmax (fsub c.y1 c.y0) 0#32)
  let union := fsub (fadd (area a) (area b)) inter
  if flt 0#32 union then fdiv inter union else 0#32

/-- R142: the greedy walk. -/
def greedy (aware : Bool) (thr : F32) (most : Nat) : List Cand → List Cand → List Cand
  | kept, [] => kept
  | kept, c :: t =>
    if kept.length = most then kept
    else if kept.any (fun k => (!aware || k.cls = c.cls) && flt thr (iou c k)) then greedy aware thr most kept t
    else greedy aware thr most (kept ++ [c]) t

/-- The indices that SUPPRESS keeps, in order. -/
def State.suppressKept (s : State) (share : Nat) (aware : Bool) (ws : List Nat) : List Nat :=
  let base := share + (tref (wd ws 1)).base
  let cands := (List.range (ppCount ws)).filterMap (fun n => s.candidate (base + 32 * n) n (ppLo ws 6))
  (greedy aware (ppHi ws 5) (supMax ws) [] (cands.foldl (fun l c => insertCand c l) [])).map (·.index)

/-- The share ranges that a SUPPRESS reads and writes. -/
def suppressReads (ws : List Nat) : List (Nat × Nat) := [((tref (wd ws 1)).base, 32 * ppCount ws)]
def suppressWrites (ws : List Nat) : List (Nat × Nat) :=
  [((tref (wd ws 2)).base, 2 * min (supMax ws) (ppCount ws)), ((tref (wd ws 3)).base, 4)]

/-- R142: the outputs of a SUPPRESS in a share: the kept indices, 16 bits each, and their number, 32 bits. -/
def suppressOuts (share : Nat) (ws : List Nat) (ks : List Nat) : List (Nat × Nat × Nat) :=
  (indexed 0 ks).map (fun q => (8 * (share + (tref (wd ws 2)).base + 2 * q.1), 16, q.2))
    ++ [(8 * (share + (tref (wd ws 3)).base), 32, ks.length)]

/-- R142, R144: a SUPPRESS descriptor; `op` 0 CLASS_AWARE, 1 CLASS_AGNOSTIC. -/
def State.suppress (s : State) (g op : Nat) : State :=
  s.issue g 6 op suppressOk (fun t ws =>
    t.launch g ws ⟨1, suppressReads ws, suppressReads ws, suppressWrites ws⟩ (fun e =>
      let ks := e.suppressKept (t.shareOf g).1 (op = 0) ws
      ⟨suppressOuts (t.shareOf g).1 ws ks, leBytes 4 ks.length ++ ks.flatMap (leBytes 2), (e.seat g).vregs, none⟩))

/-- R68: the post-processing unit reaches a step boundary: the work of a stopped Seat is squashed, and that of a PARKED Seat or
of a core under a Drill step pauses. -/
def State.postBoundary (s : State) (g : Nat) : State :=
  let x := s.seat g
  let hold := s.seatState g = 5 || (s.core (coreOf g)).drill
  let kept := x.flight.filter (fun f => !(f.unit = 1 && f.squash))
  s.setSeat g { x with flight := kept.map (fun f => if f.unit = 1 && hold then { f with paused := true } else f) }

/-! ### The commands -/

/-- DECODE ANCHOR (R139). -/
def execDecodeAnchor (seat : Fin 1024) (s : State) : Host.Outcome State Fault Refusal := .next (s.live (s.decode seat.val 0))

/-- DECODE CENTRE (R139). -/
def execDecodeCentre (seat : Fin 1024) (s : State) : Host.Outcome State Fault Refusal := .next (s.live (s.decode seat.val 1))

/-- SUPPRESS CLASS_AWARE (R142). -/
def execSuppressClassAware (seat : Fin 1024) (s : State) : Host.Outcome State Fault Refusal :=
  .next (s.live (s.suppress seat.val 0))

/-- SUPPRESS CLASS_AGNOSTIC (R142). -/
def execSuppressClassAgnostic (seat : Fin 1024) (s : State) : Host.Outcome State Fault Refusal :=
  .next (s.live (s.suppress seat.val 1))

/-- POSTPROC_STEP_BOUNDARY (R68). -/
def execPostprocStepBoundary (seat : Fin 1024) (s : State) : Host.Outcome State Fault Refusal :=
  .next (s.live (s.postBoundary seat.val))

end Sys2Proof.Machine
end

