-- ==== Sys2Proof/Machine/Move.lean ====
section
/-! DEFINITION. The DMA engine: MOVE and its bursts, and the transfer forms of RAST (02_tensor_core R54, R56, R68;
04_locker_slate R97, R99, R106; 09_raster_display R224). -/

namespace Sys2Proof.Machine

/-! ### MOVE fields -/

/-- R49, R54 for MOVE; `op` 0 COPY, 1 GATHER, 2 FILL. -/
def moveOk (op : Nat) (_s : State) (ws : List Nat) : Bool :=
  (if op = 2 then wd ws 1 = 0 && wd ws 4 = 0 else orefOk (wd ws 1)) && orefOk (wd ws 2) && fld ws 3 63 50 = 0
    && (if op = 1 then orefOk (wd ws 6) && fld ws 4 63 32 = 0 else wd ws 6 = 0) && (op = 2 || wd ws 7 = 0)

/-! ### Transfers -/

/-- Bytes of source element `k`. -/
def State.srcBytes (s : State) (x : Xfer) (snap : Option (List (Option Byte))) (k : Nat) : List Byte :=
  match x.src, snap with
  | none, _ => leBytes x.size x.fill
  | some _, some bs => ((bs.drop (k * x.size)).take x.size).map (fun b => b.getD 0#8)
  | some o, none => s.readMem (o.addr (x.srcOff k)).toNat x.size

/-- The words that the source elements `ks` have bytes in and that were uncorrectable when the transfer started. -/
def Xfer.lost (x : Xfer) (snap : List (Option Byte)) (ks : List Nat) : List Nat :=
  match x.src with
  | none => []
  | some o =>
    (ks.flatMap (fun k =>
      (indexed 0 ((snap.drop (k * x.size)).take x.size)).filterMap (fun p =>
        match p.2 with | none => some (wordOf ((o.addr (x.srcOff k)).toNat + p.1)) | some _ => none))).eraseDups

/-- ECC of the reads of a burst: the state after it, and whether every word could be read (R99). Of a source that the destination overlaps, what
counts is what it held when the transfer started (R56). How often one word that several elements read counts is the model's (log entry 92). -/
def State.burstRead (s : State) (x : Xfer) (snap : Option (List (Option Byte))) (ks : List Nat) : State × Bool :=
  match x.src, snap with
  | none, _ => (s, true)
  | some _, some bs =>
    let bad := x.lost bs ks
    (s.each bad State.eccFail, bad.isEmpty)
  | some o, none =>
    ks.foldl (fun (acc : State × Bool) k =>
      let q := acc.1.eccRead (o.addr (x.srcOff k)).toNat x.size
      (q.1, acc.2 && q.2)) (s, true)

/-- ECC of the reads and writes of a burst: the state after it, and whether every word could be read and written. -/
def State.burstEcc (s : State) (x : Xfer) (snap : Option (List (Option Byte))) (ks : List Nat) : State × Bool :=
  let r := s.burstRead x snap ks
  if r.2 then
    let outs := ks.map (fun k => (8 * (x.dst.addr (x.dstOff k)).toNat, 8 * x.size, 0))
    r.1.eccWrites ((outRanges outs).2 ++ (outRanges outs).1)
  else r

/-- A burst's bytes, counted for the Seat's slice, and its write over a die link counted at the Die Bridge (R337). -/
def State.useBurst (s : State) (g : Nat) (x : Xfer) (n : Nat) : State :=
  let u := x.use g n
  (s.useQuota (s.seatSlice g) u.1 u.2).countCross (kindDie .seat g) x.dst.base

/-- The transfers of a Seat stand still at this boundary (R68): the Seat is PARKED, or its core is under a Drill step. -/
def State.pauseDma (s : State) (g : Nat) : State :=
  if s.seatState g = 5 || (s.core (coreOf g)).drill then
    let y := s.seat g
    s.setSeat g { y with flight := y.flight.map (fun f => if f.unit = 2 && f.pos < f.total then { f with paused := true } else f) }
  else s

/-- An access of a Seat's DMA engine that fails: logged where it is a violation, a write that crosses dies coming back as a write-error message
besides, and the Seat halts with BUS_ERROR (R50, R56, R345). -/
def State.accessFailed (s : State) (g : Nat) (v : Option Viol) (a : Nat) (write : Bool) (reason : Nat) : State :=
  let c := s.ctx ⟨.seat, g, 0⟩
  let s1 := match v with
    | some v => s.logViol v c a write
    | none => s
  (s1.when write (fun t => t.crossFailed c a [] reason)).haltSeat g 6

/-- DMA_BURST_END (R56, R68, R106): the Seat's oldest transfer writes its next burst of at most 4 KiB. A failed check halts the Seat,
nothing of the burst is written, and the transfer is gone; a stopped Seat's transfer is squashed at this boundary, and every transfer of a PARKED Seat or
of a core under a Drill step pauses. -/
def State.burst (s : State) (g : Nat) : State :=
  match (indexed 0 (s.seat g).flight).find? (fun q => q.2.dma) with
  | none => s
  | some (i, f) =>
    if f.paused && !f.squash then s
    else
      let x := s.xfer g f
      let n := x.burstLen f
      let ks := (List.range n).map (fun j => f.pos + j)
      match s.checkBurst g x f.pos n with
      | .waits => s
      | .share a w r => if f.squash then s.squashAt g i else (s.squashAt g i).shareViol g a w r
      | .err v a w =>
        if f.squash then s.squashAt g i
        else (s.squashAt g i).accessFailed g v a w (match v with | some v => v.reason | none => 0)
      | .ok =>
        if s.strictFirst (s.seatSlice g) (x.use g n) then s
        else
          let e := s.burstEcc x f.snap ks
          if !e.2 then
            let t := e.1.squashAt g i
            if f.squash then t else t.accessFailed g none (x.dst.addr (x.dstOff f.pos)).toNat (s.burstRead x f.snap ks).2 8
          else
            let data := ks.map (fun k => ((x.dst.addr (x.dstOff k)).toNat, e.1.srcBytes x f.snap k))
            let s1 := (e.1.each data (fun u d => u.writeMem d.1 d.2)).useBurst g x n
            if f.squash then s1.squashAt g i
            else
              let y := s1.seat g
              let f1 := { f with
                pos := f.pos + n
                sigBytes := if dSig f.words then f.sigBytes ++ data.flatMap (·.2) else f.sigBytes }
              (s1.setSeat g { y with flight := y.flight.set i f1 }).pauseDma g

/-! ### Starting a transfer -/

/-- Locker ranges of one side of a transfer, row by row where the elements are consecutive. -/
def xferRanges (o : Oref) (off : Nat → Int) (size total run : Nat) : List (Nat × Nat) :=
  if o.isLocker then
    (List.range (ceilDiv total run)).map (fun r => ((o.addr (off (r * run))).toNat, size * run))
  else []

/-- Physical ranges of one side of a transfer, whatever the space. -/
def xferSpan (o : Oref) (off : Nat → Int) (size total run : Nat) : List (Nat × Nat) :=
  (List.range (ceilDiv total run)).map (fun r => ((o.addr (off (r * run))).toNat, size * run))

/-- The bytes of source element `k` as they are when the transfer starts: `none` where the word is uncorrectable. -/
def State.snapBytes (s : State) (x : Xfer) (k : Nat) : List (Option Byte) :=
  match x.src with
  | none => []
  | some o =>
    (List.range x.size).map (fun i =>
      let a := (o.addr (x.srcOff k)).toNat + i
      if s.ecc.ue.contains (wordOf a) then none else some (s.byte a))

/-- Start a transfer: it waits for the earlier descriptors of R48, keeps the source's bytes where source and destination
overlap (R56), and is in flight from its first burst. `run` is a number of consecutive elements that all rows share. -/
def State.startXfer (s : State) (g : Nat) (ws : List Nat) (rows : List Nat) (run : Nat) (moreReads : List (Nat × Nat)) : State :=
  let f0 : InFlight := ⟨ws, 2, [], [], [], [], 0, 0, none, rows, false, false⟩
  let x := s.xfer g f0
  let reads := unionRanges (moreReads ++ (match x.src with
    | none => []
    | some o => if dClass ws = 0 && dOp ws = 1 then (if o.isLocker then [s.shareOf g] else [])
                else xferRanges o x.srcOff x.size x.total run))
  let writes := unionRanges (xferRanges x.dst x.dstOff x.size x.total run)
  if hazard (s.seat g).flight reads writes then s
  else
    let clash := match x.src with
      | none => false
      | some o => anyOverlap (xferSpan o x.srcOff x.size x.total run) (xferSpan x.dst x.dstOff x.size x.total run)
    let spans := match x.src with
      | none => []
      | some o => if clash then xferSpan o x.srcOff x.size x.total run else []
    let s0 := s.each ((s.ecc.ce.filter (fun w => spans.any (fun r => hits r.1 r.2 w)))) State.eccFix
    let snap := if clash then some ((List.range x.total).flatMap (fun k => s0.snapBytes x k)) else none
    let s1 := s0.noteIssue g
    let y := s1.seat g
    (s1.setSeat g { y with
      flight := y.flight ++ [{ f0 with reads := reads, writes := writes, total := x.total, snap := snap }]
      lastC := dropC writes y.lastC }).advance g

/-- GATHER reads its index list when it starts: the rows, or what the read runs into. -/
def State.gatherRows (s : State) (g : Nat) (ws : List Nat) : BurstCheck × List Nat :=
  let o := s.oref g (wd ws 6)
  let n := mvCount1 ws * mvCount2 ws
  let c := (List.range n).foldl (fun acc i => BurstCheck.and acc (s.checkSide g o ((4 * i : Nat) : Int) 4 false)) .ok
  (c, (List.range n).map (fun i => s.readLe (o.base + o.off + 4 * i) 4))

/-- A MOVE descriptor issues (R56). -/
def State.move (s : State) (g op : Nat) : State :=
  s.issue g 0 op (moveOk op) (fun t ws =>
    if op = 1 then
      let o := t.oref g (wd ws 6)
      let index := (o.base + o.off, 4 * (mvCount1 ws * mvCount2 ws))
      let locker := if o.isLocker then [index] else []
      if hazard (t.seat g).flight locker [] then s
      else
        let p := t.gatherRows g ws
        let u := o.use g index.2 false
        match p.1 with
        | .waits => s
        | .share a w r => (t.noteIssue g).shareViol g a w r
        | .err v a w => (t.noteIssue g).accessFailed g v a w 0
        | .ok =>
          if t.strictFirst (t.seatSlice g) u then s
          else
          let e := (t.useQuota (t.seatSlice g) u.1 u.2).eccRead index.1 index.2
          if e.2 then e.1.startXfer g ws p.2 (mvCount0 ws) locker else (e.1.noteIssue g).haltSeat g 6
    else t.startXfer g ws [] (mvCount0 ws) [])

/-! ### The commands -/

/-- MOVE COPY (R56). -/
def execMoveCopy (seat : Fin 1024) (s : State) : Host.Outcome State Fault Refusal := .next (s.live (s.move seat.val 0))

/-- MOVE GATHER (R56). -/
def execMoveGather (seat : Fin 1024) (s : State) : Host.Outcome State Fault Refusal := .next (s.live (s.move seat.val 1))

/-- MOVE FILL (R56). -/
def execMoveFill (seat : Fin 1024) (s : State) : Host.Outcome State Fault Refusal := .next (s.live (s.move seat.val 2))

/-- DMA_BURST_END (R106). -/
def execDmaBurstEnd (seat : Fin 1024) (s : State) : Host.Outcome State Fault Refusal := .next (s.live (s.burst seat.val))

end Sys2Proof.Machine
end

