-- ==== Sys2Proof/Machine/RastDesc.lean ====
section
/-! DEFINITION. The RAST descriptors: SHADE on the vector unit, RESOLVE, SPILL and RELOAD on the DMA engine (02_tensor_core RAST
layout, R63; 09_raster_display R223-R226; 10_safety_mechanisms R236). -/

namespace Sys2Proof.Machine

/-! ### Fields (words 8 to 14: log entry 18) -/

def rastPx (ws : List Nat) : Nat := wd ws 8
def rastClear (ws : List Nat) : Bool := bit (wd ws 12) 0
def rastClearDepth (ws : List Nat) : Bool := bit (wd ws 12) 1
def rastRecords (ws : List Nat) : Nat := wd ws 14
/-- Physical address of the first bin record. -/
def rastBin (ws : List Nat) : Nat := slateAddr 0 (fld ws 3 24 0)

/-- Share ranges of the tile's colour and of its depth (R224). -/
def rastTileRanges (ws : List Nat) : List (Nat × Nat) :=
  let t := tref (wd ws 1)
  [(t.base, 1024 * rastPx ws), (t.base + t.s2, 4096)]

/-! ### The shading program (R223, R226) -/

/-- What reading a program meets: the state after it, the first address outside the share, whether every word could be read, its descriptors, and
whether the read must wait. -/
structure ProgRead where
  st : State
  outside : Option Nat
  readable : Bool
  words : List (List Nat)
  waits : Bool

/-- Read the descriptors of the program at physical address `a` in a share from `lo` to below `hi`: up to and with the first that has END or is no
VEC, at most `n`. Each is fetched as any descriptor is (R46, R50), once no descriptor `fl` in flight has still to write it (R48). -/
def ProgRead.of (s : State) (fl : List InFlight) (lo hi a : Nat) : Nat → ProgRead
  | 0 => ⟨s, none, true, [], false⟩
  | n + 1 =>
    if a < lo || hi < a + 64 then ⟨s, some (if a < hi then max a hi else a), true, [], false⟩
    else if hazard fl [(a, 64)] [] || s.anyHeld [(a, 64)] then ⟨s, none, true, [], true⟩
    else
      let p := s.eccRead a 64
      let ws := (List.range 8).map (fun i => p.1.readLe (a + 8 * i) 8)
      if !p.2 then ⟨p.1, none, false, [], false⟩
      else if dClass ws ≠ 4 || dEnd ws then ⟨p.1, none, true, [ws], false⟩
      else
        let r := ProgRead.of p.1 fl lo hi (a + 64) n
        { r with words := ws :: r.words }

/-- Physical address of program `p`. -/
def State.progAt (s : State) (g : Nat) (ws : List Nat) (p : Nat) : Nat :=
  let t := tref (wd ws 2)
  (s.shareOf g).1 + t.base + p * t.s1

/-- The address of the program that the records name. -/
def State.shadeProgram (s : State) (g : Nat) (ws : List Nat) : Nat := s.progAt g ws (s.byte (rastBin ws + 4)).toNat

/-- The program ends with END and each of its descriptors is a VEC that R49 accepts. -/
def progOk (s : State) (prog : List (List Nat)) : Bool :=
  (match prog.getLast? with | some w => dEnd w | none => false)
    && prog.all (fun w => dClass w = 4 && dOp w < opcodes 4 && bits (wd w 0) 15 11 = 0 && vecOk (dOp w) s w)

/-- R49, R72 for RAST: the references are well formed, fields that RAST does not use, their formats among them, are zero (log entry 18). -/
def rastRefsOk (ws : List Nat) : Bool :=
  let t := tref (wd ws 1)
  let p := tref (wd ws 2)
  t.ok && t.code = 0 && t.s1 = 0 && p.ok && p.code = 0 && p.s2 = 0 && wd ws 7 = 0

/-- R49 at the core: only a RASTER Lesson holds RAST descriptors. -/
def rastOk (g : Nat) (s : State) (ws : List Nat) : Bool := s.seatRaster g && rastRefsOk ws

/-! ### Colour and depth (R224, R226) -/

/-- RGBA8 component as FP32: v / 255, correctly rounded. -/
def unorm (v : Nat) : F32 := fdiv (f32Nat v) (f32Nat 255)

/-- FP32 as RGBA8 component: clamped to [0, 1], times 255, rounded to nearest even. -/
def toUnorm (x : F32) : Nat :=
  match (f32of (fmin (fmax x 0#32) f32One)).mul (numOfInt 255) with
  | .fin n m e => (Num.rint (.fin n m e)).toNat % 256
  | _ => 0

/-- Components R, G, B, A of a pixel of `px` bytes. -/
def pixelOf (px v : Nat) : List F32 :=
  (List.range 4).map (fun c =>
    if px = 4 then unorm (v / 256 ^ c % 256) else f32El .fp16 (v / 65536 ^ c % 65536))

/-- The pixel with these components (R226: FP16 with SAT at 1). -/
def pixelTo (px : Nat) (cs : List F32) : Nat :=
  (indexed 0 cs).foldl (fun n p =>
    n + (if px = 4 then toUnorm p.2 * 256 ^ p.1 else Fmt.encode .fp16 true false (f32of p.2) * 65536 ^ p.1)) 0

/-- CLEAR_COLOUR in the pass's format (R224, R90). -/
def clearPixel (px colour : Nat) : Nat := pixelTo px (pixelOf 4 colour)

/-- The outputs that fill the tile buffer. -/
def clearOuts (share : Nat) (ws : List Nat) : List (Nat × Nat × Nat) :=
  let t := tref (wd ws 1)
  let px := rastPx ws
  (List.range 1024).map (fun k => (8 * (share + t.base + k * px), 8 * px, clearPixel px (wd ws 13)))
    ++ (List.range 1024).map (fun k => (8 * (share + t.base + t.s2 + 4 * k), 32, if rastClearDepth ws then 0x3F800000 else 0))

/-- The tile in the hands of SHADE: pixels, depths, the Seat, the state its program reads, and what the program wrote to Locker. -/
structure Shading where
  st : State
  seat : SeatX
  colour : List Nat
  depth : List Nat
  outs : List (Nat × Nat × Nat)

/-- A fragment (R226): its record's address and the pixel index in the tile. -/
def State.fragments (s : State) (ws : List Nat) : List (Nat × Nat) :=
  (List.range (rastRecords ws)).flatMap (fun r =>
    let a := rastBin ws + 256 * r
    (List.range 1024).filterMap (fun k => if bit (s.byte (a + 128 + k / 8)).toNat (k % 8) then some (a, k) else none))

/-- A plane of a record at a pixel centre: fma(a, x, fma(b, y, c)). -/
def State.planeAt (s : State) (a : Nat) (x y : F32) : F32 :=
  let w := fun i => BitVec.ofNat 32 (s.readLe (a + 4 * i) 4)
  ffma (w 0) x (ffma (w 1) y (w 2))

/-- The centre of pixel `k` of tile coordinate `t`, along one axis. -/
def pixelCentre (t k : Nat) : F32 := f32to ((numOfInt (2 * (32 * t + k) + 1 : Nat)).scale (-1))

def fragX (ws : List Nat) (k : Nat) : F32 := pixelCentre (fld ws 4 15 0) (k % 32)
def fragY (ws : List Nat) (k : Nat) : F32 := pixelCentre (fld ws 4 31 16) (k / 32)

/-- Fill one lane: attributes in registers 0 to 7, x, y and z in 8 to 10. -/
def State.fillLane (s : State) (ws : List Nat) (x : SeatX) (lane : Nat) (f : Nat × Nat) : SeatX :=
  let px := fragX ws f.2
  let py := fragY ws f.2
  let n := (s.byte (f.1 + 6)).toNat
  let attrs := (List.range (min n 8)).foldl (fun (u : SeatX) i => u.putVreg i lane (s.planeAt (f.1 + 28 + 12 * i) px py)) x
  ((attrs.putVreg 8 lane px).putVreg 9 lane py).putVreg 10 lane (s.planeAt (f.1 + 16) px py)

/-- DEPTH_FUNC (R220): 0 always, 1 less, 2 less-equal, 3 greater, 4 greater-equal, 5 equal, 6 never. -/
def depthPass (func : Nat) (z d : F32) : Bool :=
  let eq := !fnan z && !fnan d && !flt z d && !flt d z
  match func with
  | 0 => true
  | 1 => flt z d
  | 2 => flt z d || eq
  | 3 => flt d z
  | 4 => flt d z || eq
  | 5 => eq
  | _ => false

/-- BLEND (R226): 0 replace, 1 alpha, 2 premultiplied, 3 add. -/
def blend (mode : Nat) (s d a : F32) : F32 :=
  let inv := fsub f32One a
  match mode with
  | 0 => s
  | 1 => ffma s a (fmul d inv)
  | 2 => ffma d inv s
  | _ => fadd s d

/-- R226: depth test and blend of one fragment, from lane `lane` of the registers. -/
def Shading.apply (h : Shading) (ws : List Nat) (lane : Nat) (f : Nat × Nat) : Shading :=
  let mode := (h.st.byte (f.1 + 5)).toNat
  let z := h.st.planeAt (f.1 + 16) (fragX ws f.2) (fragY ws f.2)
  let clamped := fmin (fmax z 0#32) f32One
  if depthPass (bits mode 3 1) clamped (BitVec.ofNat 32 (h.depth.getD f.2 0)) then
    let src := (List.range 4).map (fun c => h.seat.vreg (24 + c) lane)
    let dst := pixelOf (rastPx ws) (h.colour.getD f.2 0)
    let out := (List.range 4).map (fun c => blend (bits mode 5 4) (src.getD c 0#32) (dst.getD c 0#32) (src.getD 3 0#32))
    { h with colour := h.colour.set f.2 (pixelTo (rastPx ws) out)
             depth := if bit mode 0 then h.depth.set f.2 z.toNat else h.depth }
  else h

/-- R226: one group of at most 64 fragments: the registers are filled, the program runs, and the fragments are applied in order. -/
def Shading.group (h : Shading) (share : Nat) (ws : List Nat) (prog : List (List Nat)) (fs : List (Nat × Nat)) : Shading :=
  let x0 := (indexed 0 fs).foldl (fun (x : SeatX) p => h.st.fillLane ws x p.1 p.2) h.seat
  let h1 := prog.foldl (fun (u : Shading) w =>
    let r := u.st.vecRun u.seat share (dOp w) w
    { u with st := u.st.putOuts r.outs, seat := { u.seat with vregs := r.vregs }, outs := u.outs ++ r.outs }) { h with seat := x0 }
  (indexed 0 fs).foldl (fun u p => u.apply ws p.1 p.2) h1

/-- Groups of 64 in order. -/
def groupsOf64 {α : Type} : Nat → List α → List (List α)
  | 0, _ => []
  | n + 1, l => if l.isEmpty then [] else l.take 64 :: groupsOf64 n (l.drop 64)

/-- The result of a SHADE descriptor that reads state `e` (R226, R236). -/
def State.shadeRun (e : State) (g share : Nat) (ws : List Nat) (prog : List (List Nat)) : Result :=
  let t := tref (wd ws 1)
  let px := rastPx ws
  let s0 := if rastClear ws then e.putOuts (clearOuts share ws) else e
  let fs := s0.fragments ws
  let h0 : Shading :=
    { st := s0, seat := s0.seat g, outs := []
      colour := (List.range 1024).map (fun k => s0.readLe (share + t.base + k * px) px)
      depth := (List.range 1024).map (fun k => s0.readLe (share + t.base + t.s2 + 4 * k) 4) }
  let h := (groupsOf64 fs.length fs).foldl (fun u q => u.group share ws prog q) h0
  ⟨h.outs ++ (indexed 0 h.colour).map (fun p => (8 * (share + t.base + p.1 * px), 8 * px, p.2))
      ++ (indexed 0 h.depth).map (fun p => (8 * (share + t.base + t.s2 + 4 * p.1), 32, p.2)),
    h.colour.flatMap (leBytes px), h.seat.vregs, none⟩

/-- The share ranges that a SHADE descriptor reads, with its program `prog` at share offset `at'`, and those that it writes. -/
def shadeReads (ws : List Nat) (at' : Nat) (prog : List (List Nat)) : List (Nat × Nat) :=
  rastTileRanges ws ++ [(at', 64 * prog.length)] ++ prog.flatMap (fun w => vecReads (dOp w) w)
def shadeWrites (ws : List Nat) (prog : List (List Nat)) : List (Nat × Nat) :=
  rastTileRanges ws ++ prog.flatMap (fun w => vecDstRanges (dOp w) w)

/-- R226: a SHADE descriptor. Its records are read from bin memory when it starts; where the die of bin memory does not serve, the Seat halts with
BUS_ERROR (log entry 78). Then the program that they name is fetched and checked. -/
def State.shade (s : State) (g : Nat) : State :=
  s.issue g 8 0 (rastOk g) (fun t ws =>
    let bin := (rastBin ws, 256 * rastRecords ws)
    let c := t.ctx ⟨.seat, g, 0⟩
    match t.binCheck c bin.1 bin.2 false with
    | .waits => s
    | .err | .viol _ => (t.noteIssue g).haltSeat g 6
    | .ok =>
      let e := (t.ctxUse c bin.1 bin.2 false).eccRead bin.1 bin.2
      if !e.2 then (e.1.noteIssue g).haltSeat g 5
      else
        let sh := t.shareOf g
        let a := t.shadeProgram g ws
        let p := ProgRead.of e.1 (t.seat g).flight sh.1 (sh.1 + sh.2) a 16
        if p.waits then s
        else match p.outside, p.readable, progOk p.st p.words with
        | some o, _, _ => (p.st.noteIssue g).shareViol g o false 6
        | none, false, _ => (p.st.noteIssue g).haltSeat g 5
        | none, true, false => (p.st.noteIssue g).haltSeat g 1
        | none, true, true =>
          let reads := shadeReads ws (a - sh.1) p.words
          let writes := shadeWrites ws p.words
          let r := unionRanges (physical sh.1 reads)
          let w := unionRanges (physical sh.1 writes)
          if hazard (t.seat g).flight r w || t.anyHeld (r ++ w) then s
          else p.st.launch g ws ⟨0, reads, reads, writes⟩ (fun u => u.shadeRun g sh.1 ws p.words))

/-- R224: RESOLVE (1), SPILL (2) or RELOAD (3): the core fills the tile buffer first where CLEAR is set, an uncorrectable word under a partial write
of it halting the Seat with ECC_UNCORR (log entry 78), then the DMA engine starts. -/
def State.tileXfer (s : State) (g op : Nat) : State :=
  s.issue g 8 op (rastOk g) (fun t ws =>
    let run := if op = 1 then wd ws 10 else 256
    let sh := t.shareOf g
    if rastClear ws then
      let ranges := unionRanges (physical sh.1 (rastTileRanges ws))
      match outside sh.2 (rastTileRanges ws) with
      | some o => (t.noteIssue g).shareViol g (sh.1 + o) true 6
      | none =>
        if hazard (t.seat g).flight [] ranges || t.anyHeld ranges then s
        else
          let p := t.storeOuts (clearOuts sh.1 ws)
          if p.2 then p.1.startXfer g ws [] run [] else (p.1.noteIssue g).haltSeat g 5
    else t.startXfer g ws [] run [])

/-- RAST SHADE (R226). -/
def execRastShade (seat : Fin 1024) (s : State) : Host.Outcome State Fault Refusal := .next (s.live (s.shade seat.val))

/-- RAST RESOLVE (R224). -/
def execRastResolve (seat : Fin 1024) (s : State) : Host.Outcome State Fault Refusal := .next (s.live (s.tileXfer seat.val 1))

/-- RAST SPILL (R224). -/
def execRastSpill (seat : Fin 1024) (s : State) : Host.Outcome State Fault Refusal := .next (s.live (s.tileXfer seat.val 2))

/-- RAST RELOAD (R224). -/
def execRastReload (seat : Fin 1024) (s : State) : Host.Outcome State Fault Refusal := .next (s.live (s.tileXfer seat.val 3))

end Sys2Proof.Machine
end

