-- ==== Sys2Proof/Machine/Raster.lean ====
section
/-! DEFINITION. The raster front end: the command ring, binning, tile jobs, partial renders, the end of a pass
(09_raster_display R219-R222, R224, R225, R227-R229). -/

namespace Sys2Proof.Machine

/-! ### Access to LPDDR5X (R219) -/

def State.rastSlice (s : State) : Nat := s.rd DISP_RAST_CTRL.SLICE
def State.rastCtx (s : State) : Ctx := devCtx (some s.rastSlice) 0x5000
/-- Physical address of an LPDDR5X offset of this chapter. -/
def State.rastAddr (s : State) (off : Nat) : Nat := (s.dramShare s.rastSlice).1 + off

/-- The front end runs (R219, R292). -/
def State.rastUp (s : State) : Bool := s.on DISP_RAST_CTRL.ENABLE && s.unitOn 6

/-! ### The pass -/

def RastPass.present (p : RastPass) : Bool := leAt p.cmd 1 1 ≠ 0xFF
def RastPass.pipe (p : RastPass) : Nat := leAt p.cmd 1 1
def RastPass.plane (p : RastPass) : Nat := leAt p.cmd 2 1
def RastPass.target (p : RastPass) : Nat := leAt p.cmd 8 8
def RastPass.stride (p : RastPass) : Nat := leAt p.cmd 16 4
def RastPass.clear (p : RastPass) : Nat := leAt p.cmd 20 4
def RastPass.clearDepth (p : RastPass) : Nat := leAt p.cmd 24 1
def RastPass.mask (p : RastPass) : Nat := leAt p.cmd 25 1
def RastPass.tilesX (p : RastPass) : Nat := ceilDiv p.width 32
def RastPass.tilesY (p : RastPass) : Nat := ceilDiv p.height 32
/-- Bytes of a spill slot (R227). -/
def RastPass.slot (p : RastPass) : Nat := if p.pixel = 4 then 0x2000 else 0x3000

def RastTile.zero : RastTile := ⟨[], none, none, 0, none, false, false, false⟩
def RastPass.tile (p : RastPass) (i : Nat) : RastTile := Table.get p.tiles RastTile.zero i
def RastPass.setTile (p : RastPass) (i : Nat) (t : RastTile) : RastPass := { p with tiles := Table.set p.tiles RastTile.zero i t }
def State.setPass (s : State) (p : Option RastPass) : State := { s with rast := { s.rast with pass := p } }
def State.setPhase (s : State) (n : Nat) : State := s.wr DISP_RAST_STATUS.PHASE n

/-- Every RESOLVE or SPILL planned has committed. -/
def RastPass.quiet (p : RastPass) : Bool := p.tiles.all (fun t => !t.2.live)

/-- A tile job has not ended (R220): one taken in, or one whose record has still to be. -/
def State.rastJobs (s : State) : Bool := s.jobs.any (fun j => j.2.tile.isSome && !j.2.hasEnded) || !s.rast.gone.isEmpty

/-! ### The command ring (R220) -/

def State.rastRing (s : State) : Nat := 2 ^ (s.rd DISP_RAST_RING.SIZE + 6)
def State.rastEmpty (s : State) : Bool := s.rd DISP_RAST_PTR.HEAD % s.rastRing = s.rd DISP_RAST_PTR.TAIL % s.rastRing
def State.rastAt (s : State) : Nat :=
  s.rastAddr (s.rd DISP_RAST_RING.BASE + s.rd DISP_RAST_PTR.TAIL % s.rastRing * 32)
def State.rastNext (s : State) : State := s.wr DISP_RAST_PTR.TAIL ((s.rd DISP_RAST_PTR.TAIL + 1) % s.rastRing)

/-- The bytes from `lo` to below `hi` of a command are zero. -/
def zeros (c : List Byte) (lo hi : Nat) : Bool := ((c.drop lo).take (hi - lo)).all (· = 0#8)

/-- R220: the fields of a command are in range and its reserved bytes zero. -/
def State.rastCmdOk (s : State) (c : List Byte) : Bool :=
  match leAt c 0 1 with
  | 1 =>
    let pipe := leAt c 1 1
    let w := leAt c 4 2
    let h := leAt c 6 2
    let px := if leAt c 3 1 = 0 then 4 else 8
    let mask := leAt c 25 1
    (pipe ≤ 3 || pipe = 0xFF) && leAt c 2 1 ≤ 3 && leAt c 3 1 ≤ 1 && 1 ≤ w && w ≤ 4096 && 1 ≤ h && h ≤ 4096
      && leAt c 8 8 % 64 = 0 && leAt c 8 8 < 2 ^ 36 && w * px ≤ leAt c 16 4 && leAt c 16 4 < 2 ^ 24 && leAt c 24 1 ≤ 1
      && mask ≠ 0 && (mask &&& s.rd DISP_RAST_CTRL.LESSON_MASK) = mask && zeros c 26 32
  | 2 =>
    leAt c 1 1 ≤ 1 && leAt c 2 1 ≤ 2 && leAt c 3 1 ≤ 6 && leAt c 4 1 ≤ 1 && leAt c 5 1 ≤ 3 && leAt c 6 1 ≤ 15 && leAt c 7 1 ≤ 8
      && leAt c 8 8 % 16 = 0 && leAt c 8 8 < 2 ^ 36 && 3 ≤ leAt c 16 4 && leAt c 16 4 ≤ 2 ^ 20 && zeros c 20 32
  | 3 => zeros c 1 32
  | 4 => zeros c 1 32
  | _ => false

/-- Discard commands up to a PASS_END, as far as the ring holds them (R229). -/
def State.rastSkip (s : State) : Nat → State
  | 0 => s
  | n + 1 =>
    if !s.rast.skipping || s.rastEmpty || !s.rastUp || s.ctxWaits s.rastCtx s.rastAt 32 false then s
    else
      let p := s.ctxRead s.rastCtx s.rastAt 32
      let u := p.1.rastNext
      let last := match p.2 with | some c => decide (leAt c 0 1 = 3) | none => false
      State.rastSkip (if last then { u with rast := { u.rast with skipping := false } } else u) n

/-- R229: the current pass is abandoned: its jobs end, records not yet taken in are aborted, the rest of its commands are discarded, bin
memory and the tiles' owners are free, and the pass is counted. `rest` says that its PASS_END is still to come. -/
def State.abandonPass (s : State) (rest : Bool) : State :=
  let tiles := match s.rast.pass with | some p => p.tiles | none => []
  let s1 := s.each tiles (fun u t => match t.2.tag with | some g => u.endJob g 6 msAborted none | none => u)
  let subs := tiles.filterMap (fun t => t.2.sub)
  let s2 := { s1 with reg := { s1.reg with preAborts := s1.reg.preAborts ++ subs }
                      rast := { s1.rast with pass := none, skipping := rest, gone := s1.rast.gone ++ subs } }
  let s3 := ((s2.satAdd DISP_RAST_STATUS.ABANDONED 1).setPhase 0).raise srcRastAbandoned
  s3.rastSkip s3.rastRing

/-- The current pass is abandoned, where one is. -/
def State.dropPass (s : State) : State :=
  match s.rast.pass with
  | some p => s.abandonPass (!p.ending)
  | none => s

/-- R220: RAST_COMMAND_ERROR of a command with OP `op`, which abandons the pass; a bad PASS_BEGIN abandons the pass that it would begin, and
a bad PASS_END is the one that its pass has (R229). -/
def State.rastError (s : State) (op : Nat) : State :=
  let s1 := s.raise srcRastError
  match s1.rast.pass with
  | some p => s1.abandonPass (!p.ending && op ≠ 3)
  | none => if op = 1 then s1.abandonPass true else s1

/-- R220: jobs of the previous pass have still to end, so that no PASS_BEGIN is read. -/
def State.rastBusy (s : State) : Bool :=
  match s.rast.pass with
  | some p => p.ending
  | none => s.rastJobs

/-- Take the command at TAIL where its OP is `op`; a command that R220 refuses is an error for whichever row meets it. A ring entry that
cannot be read is such a command too (log entry 27). -/
def State.rastTake (s : State) (op : Nat) (run : State → List Byte → State) : State :=
  if !s.rastUp || s.rastEmpty then s
  else if s.rast.skipping then s.rastSkip s.rastRing
  else if s.ctxWaits s.rastCtx s.rastAt 32 false then s
  else
    let p := s.ctxRead s.rastCtx s.rastAt 32
    match p.2 with
    | none => p.1.rastNext.rastError 0
    | some c =>
      if leAt c 0 1 = 1 && s.rastBusy then s
      else if !s.rastCmdOk c then p.1.rastNext.rastError (leAt c 0 1)
      else if leAt c 0 1 ≠ op then s
      else run p.1 c

/-! ### PASS_BEGIN (R228) -/

/-- Duration in ns of `n` pixel clocks of pipe `p` (rounded down). -/
def State.pixelTime (s : State) (p n : Nat) : Nat := n * 1000000 / s.rd (DISP_PIPE_CTRL.PCLK_KHZ p)
def State.timingTotal (s : State) (v : Bool) (p : Nat) : Nat :=
  if v then s.rd (DISP_PIPE_TIMING_V.ACTIVE p) + s.rd (DISP_PIPE_TIMING_V.FRONT p) + s.rd (DISP_PIPE_TIMING_V.SYNC p)
      + s.rd (DISP_PIPE_TIMING_V.BACK p)
  else s.rd (DISP_PIPE_TIMING_H.ACTIVE p) + s.rd (DISP_PIPE_TIMING_H.FRONT p) + s.rd (DISP_PIPE_TIMING_H.SYNC p)
      + s.rd (DISP_PIPE_TIMING_H.BACK p)
/-- Pixel clocks of a frame. -/
def State.frameClocks (s : State) (p : Nat) : Nat := s.timingTotal false p * s.timingTotal true p

/-- R228: the first latch of pipe `p` that falls at least RESERVE_US after now: its time, and how many latches away it is. -/
def State.targetLatch (s : State) (p : Nat) : Option (Nat × Nat) :=
  if !s.on (DISP_PIPE_STATUS.ACTIVE p) then none
  else
    let a := Table.get s.rast.anchor 0 p
    let first := if s.clock.now < a then 0 else 1
    let earliest := s.clock.now + s.rd DISP_RAST_CTRL.RESERVE_US * 1000
    let k := max first (ceilDiv ((earliest - a) * s.rd (DISP_PIPE_CTRL.PCLK_KHZ p)) (max (s.frameClocks p) 1 * 1000000))
    some (a + s.pixelTime p (k * s.frameClocks p), k + 1 - first)

/-- PASS_BEGIN: R227's check of the spill area, then the pass. -/
def State.passBegin (s : State) (c : List Byte) : State :=
  if s.rast.pass.isSome then s.rastNext.rastError 1
  else
    let u := s.rastNext
    let p0 : RastPass := ⟨c, u.rast.nextId, none, none, 0, [], [], none, false⟩
    let latch := if p0.present then u.targetLatch p0.pipe else none
    let p : RastPass := { p0 with deadline := latch.map (·.1), left := latch.map (·.2) }
    let v := { u with rast := { u.rast with nextId := (u.rast.nextId + 1) % 65536 } }
    if v.rd DISP_RAST_SPILL.SIZE_4K * 4096 < p.tilesX * p.tilesY * p.slot then v.abandonPass true
    else
      let w := (v.setPass (some p)).setPhase 1
      if (latch.map (·.2)) = some 1 then w.wr (DISP_PLANE_ADDR.EXPECT p.pipe p.plane) 1 else w

/-! ### Triangle setup (R221) -/

/-- A vertex: x and y in 1/256 pixel, and z with the attributes. -/
structure Vertex where
  x : Int
  y : Int
  vals : List Num

def numFinite : Num → Bool
  | .fin _ _ _ => true
  | _ => false

/-- R221: the vertex at a list of bytes; `none` where x or y is no finite number (log entry 27). -/
def vertexOf (attrs : Nat) (bs : List Byte) : Option Vertex :=
  let f := fun i => f32of (BitVec.ofNat 32 (leAt bs (4 * i) 4))
  if numFinite (f 0) && numFinite (f 1) then
    some ⟨Num.rint ((f 0).scale 8), Num.rint ((f 1).scale 8), f 2 :: (List.range attrs).map (fun i => f (4 + i))⟩
  else none

def dAttrs (c : List Byte) : Nat := leAt c 7 1
def dVertexBytes (c : List Byte) : Nat := 16 + 4 * dAttrs c
def dStrip (c : List Byte) : Bool := leAt c 1 1 = 1
/-- Triangles of a DRAW. -/
def dTriangles (c : List Byte) : Nat := if dStrip c then leAt c 16 4 - 2 else leAt c 16 4 / 3

/-- Vertices of triangle `i`; in a strip every other triangle is taken the other way round, so that all of a strip face alike (log entry
27). -/
def dCorners (c : List Byte) (i : Nat) : Nat × Nat × Nat :=
  if dStrip c then (if i % 2 = 0 then (i, i + 1, i + 2) else (i + 1, i, i + 2)) else (3 * i, 3 * i + 1, 3 * i + 2)

def triangleOf (c data : List Byte) (i : Nat) : Option (Vertex × Vertex × Vertex) :=
  let k := dCorners c i
  let v := fun n => vertexOf (dAttrs c) ((data.drop (n * dVertexBytes c)).take (dVertexBytes c))
  match v k.1, v k.2.1, v k.2.2 with
  | some p, some q, some r => some (p, q, r)
  | _, _, _ => none

/-- Twice the signed area; above 0 where the corners run clockwise on the screen, y pointing down. -/
def area2 (p q r : Vertex) : Int := (q.x - p.x) * (r.y - p.y) - (r.x - p.x) * (q.y - p.y)

/-- The pixel centre lies inside edge `p` to `q` of a clockwise triangle, or on it where the edge is a top or left one. -/
def edgeIn (p q : Vertex) (x y : Int) : Bool :=
  let e := (q.x - p.x) * (y - p.y) - (q.y - p.y) * (x - p.x)
  0 < e || (e = 0 && (q.y < p.y || (q.y = p.y && p.x < q.x)))

/-- R221: the triangle covers the centre of pixel (x, y). -/
def covered (p q r : Vertex) (x y : Nat) : Bool :=
  let cx : Int := ((256 * x + 128 : Nat) : Int)
  let cy : Int := ((256 * y + 128 : Nat) : Int)
  if 0 < area2 p q r then edgeIn p q cx cy && edgeIn q r cx cy && edgeIn r p cx cy
  else edgeIn p r cx cy && edgeIn r q cx cy && edgeIn q p cx cy

/-- R221: discarded as a whole: no area, or culled (CULL 1 clockwise, 2 anticlockwise). -/
def discarded (c : List Byte) (p q r : Vertex) : Bool :=
  let a := area2 p q r
  a = 0 || (leAt c 2 1 = 1 && 0 < a) || (leAt c 2 1 = 2 && a < 0)

/-- R221: the plane (a, b, c) of value `i` of the corners: the exact quotients, rounded to FP64 and then to FP32 (log entry 28). -/
def planeOf (p q r : Vertex) (i : Nat) : List F32 :=
  let z := fun (v : Vertex) => v.vals.getD i (.fin false 0 0)
  let sub := fun (u v : Num) => u.add v.negate
  let k := fun (n : Int) => (numOfInt n).scale (-8)
  let u := sub (z q) (z p)
  let w := sub (z r) (z p)
  let det := (numOfInt (area2 p q r)).scale (-16)
  let na := sub (u.mul (k (r.y - p.y))) (w.mul (k (q.y - p.y)))
  let nb := sub (w.mul (k (q.x - p.x))) (u.mul (k (r.x - p.x)))
  let nc := sub (sub ((z p).mul det) (na.mul (k p.x))) (nb.mul (k p.y))
  [na, nb, nc].map (fun n => f32to (fp64.round (n.div 53 det)))

/-- R222: the bin record of a triangle for the tile (tx, ty), where it covers a pixel of it. -/
def binRecord (ps : RastPass) (c : List Byte) (seq : Nat) (p q r : Vertex) (tx ty : Nat) : Option RastRec :=
  let cov := (List.range 1024).map (fun k =>
    let x := 32 * tx + k % 32
    let y := 32 * ty + k / 32
    x < ps.width && y < ps.height && covered p q r x y)
  let n := (cov.filter id).length
  if n = 0 then none
  else
    let bytes := (List.range 128).map (fun j =>
      BitVec.ofNat 8 ((List.range 8).foldl (fun a b => a + b2n (cov.getD (8 * j + b) false) * 2 ^ b) 0))
    let planes := (List.range (1 + dAttrs c)).flatMap (fun i => (planeOf p q r i).flatMap (fun w => leBytes 4 w.toNat))
    let head := leBytes 4 seq ++ leBytes 1 (leAt c 6 1) ++ leBytes 1 (leAt c 4 1 + leAt c 3 1 * 2 + leAt c 5 1 * 16)
      ++ leBytes 1 (dAttrs c) ++ leBytes 1 0 ++ leBytes 4 n ++ leBytes 4 0
    some ⟨ty * ps.tilesX + tx, head ++ planes ++ List.replicate (112 - planes.length) 0#8 ++ bytes⟩

/-- The records of triangle `i` in tile order (R222). -/
def triangleRecords (ps : RastPass) (c data : List Byte) (i : Nat) : List RastRec :=
  match triangleOf c data i with
  | none => []
  | some (p, q, r) =>
    if discarded c p q r then []
    else
      let pix := fun (v : Int) => (v / 8192).toNat
      let lo := fun (a b d : Int) => pix (min a (min b d))
      let hi := fun (a b d : Int) (n : Nat) => min (pix (max a (max b d)) + 1) n
      let x0 := lo p.x q.x r.x
      let y0 := lo p.y q.y r.y
      let x1 := hi p.x q.x r.x ps.tilesX
      let y1 := hi p.y q.y r.y ps.tilesY
      (List.range (y1 - y0)).flatMap (fun b => (List.range (x1 - x0)).filterMap (fun a =>
        binRecord ps c (ps.seq + i) p q r (x0 + a) (y0 + b)))

/-- Records that bin memory holds. -/
def binCapacity : Nat := 32768

/-- Bin triangles `i` to below `i + n`, from record `k` of the first: the pass, and where binning stopped for want of room. -/
def binTriangles (ps : RastPass) (c data : List Byte) : Nat → Nat → Nat → RastPass × Option (Nat × Nat)
  | 0, _, _ => (ps, none)
  | n + 1, i, k =>
    let rs := (triangleRecords ps c data i).drop k
    let room := binCapacity - ps.recs.length
    if rs.length ≤ room then binTriangles { ps with recs := ps.recs ++ rs } c data n (i + 1) 0
    else ({ ps with recs := ps.recs ++ rs.take room }, some (i, k + room))

/-! ### Tile jobs (R223-R225, R227) -/

/-- The RAST descriptors of the image, each with the Seat in whose share it stands (R147, R223). -/
def imRasts (m : List Byte) : List (Nat × List Nat) :=
  (imDescs m).filterMap (fun d => if dClass d.2.2 = 8 then some (seSeat m d.1, d.2.2) else none)

/-- R223: VEC descriptors from `a` up to and with the first that has END set, in the share of Seat `k`; 0 where the row holds no program. -/
def imProgCount (m : List Byte) (k a : Nat) : Nat → Nat
  | 0 => 0
  | n + 1 =>
    let w := imWord m 0 k a
    if bits w 3 0 ≠ 4 then 0 else if bit w 8 then 1 else 1 + imProgCount m k (a + 64) n

/-- R223: length L of program `p`; where its Seats hold programs of different lengths, the longest (log entry 18). -/
def imProgLen (m : List Byte) (p : Nat) : Nat :=
  ((imRasts m).map (fun d => imProgCount m d.1 ((tref (wd d.2 2)).base + p * (tref (wd d.2 2)).s1) 17)).foldl max 0

/-- The resident shading Lessons of the pass, by key. -/
def State.shadeLessons (s : State) (p : RastPass) : List Nat :=
  (List.range 4).filterMap (fun n =>
    let k := lessonKey s.rastSlice (s.rd (DISP_RAST_LESSON.LESSON_ID n))
    if bit p.mask n && s.rd (DISP_RAST_LESSON.LESSON_ID n) ≠ 0 && (match s.lesson? k with | some l => imRaster l.image | none => false)
    then some k else none)

/-- A run of records for one SHADE job: first record, how many, FIRST_SEQ, fragments. -/
structure ShadeRun where
  first : Nat
  count : Nat
  seq : Nat
  frags : Nat
  prog : Nat

def recProg (r : RastRec) : Nat := leAt r.bytes 4 1
def recCount (r : RastRec) : Nat := leAt r.bytes 8 4

/-- R224: split the records of a tile, in ascending SEQ from record index `i`, into SHADE jobs. -/
def shadeRuns (len : Nat → Nat) : Nat → List RastRec → List ShadeRun → List ShadeRun
  | _, [], acc => acc
  | i, r :: t, acc =>
    let new : ShadeRun := ⟨i, 1, leAt r.bytes 0 4, recCount r, recProg r⟩
    match acc.getLast? with
    | some g =>
      let f := g.frags + recCount r
      if g.prog = recProg r && f ≤ 1024 && 64 + ceilDiv f 64 * len g.prog ≤ 320 && g.count < 1024 then
        shadeRuns len (i + 1) t (acc.dropLast ++ [{ g with count := g.count + 1, frags := f }])
      else shadeRuns len (i + 1) t (acc ++ [new])
    | none => shadeRuns len (i + 1) t [new]

/-- The tile command of R224. -/
def tileCmd (p : RastPass) (tile op : Nat) (clear : Bool) (g : ShadeRun) (target : Nat) : List Nat :=
  [op + b2n clear * 4 + b2n clear * p.clearDepth * 8 + p.id * 65536,
   tile % p.tilesX + tile / p.tilesX * 65536, g.seq, g.frags - 1, g.first + (g.count - 1) * 65536,
   target % 2 ^ 32, target / 2 ^ 32 % 16 + p.stride * 256, p.clear]

/-- R227: the jobs of one tile: RELOAD if it has been spilled, its SHADE jobs, then RESOLVE (`last`) or SPILL. -/
def tileJobs (p : RastPass) (spillBase tile : Nat) (spilled last : Bool) (runs : List ShadeRun) : List (List Nat) :=
  let none' : ShadeRun := ⟨0, 1, 0, 1, 0⟩
  let slot := spillBase + tile * p.slot
  let target := p.target + tile / p.tilesX * 32 * p.stride + tile % p.tilesX * 32 * p.pixel
  let ops := (if spilled then [(3, none', slot)] else []) ++ runs.map (fun g => (0, g, target))
    ++ [if last then (1, none', target) else (2, none', slot)]
  (indexed 0 ops).map (fun q => tileCmd p tile q.2.1 (q.1 = 0 && !spilled) q.2.2.1 q.2.2.2)

/-- R222, R227: bin memory as the tile jobs read it: the records of each tile together, tiles ascending, SEQ ascending (log entry 21). -/
def binOrder (recs : List RastRec) (tiles : List Nat) : List RastRec := tiles.flatMap (fun t => recs.filter (·.tile = t))

/-- Physical address of bin memory (R222). -/
def binAddr : Nat := slateAddr 0 0x1800000

/-- The front end's write of the records `bs` to bin memory must wait. -/
def State.binsWait (s : State) (recs : List RastRec) : Bool :=
  !recs.isEmpty && s.binCheck s.rastCtx binAddr (256 * recs.length) true = .waits

/-- The front end writes bin memory. A write that fails over the dies comes back as a write-error message (R345). -/
def State.writeBins (s : State) (bs : List Byte) : State :=
  let c := s.rastCtx
  match s.binCheck c binAddr bs.length true with
  | .ok | .waits =>
    let e := (s.ctxUse c binAddr bs.length true).eccWrite binAddr bs.length
    if e.2 then (e.1.countCross c.die binAddr).writeMem binAddr bs else e.1.crossFailed c binAddr bs 8
  | .err | .viol _ => s.crossFailed c binAddr bs 0

/-- R227: every tile of `tiles` receives its jobs. -/
def State.planTiles (s : State) (p : RastPass) (tiles : List Nat) (last : Bool) : State :=
  let recs := binOrder p.recs tiles
  let s1 := if recs.isEmpty then s else s.writeBins (recs.flatMap (·.bytes))
  let ls := s.shadeLessons p
  let spill := s.rd DISP_RAST_SPILL.BASE * 4096
  let p1 := tiles.foldl (fun (q : RastPass) t =>
    let x := q.tile t
    let mine := recs.filter (·.tile = t)
    let first := (recs.takeWhile (·.tile ≠ t)).length
    let key := if x.seat.isSome then x.lesson else ls.getD (t % max ls.length 1) 0
    let len := fun n => match s.lesson? key with
      | some l => (let k := imProgLen l.image n; if k = 0 then 16 else k)
      | none => 16
    let jobs := tileJobs p spill t x.spilled last (shadeRuns len first mine [])
    q.setTile t { x with todo := jobs, lesson := key, begun := false, live := true, spilled := x.spilled || !last }) p
  s1.setPass (some p1)

/-- Every tile of a pass. -/
def RastPass.allTiles (p : RastPass) : List Nat := List.range (p.tilesX * p.tilesY)

/-- The tiles of a pass that have records. -/
def RastPass.binnedTiles (p : RastPass) : List Nat := p.allTiles.filter (fun t => p.recs.any (·.tile = t))

/-- R227: a DRAW has been binned, as `r` says; without room a partial render begins. -/
def State.binDraw (s : State) (p : RastPass) (c : List Byte) (r : RastPass × Option (Nat × Nat)) : State :=
  match r.2 with
  | none => (s.setPass (some { r.1 with seq := p.seq + dTriangles c, stopped := none })).rastNext.setPhase 1
  | some at' =>
    let q : RastPass := { r.1 with stopped := some at' }
    ((s.planTiles q q.binnedTiles false).setPhase 2).satAdd DISP_RAST_STATUS.PARTIALS 1

/-- The DRAW at TAIL, from where binning stands: its vertices are read, then binned. It waits where its vertices, or bin memory for a partial render,
must be waited for; `keep` is the state before the command was read. -/
def State.drawFrom (s keep : State) (p : RastPass) (c : List Byte) (i k : Nat) : State :=
  let a := s.rastAddr (leAt c 8 8)
  let n := leAt c 16 4 * dVertexBytes c
  if s.ctxWaits s.rastCtx a n false then keep
  else
    let r := s.ctxRead s.rastCtx a n
    match r.2 with
    | none => r.1.rastNext.rastError 2
    | some data =>
      let b := binTriangles p c data (dTriangles c - i) i k
      if b.2.isSome && s.binsWait (binOrder b.1.recs b.1.binnedTiles) then keep else r.1.binDraw p c b

/-- The job record of a tile job (R160, R228). -/
def State.tileRecord (s : State) (p : RastPass) (lesson tile : Nat) (args : List Nat) : List Byte :=
  let dl := p.deadline.getD 0
  leBytes 8 lesson ++ leBytes 4 tile ++ leBytes 2 (if p.deadline.isSome then 7 else 0) ++ leBytes 2 0 ++ leBytes 8 dl
    ++ leBytes 8 (dl - s.rd DISP_RAST_CTRL.RESERVE_US * 1000) ++ args.flatMap (leBytes 4)

/-- R225: the tile whose next job can be submitted: its previous job has ended, and its Lesson's first work queue has room. -/
def State.nextTile (s : State) (p : RastPass) : Option (Nat × RastTile × Lesson) :=
  p.tiles.findSome? (fun t =>
    if t.2.todo.isEmpty || t.2.sub.isSome || t.2.tag.isSome then none
    else
      match s.lesson? t.2.lesson with
      | some l =>
        let q := s.queue l.queueFirst
        if q.enabled && !s.qFull l.queueFirst && s.qmgrUp then some (t.1, t.2, l) else none
      | none => none)

/-- R225: submit one tile job. A record that cannot be written is dropped and counted as any entry of the device is (R418); one whose ring must be
waited for stays. -/
def State.submitTile (s : State) : State :=
  match s.rast.pass with
  | none => s
  | some p =>
    match s.nextTile p with
    | none => s
    | some (i, t, l) =>
      match t.todo with
      | [] => s
      | a :: rest =>
        let n := l.queueFirst
        let q := s.queue n
        if s.ctxWaits q.devCtx (q.entryAddr n q.prod) (q.entryBytes n) true || s.qLate n ≠ 0 then s
        else
          let w := s.ctxWrite q.devCtx (q.entryAddr n q.prod) (s.tileRecord p l.id i a)
          if w.2 then
            (w.1.qAdvance n).setPass (some (p.setTile i { t with todo := rest, sub := some (n, q.prod) }))
          else (w.1.qDrop n).setPass (some (p.setTile i { t with todo := rest }))

/-! ### What the front end sees of its jobs -/

/-- The tile of the current pass whose record stood at `index` of queue `n`. -/
def State.tileOfRecord (s : State) (n index : Nat) : Option (Nat × RastTile) :=
  match s.rast.pass with
  | none => none
  | some p => p.tiles.find? (fun t => t.2.sub = some (n, index))

/-- A tile job has been taken in as `tag`. -/
def State.tileTaken (s : State) (tile tag : Nat) : State :=
  match s.rast.pass with
  | none => s
  | some p => s.setPass (some (p.setTile tile { p.tile tile with sub := none, tag := some tag }))

/-- R225: Seat `g` holds a tile of the pass other than `tile`, whose RESOLVE or SPILL has still to commit. -/
def RastPass.ownsOther (p : RastPass) (g tile : Nat) : Bool :=
  p.tiles.any (fun t => t.1 ≠ tile && t.2.seat = some g && t.2.begun)

/-- R225: a tile job has been seated in Seat `g`, which owns the tile from its first job on. -/
def State.tileSeated (s : State) (tile g : Nat) : State :=
  match s.rast.pass with
  | none => s
  | some p =>
    let x := p.tile tile
    s.setPass (some (p.setTile tile { x with seat := some (x.seat.getD g), begun := true }))

/-- R229: the last RESOLVE of the pass has committed. -/
def State.passComplete (s : State) (p : RastPass) : State :=
  let s1 := if p.present then
      (s.wr (DISP_PLANE_ADDR.ADDR p.pipe p.plane) (s.rastAddr p.target)).wr (DISP_PLANE_ADDR.POST p.pipe p.plane) 1
    else s
  ((s1.wrapAdd DISP_RAST_STATUS.PASSES 1).setPass none).setPhase 0

/-- R225, R229: a tile job of step `args` commits; after RESOLVE or SPILL the Seat is free of the tile, and the last RESOLVE of a pass
ends it. -/
def State.tileCommitted (s : State) (r : TileRef) : State :=
  match s.passOf r.pass with
  | none => s
  | some p =>
    let x := p.tile r.tile
    let q := if r.step = 1 ∨ r.step = 2 then p.setTile r.tile { x with begun := false, live := false } else p
    let s1 := s.setPass (some q)
    if q.ending && q.quiet then s1.passComplete q else s1

/-- R225, R229: a tile job's completion has been written; one that ended other than DONE abandons the pass. -/
def State.tileEnded (s : State) (r : TileRef) (done : Bool) : State :=
  match s.passOf r.pass with
  | none => s
  | some p =>
    let s1 := s.setPass (some (p.setTile r.tile { p.tile r.tile with tag := none }))
    if done then s1 else s1.dropPass

/-! ### Register writes -/

/-- A Lesson region overlaps bin memory. -/
def State.binTaken (s : State) : Bool :=
  s.lessons.any (fun l => l.2.places.any (fun p => p.cluster = 0 && 0 < p.slate64k && 384 < p.slateOff + p.slate64k))

/-- R219, R229: a write to DISP_RAST_CTRL. -/
def State.rastCtrlWrite (s : State) (v : Nat) : State :=
  let s1 := s.plainWrite DISP_RAST_CTRL (RegFam.fields .disp_rast_ctrl) false v
    (fun x n => x.lo ≠ 0 && (x.lo ≠ 32 || (100 ≤ n && n ≤ 16000)))
  if bit v 0 then (if s.on DISP_RAST_CTRL.ENABLE || s.binTaken then s1
    else let s2 := s1.wr DISP_RAST_CTRL.ENABLE 1; s2.rastSkip s2.rastRing)
  else if s.on DISP_RAST_CTRL.ENABLE then
    let s2 := s1.dropPass.wr DISP_RAST_CTRL.ENABLE 0
    s2
  else s1

/-- A write to DISP_RAST_RING: only while ENABLE is 0; BASE bits [11:0] are zero and SIZE is at most 14. -/
def State.rastRingWrite (s : State) (v : Nat) : State :=
  if s.on DISP_RAST_CTRL.ENABLE then s
  else
    let s1 := s.wr DISP_RAST_RING.BASE (bits v 35 12 * 4096)
    if bits v 43 40 ≤ 14 then s1.wr DISP_RAST_RING.SIZE (bits v 43 40) else s1

/-- R220: a write to DISP_RAST_PTR moves HEAD; commands of an abandoned pass among the new ones are discarded. -/
def State.rastHeadWrite (s : State) (v : Nat) : State :=
  let s1 := s.wr DISP_RAST_PTR.HEAD (bits v 19 0)
  s1.rastSkip s1.rastRing

/-! ### The commands -/

/-- RAST_CTRL_WRITE (R229). -/
def execRastCtrlWrite (who : Initiator) (data : Word) (s : State) : Host.Outcome State Fault Refusal :=
  .next (s.live (
    if s.arrives who.kind who.index DISP_RAST_CTRL.addr && s.regUp DISP_RAST_CTRL.addr && s.rightsOk .disp_rast_ctrl 0 who true
        && !s.rastCtrlRights (s.ctx who) data.toNat then s.regRefused who DISP_RAST_CTRL.addr true 3
    else s.regWr who .disp_rast_ctrl 0 0 (fun t => t.rastCtrlWrite data.toNat)))

/-- RAST_HEAD_WRITE (R220). -/
def execRastHeadWrite (who : Initiator) (data : Word) (s : State) : Host.Outcome State Fault Refusal :=
  .next (s.live (s.regWr who .disp_rast_ptr 0 0 (fun t => t.rastHeadWrite data.toNat)))

/-- RAST_PASS_BEGIN (R228). -/
def execRastPassBegin (s : State) : Host.Outcome State Fault Refusal := .next (s.live (s.rastTake 1 State.passBegin))

/-- RAST_DRAW (R221): a DRAW outside a pass is an error (log entry 27). -/
def execRastDraw (s : State) : Host.Outcome State Fault Refusal :=
  .next (s.live (s.rastTake 2 (fun t c =>
    match t.rast.pass with
    | none => t.rastNext.rastError 2
    | some p => if p.stopped.isSome then s else if p.ending then t.rastNext.rastError 2 else t.drawFrom s p c 0 0)))

/-- RAST_PARTIAL_RESUME (R227): every SPILL has committed; bin memory is empty and binning goes on. -/
def execRastPartialResume (s : State) : Host.Outcome State Fault Refusal :=
  .next (s.live (s.rastTake 2 (fun t c =>
    match t.rast.pass with
    | none => s
    | some p =>
      match p.stopped with
      | none => s
      | some (i, k) => if p.quiet then t.drawFrom s { p with recs := [] } c i k else s)))

/-- RAST_PASS_END (R227). -/
def execRastPassEnd (s : State) : Host.Outcome State Fault Refusal :=
  .next (s.live (s.rastTake 3 (fun t _ =>
    match t.rast.pass with
    | none => t.rastNext.rastError 3
    | some p =>
      if p.ending then t.rastNext.rastError 3
      else if s.binsWait (binOrder p.recs p.allTiles) then s
      else (t.rastNext.planTiles { p with ending := true } p.allTiles true).setPhase 3)))

/-- RAST_NOP (R220). -/
def execRastNop (s : State) : Host.Outcome State Fault Refusal := .next (s.live (s.rastTake 4 (fun t _ => t.rastNext)))

/-- RAST_TILE_JOB_SUBMIT (R225). -/
def execRastTileJobSubmit (s : State) : Host.Outcome State Fault Refusal :=
  .next (s.live (if s.rastUp then s.submitTile else s))

/-- RAST_STATUS_READ (R14). -/
def execRastStatusRead (who : Initiator) (s : State) : Host.Outcome State Fault Refusal :=
  .next (s.live (s.regRd who .disp_rast_status 0 0 (fun t => t.reg64 DISP_RAST_STATUS)
    (fun t => t.readClear DISP_RAST_STATUS (RegFam.fields .disp_rast_status))))

end Sys2Proof.Machine
end

