-- ==== Sys2Proof/Machine/Sha.lean ====
section
/-! DEFINITION. SHA-384 (FIPS 180-4), which measures firmware and Lessons (06_lessons R149, 13_firmware_mladnel R307), and HMAC over it, which
derives the Compound Device Identifiers (12_worlds_identity R299). A word is a number below 2^64. -/

namespace Sys2Proof.Machine

/-- A word rotated right by `n`. -/
def rotr64 (x n : Nat) : Nat := (x >>> n) ||| (x <<< (64 - n) % 2 ^ 64)

/-- The complement of a word. -/
def not64 (x : Nat) : Nat := 2 ^ 64 - 1 - x

/-- The eight words that the hash starts from. -/
def shaStart : List Nat :=
  [0xCBBB9D5DC1059ED8, 0x629A292A367CD507, 0x9159015A3070DD17, 0x152FECD8F70E5939, 0x67332667FFC00B31,
   0x8EB44A8768581511, 0xDB0C2E0D64F98FA7, 0x47B5481DBEFA4FA4]

/-- The round constants: the first 64 bits of the fractional parts of the cube roots of the first 80 primes, twenty at a time. -/
def shaK0 : List Nat :=
  [0x428A2F98D728AE22, 0x7137449123EF65CD, 0xB5C0FBCFEC4D3B2F, 0xE9B5DBA58189DBBC, 0x3956C25BF348B538,
   0x59F111F1B605D019, 0x923F82A4AF194F9B, 0xAB1C5ED5DA6D8118, 0xD807AA98A3030242, 0x12835B0145706FBE,
   0x243185BE4EE4B28C, 0x550C7DC3D5FFB4E2, 0x72BE5D74F27B896F, 0x80DEB1FE3B1696B1, 0x9BDC06A725C71235,
   0xC19BF174CF692694, 0xE49B69C19EF14AD2, 0xEFBE4786384F25E3, 0x0FC19DC68B8CD5B5, 0x240CA1CC77AC9C65]
def shaK1 : List Nat :=
  [0x2DE92C6F592B0275, 0x4A7484AA6EA6E483, 0x5CB0A9DCBD41FBD4, 0x76F988DA831153B5, 0x983E5152EE66DFAB,
   0xA831C66D2DB43210, 0xB00327C898FB213F, 0xBF597FC7BEEF0EE4, 0xC6E00BF33DA88FC2, 0xD5A79147930AA725,
   0x06CA6351E003826F, 0x142929670A0E6E70, 0x27B70A8546D22FFC, 0x2E1B21385C26C926, 0x4D2C6DFC5AC42AED,
   0x53380D139D95B3DF, 0x650A73548BAF63DE, 0x766A0ABB3C77B2A8, 0x81C2C92E47EDAEE6, 0x92722C851482353B]
def shaK2 : List Nat :=
  [0xA2BFE8A14CF10364, 0xA81A664BBC423001, 0xC24B8B70D0F89791, 0xC76C51A30654BE30, 0xD192E819D6EF5218,
   0xD69906245565A910, 0xF40E35855771202A, 0x106AA07032BBD1B8, 0x19A4C116B8D2D0C8, 0x1E376C085141AB53,
   0x2748774CDF8EEB99, 0x34B0BCB5E19B48A8, 0x391C0CB3C5C95A63, 0x4ED8AA4AE3418ACB, 0x5B9CCA4F7763E373,
   0x682E6FF3D6B2B8A3, 0x748F82EE5DEFB2FC, 0x78A5636F43172F60, 0x84C87814A1F0AB72, 0x8CC702081A6439EC]
def shaK3 : List Nat :=
  [0x90BEFFFA23631E28, 0xA4506CEBDE82BDE9, 0xBEF9A3F7B2C67915, 0xC67178F2E372532B, 0xCA273ECEEA26619C,
   0xD186B8C721C0C207, 0xEADA7DD6CDE0EB1E, 0xF57D4F7FEE6ED178, 0x06F067AA72176FBA, 0x0A637DC5A2C898A6,
   0x113F9804BEF90DAE, 0x1B710B35131C471B, 0x28DB77F523047D84, 0x32CAAB7B40C72493, 0x3C9EBE0A15C9BEBC,
   0x431D67C49C100D4C, 0x4CC5D4BECB3E42B6, 0x597F299CFC657E2A, 0x5FCB6FAB3AD6FAEC, 0x6C44198C4A475817]

/-- The round constants. -/
def shaK : List Nat := shaK0 ++ (shaK1 ++ (shaK2 ++ shaK3))

/-- The message schedule: the last sixteen words, oldest first, give the next. -/
def shaNext (w : List Nat) : Nat :=
  let x := w.getD 1 0
  let y := w.getD 14 0
  let s0 := (rotr64 x 1 ^^^ rotr64 x 8) ^^^ (x >>> 7)
  let s1 := (rotr64 y 19 ^^^ rotr64 y 61) ^^^ (y >>> 6)
  (s1 + w.getD 9 0 + s0 + w.getD 0 0) % 2 ^ 64

/-- The eight working words. -/
structure ShaWork where
  a : Nat
  b : Nat
  c : Nat
  d : Nat
  e : Nat
  f : Nat
  g : Nat
  h : Nat

/-- One round with constant `k` and schedule word `w`. -/
def ShaWork.round (x : ShaWork) (k w : Nat) : ShaWork :=
  let s1 := (rotr64 x.e 14 ^^^ rotr64 x.e 18) ^^^ rotr64 x.e 41
  let ch := (x.e &&& x.f) ^^^ (not64 x.e &&& x.g)
  let t1 := x.h + s1 + ch + k + w
  let s0 := (rotr64 x.a 28 ^^^ rotr64 x.a 34) ^^^ rotr64 x.a 39
  let maj := ((x.a &&& x.b) ^^^ (x.a &&& x.c)) ^^^ (x.b &&& x.c)
  ⟨(t1 + s0 + maj) % 2 ^ 64, x.a, x.b, x.c, (x.d + t1) % 2 ^ 64, x.e, x.f, x.g⟩

/-- The rounds over the remaining constants; `w` holds the next sixteen words of the schedule. -/
def ShaWork.run : List Nat → List Nat → ShaWork → ShaWork
  | [], _, x => x
  | k :: ks, w, x => ShaWork.run ks (w.drop 1 ++ [shaNext w]) (x.round k (w.getD 0 0))

/-- The number that bytes spell, most significant first. -/
def beNat (bs : List Byte) : Nat := leNat bs.reverse

/-- One block of 128 bytes changes the hash. -/
def shaBlock (h : List Nat) (block : List Byte) : List Nat :=
  let w := (List.range 16).map (fun i => beNat ((block.drop (8 * i)).take 8))
  let v := fun (i : Nat) => h.getD i 0
  let x := ShaWork.run shaK w ⟨v 0, v 1, v 2, v 3, v 4, v 5, v 6, v 7⟩
  List.zipWith (fun p q => (p + q) % 2 ^ 64) h [x.a, x.b, x.c, x.d, x.e, x.f, x.g, x.h]

/-- `n` blocks in turn. -/
def shaBlocks : Nat → List Byte → List Nat → List Nat
  | 0, _, h => h
  | n + 1, bs, h => shaBlocks n (bs.drop 128) (shaBlock h (bs.take 128))

/-- The message padded to whole blocks: a 1 bit, zeros, and its length in bits in 16 bytes. -/
def shaPad (m : List Byte) : List Byte :=
  let zeros := (239 - m.length % 128) % 128
  m ++ (0x80#8 :: List.replicate zeros 0#8) ++ (leBytes 16 (8 * m.length)).reverse

/-- The SHA-384 digest of a message, 48 bytes in the order of the standard. -/
def sha384 (m : List Byte) : List Byte :=
  let p := shaPad m
  ((shaBlocks (p.length / 128) p shaStart).take 6).flatMap (fun x => (leBytes 8 x).reverse)

/-- HMAC-SHA-384 with a key of at most 128 bytes. -/
def hmacSha384 (key m : List Byte) : List Byte :=
  let k := key ++ List.replicate (128 - key.length) 0#8
  sha384 (k.map (fun b => b ^^^ 0x5C#8) ++ sha384 (k.map (fun b => b ^^^ 0x36#8) ++ m))

/-- R299: the Compound Device Identifier of a die: HMAC-SHA-384 of its secret with the measurement of its first mutable firmware. A
secret and a digest are byte strings, byte 0 in the low bits (R10). -/
def compoundId (secret : BitVec 256) (measure : BitVec 384) : BitVec 384 :=
  BitVec.ofNat 384 (leNat (hmacSha384 (leBytes 32 secret.toNat) (leBytes 48 measure.toNat)))

end Sys2Proof.Machine
end

