-- ==== Sys2Proof/Machine/Sync.lean ====
section
/-! DEFINITION. The SYNC descriptors and what wakes or times out a BLOCKED Seat (02_tensor_core R46, R47, R62, R63). -/

namespace Sys2Proof.Machine

/-- The layout of SYNC: the fields that each opcode uses; every other bit is zero (R49). -/
def syncOk (op : Nat) (_s : State) (ws : List Nat) : Bool :=
  let idx := fld ws 1 7 0
  let parts := fld ws 1 15 8
  let cmp := fld ws 1 17 16
  let tmo := fld ws 1 47 32
  let rest := fld ws 1 31 18 = 0 && fld ws 1 63 48 = 0 && fld ws 2 63 32 = 0 && fld ws 3 5 0 = 0 && fld ws 3 63 21 = 0
    && wd ws 4 = 0 && wd ws 5 = 0 && wd ws 6 = 0 && wd ws 7 = 0
  let value := fld ws 2 31 0
  let target := fld ws 3 20 6
  rest && (match op with
    | 1 => idx ≤ 15 && cmp = 0 && 1 ≤ tmo && value = 0 && target = 0
    | 2 => parts = 0 && cmp ≤ 2 && 1 ≤ tmo && target = 0
    | 3 => parts = 0 && cmp = 0 && tmo = 0 && target = 0
    | 4 => wd ws 1 = 0 && value = 0
    | _ => wd ws 1 = 0 && value = 0 && target = 0)

/-- A SYNC descriptor in flight: it touches no operand. -/
def syncFlight (ws : List Nat) : InFlight := ⟨ws, 0, [], [], [], [], 0, 0, none, [], false, false⟩

/-- A SYNC descriptor issues and the pointer advances. -/
def State.syncIssue (s : State) (g : Nat) (ws : List Nat) : State :=
  let s1 := s.noteIssue g
  let x := s1.seat g
  (s1.setSeat g { x with flight := x.flight ++ [syncFlight ws] }).advance g

/-- The synchronisation block that SYNC INDEX counts within (R152). -/
def State.syncBlock (s : State) (g : Nat) : Option Nat :=
  match s.seatLesson g with
  | none => none
  | some l => (l.places.find? (fun p => p.seats.contains g)).bind (·.block)

/-- The value of a semaphore of a cluster (R62). -/
def State.sem (s : State) (cluster key : Nat) : Nat := Table.get (s.cluster cluster).sems 0 key

def State.setSem (s : State) (cluster key v : Nat) : State :=
  let c := s.cluster cluster
  s.setCluster cluster { c with sems := Table.set c.sems 0 key v }

/-- SEM_WAIT's comparison (CMP); a semaphore wraps, so that CMP 0 takes the difference as a signed number (R397, R400). -/
def semHolds (cmp v value : Nat) : Bool :=
  match cmp with
  | 0 => decide (0 ≤ wrapDiff 32 v value)
  | 1 => v = value
  | _ => v ≠ value

/-- Two Seats work for the same job or Quiz run. -/
def sameJob (a b : Option SeatJob) : Bool :=
  match a, b with
  | some x, some y => x.quiz = y.quiz && x.ref = y.ref && x.fallback = y.fallback
  | _, _ => false

/-- The Seat waits at the barrier, for the same job as `g`. -/
def State.atBarrier (s : State) (g key x : Nat) : Bool :=
  x = g || (sameJob (s.seat x).job (s.seat g).job &&
    (match (s.seat x).wait with | some w => w.isBarrier && w.key = key && !w.sat | none => false))

/-- Every core of PARTICIPANTS has a Seat of the job at the barrier, the arriving Seat `g` counted. -/
def State.barrierFull (s : State) (g key mask : Nat) : Bool :=
  (List.range 8).all (fun c => !bit mask c ||
    (List.range 8).any (fun k => s.atBarrier g key (64 * clusterOf g + 8 * c + k)))

/-- The condition of a waiting Seat has held. -/
def State.satisfy (s : State) (g : Nat) : State :=
  match (s.seat g).wait with
  | some w => s.setSeat g { s.seat g with wait := some { w with sat := true } }
  | none => s

/-- The Seats of a cluster. -/
def clusterSeats (n : Nat) : List Nat := (List.range 64).map (fun i => 64 * n + i)

/-- The Seat enters BLOCKED and releases the issue path (R62). What it left in the array stays until another Seat has the path (log entry 77). -/
def State.block (s : State) (g : Nat) (ws : List Nat) (w : Wait) : State :=
  let s1 := s.syncIssue g ws
  let s2 := s1.setSeat g { s1.seat g with wait := some w }
  (s2.setSeatState g 4).arbitrate (coreOf g)

/-- SYNC FENCE (R47): issues once every earlier descriptor of the Seat has completed. -/
def execSyncFence (seat : Fin 1024) (s : State) : Host.Outcome State Fault Refusal :=
  .next (s.live (s.issue seat.val 7 0 (syncOk 0) (fun t ws =>
    if (s.seat seat.val).flight.isEmpty then t.syncIssue seat.val ws else s)))

/-- SYNC BARRIER (R62): the Seat arrives; the last participant frees every Seat waiting there, any other becomes BLOCKED. A
Lesson without a synchronisation block in the cluster has no barrier to name: DESC_INVALID (log entry 16). -/
def execSyncBarrier (seat : Fin 1024) (s : State) : Host.Outcome State Fault Refusal :=
  .next (s.live (s.issue seat.val 7 1 (fun t ws => syncOk 1 t ws && (t.syncBlock seat.val).isSome) (fun t ws =>
    let g := seat.val
    let key := (t.syncBlock g).getD 0 * 16 + fld ws 1 7 0
    let mask := fld ws 1 15 8
    if t.barrierFull g key mask then
      ((clusterSeats (clusterOf g)).filter (fun x => x ≠ g && t.atBarrier g key x)).foldl (fun u x => u.satisfy x)
        (t.syncIssue g ws)
    else t.block g ws ⟨true, key, mask, 0, 0, t.clock.up, fld ws 1 47 32, false⟩)))

/-- SYNC SEM_WAIT (R62): the Seat goes on if the comparison holds, and otherwise becomes BLOCKED. -/
def execSyncSemWait (seat : Fin 1024) (s : State) : Host.Outcome State Fault Refusal :=
  .next (s.live (s.issue seat.val 7 2 (fun t ws => syncOk 2 t ws && (t.syncBlock seat.val).isSome) (fun t ws =>
    let g := seat.val
    let key := (t.syncBlock g).getD 0 * 256 + fld ws 1 7 0
    if semHolds (fld ws 1 17 16) (t.sem (clusterOf g) key) (fld ws 2 31 0) then t.syncIssue g ws
    else t.block g ws ⟨false, key, 0, fld ws 1 17 16, fld ws 2 31 0, t.clock.up, fld ws 1 47 32, false⟩)))

/-- SYNC SEM_SIGNAL (R62): VALUE is added modulo 2^32, and every Seat whose comparison now holds may wake. -/
def execSyncSemSignal (seat : Fin 1024) (s : State) : Host.Outcome State Fault Refusal :=
  .next (s.live (s.issue seat.val 7 3 (fun t ws => syncOk 3 t ws && (t.syncBlock seat.val).isSome) (fun t ws =>
    let g := seat.val
    let n := clusterOf g
    let key := (t.syncBlock g).getD 0 * 256 + fld ws 1 7 0
    let v := (t.sem n key + fld ws 2 31 0) % 2 ^ 32
    let t1 := (t.setSem n key v).syncIssue g ws
    (clusterSeats n).foldl (fun u x =>
      match (u.seat x).wait with
      | some w => if !w.isBarrier && w.key = key && semHolds w.cmp v w.value then u.satisfy x else u
      | none => u) t1)))

/-- SYNC LINK (R46): the pointer becomes TARGET. -/
def execSyncLink (seat : Fin 1024) (s : State) : Host.Outcome State Fault Refusal :=
  .next (s.live (s.issue seat.val 7 4 (syncOk 4) (fun t ws =>
    let t1 := t.syncIssue seat.val ws
    (t1.setSeat seat.val { t1.seat seat.val with ptrOver := false }).wr
      (CLC_SEAT_DESC_PTR.PTR (seat.val / 64) (seat.val % 64)) (fld ws 3 20 6))))

/-- SYNC NOP (R63). -/
def execSyncNop (seat : Fin 1024) (s : State) : Host.Outcome State Fault Refusal :=
  .next (s.live (s.issue seat.val 7 5 (syncOk 5) (fun t ws => t.syncIssue seat.val ws)))

/-- R62: a BLOCKED Seat whose condition has held becomes READY; its SYNC descriptor completes. -/
def execSyncWaitSatisfied (seat : Fin 1024) (s : State) : Host.Outcome State Fault Refusal :=
  let g := seat.val
  let x := s.seat g
  .next (s.live (
    if s.seatState g = 4 && (match x.wait with | some w => w.sat | none => false) then
      let s1 := (s.setSeat g { x with wait := none }).setSeatState g 2
      let s2 := match (indexed 0 x.flight).find? (fun p => dClass p.2.words = 7 && !p.2.squash) with
        | some (i, _) => s1.completeDesc g i
        | none => s1
      s2.arbitrate (coreOf g)
    else s))

/-- R62: the wait of a BLOCKED Seat has lasted TIMEOUT_US without its condition holding; the Seat halts with SYNC_TIMEOUT. -/
def execSyncTimeout (seat : Fin 1024) (s : State) : Host.Outcome State Fault Refusal :=
  let g := seat.val
  .next (s.live (
    if s.seatState g = 4 && (match (s.seat g).wait with | some w => !w.sat && s.passed w.since (w.timeoutUs * 1000) | none => false)
    then s.haltSeat g 3 else s))

end Sys2Proof.Machine
end

