-- ==== Sys2Proof/Machine/Lessons.lean ====
section
/-! DEFINITION. Lessons: admission of an image, placement, content, unloading (06_lessons R145-R159; 04_locker_slate R120;
05_convolution_pooling R124, R129-R131; 09_raster_display R223; 12 R301; 13 R317). -/

namespace Sys2Proof.Machine

/-! ### Refusal reports (R156, R157) -/

/-- One entry of a report. -/
structure Shortfall where
  resource : Nat
  cluster : Nat
  stage : Nat
  replica : Nat
  needed : Nat
  available : Nat
  deriving DecidableEq, Repr

def Shortfall.bytes (e : Shortfall) : List Byte :=
  leBytes 1 e.resource ++ leBytes 1 e.cluster ++ leBytes 1 e.stage ++ leBytes 1 e.replica ++ leBytes 4 e.needed
    ++ leBytes 4 e.available ++ leBytes 4 0

/-- The report: at most 255 entries. -/
def reportBytes (l : List Shortfall) : List Byte :=
  leBytes 2 (min l.length 255) ++ leBytes 1 (b2n (255 < l.length)) ++ leBytes 5 0 ++ (l.take 255).flatMap Shortfall.bytes

/-! ### Steps 1 to 4 of R151 -/

/-- Step 1: magic, header length, and the tables and the trailer within the image of `n` bytes. -/
def imFrameOk (m : List Byte) (n : Nat) : Bool :=
  0x80 ≤ n && imMagic m = 0x4E534C54 && imHeaderLen m = 0x80 && 0x80 ≤ imLen m && imLen m + imTrailer m ≤ n
    && imStageOff m + 32 * imStages m ≤ imLen m && imSectionOff m + 24 * imSections m ≤ imLen m

/-- R149: what the image `m`, with its trailer, is found to be: the root that its chain verifies to, and the content of a Rubric. The bytes alone decide
it, so the first finding stays (log entry 90). -/
def State.findImage (s : State) (m : List Byte) (root : SigRoot) (c : Option RubricContent) : State × ImageFound :=
  match s.found.find? (fun f => f.bytes = m) with
  | some f => (s, f)
  | none => let f : ImageFound := ⟨m, root, c⟩; ({ s with found := f :: s.found }, f)

/-- Step 3: the roots that Lessons and Rubrics may chain to in the lifecycle state (R301). -/
def State.rootOk (s : State) (r : SigRoot) : Bool :=
  match r with
  | .bad => false
  | .viforik => s.fuses.lifecycle = 0 || s.fuses.lifecycle = 3
  | .owner k => (s.fuses.lifecycle = 1 || s.fuses.lifecycle = 2) && bit s.fuses.ownersFused k.val && !bit s.fuses.ownersRevoked k.val
  | .developer k => s.fuses.lifecycle = 1 && k < s.boot.devRoots

/-- Step 4: the header within the limits of R145. -/
def imHeaderOk (m : List Byte) : Bool :=
  imId m ≠ 0 && imFlags m < 8 && imClass m ≤ 4 && 1 ≤ imStages m && imStages m ≤ 16 && 1 ≤ imQueues m && imQueues m ≤ 512
    && (if imSequence m then 1 ≤ imBatch m && imBatch m ≤ 64 && 1 ≤ imSeqMax m && imSeqMax m ≤ 8192
        else imBatch m = 0 && imSeqMax m = 0)
    && (imQuizCycles m ≠ 0) = imSafety m
    && 1 ≤ imSections m && imSections m ≤ 65535 && zeros m 0x50 0x80 && imSafety m = (imClass m = 0)
    && imFallback m ≠ imId m

/-- Step 4: stage `k` within the limits of R146. -/
def imStageOk (m : List Byte) (k : Nat) : Bool :=
  1 ≤ stCores m k && stCores m k ≤ 8 && 1 ≤ stSeatsPerCore m k && stSeatsPerCore m k ≤ 8 && 1 ≤ stLocker4k m k
    && stLocker4k m k ≤ 512 && stSlate64k m k ≤ 512 && stSemBlock m k ≤ 1 && stAt m k 7 1 = 0 && stAt m k 0x0C 20 = 0
    && stEntry m k * 64 + 64 ≤ stLocker4k m k * 4096
    && (!imSafety m || imQuizEntry m * 64 + 64 ≤ stLocker4k m k * 4096) && stSeatsPerCore m k = stSeatsPerCore m 0

/-- Step 4: section `k` within the limits of R147. -/
def imSectionOk (m : List Byte) (k : Nat) : Bool :=
  seKind m k ≤ 1 && seConst m k ≤ 1 && seReloc m k ≤ 1 && seAt m k 0x11 7 = 0 && seStage m k < imStages m
    && (if seKind m k = 0 then seSeat m k < stSeats m (seStage m k) else seSeat m k = 0)
    && seDest m k + seLen m k ≤ (if seKind m k = 0 then stLocker4k m (seStage m k) * 4096 else stSlate64k m (seStage m k) * 65536)
    && seSrc m k + seLen m k ≤ imLen m && (seReloc m k = 0 || (seDest m k % 64 = 0 && seLen m k % 64 = 0))

/-- Two sections of one share or region. -/
def sameHome (m : List Byte) (a b : Nat) : Bool :=
  seKind m a = seKind m b && seStage m a = seStage m b && seSeat m a = seSeat m b

/-- Step 4: no section overlaps an earlier one. -/
def imDisjoint (m : List Byte) : Bool :=
  (imSecs m).all (fun b => (List.range b).all (fun a => !(sameHome m a b && overlaps (seDest m a) (seLen m a) (seDest m b) (seLen m b))))

/-- The SLATE stage indices of a MOVE descriptor (R148). -/
def slateStages (ws : List Nat) : List Nat :=
  if dClass ws ≠ 0 then []
  else ((if dOp ws = 2 then [] else [wd ws 1]) ++ [wd ws 2] ++ (if dOp ws = 1 then [wd ws 6] else [])).filterMap (fun w =>
    if bits w 63 62 = 1 then some (bits w 59 56) else none)

/-- The program at offset `a` of the share of Seat `k` of a shading Lesson ends with END within `n` descriptors. -/
def imProgEnds (m : List Byte) (k a : Nat) : Nat → Bool
  | 0 => false
  | n + 1 =>
    let w := imWord m 0 k a
    if bits w 3 0 ≠ 4 then false else bit w 8 || imProgEnds m k (a + 64) n

/-- The programs of the PROGRAM TREF `w` in the share of Seat `k`: those of its rows 0 to 15, which PROGRAM can name (R220), that begin with a VEC
descriptor (log entry 18). -/
def imPrograms (m : List Byte) (k w : Nat) : List Nat :=
  let t := tref w
  ((List.range (if t.s1 = 0 then 1 else 16)).map (fun p => t.base + p * t.s1)).filter (fun a => bits (imWord m 0 k a) 3 0 = 4)

/-- R223: a shading Lesson, or a Lesson without RASTER: each of its RAST descriptors has programs of 1 to 16 descriptors. -/
def imRasterOk (m : List Byte) : Bool :=
  !imRaster m || (imStages m = 1 && stSemBlock m 0 = 0 && imClass m = 1 && !(imRasts m).isEmpty
    && (imRasts m).all (fun d => !(imPrograms m d.1 (wd d.2 2)).isEmpty
      && (imPrograms m d.1 (wd d.2 2)).all (fun a => imProgEnds m d.1 a 16)))

/-- R150: the load options. -/
def optionsOk (m : List Byte) (opts : Nat) : Bool :=
  opts < 16 && (!bit opts 0 || (!imSafety m && imFallback m ≠ 0))
    && (if imSafety m then bits opts 3 1 = 0 else bits opts 3 1 = 0 || (imClass m ≤ bits opts 3 1 && bits opts 3 1 ≤ 4))

/-- Step 4 of R151. -/
def State.imFieldsOk (s : State) (i : Nat) (m : List Byte) (opts : Nat) : Bool :=
  imHeaderOk m && (List.range (imStages m)).all (imStageOk m) && (imSecs m).all (imSectionOk m) && imDisjoint m
    && (imDescs m).all (fun d => (slateStages d.2.2).all (· < imStages m)) && imRasterOk m && optionsOk m opts
    && (s.lesson? (lessonKey i (imId m))).isNone

/-! ### Step 5: descriptors -/

/-- R63 for POOL: at most 384 issue-path cycles. -/
def poolBoundOk (ws : List Nat) : Bool :=
  let q := poolGeo ws
  32 + q.th * q.tw * ceilDiv (q.kh * q.kw) 16 * ceilDiv (poolCh ws) 64 ≤ 384

/-- R49 and R63 for a descriptor of an image. A RAST descriptor stands in a RASTER Lesson, with zero in what the tile command
gives (R223, R224). -/
def State.imDescOk (s : State) (m : List Byte) (ws : List Nat) : Bool :=
  bits (wd ws 0) 15 11 = 0 && dOp ws < opcodes (dClass ws) && (match dClass ws with
    | 0 => moveOk (dOp ws) s ws
    | 1 => mmaOk (dOp ws = 1) s ws
    | 2 => convFieldsOk (dOp ws) ws
    | 3 => poolFieldsOk ws && poolBoundOk ws
    | 4 => vecOk (dOp ws) s ws
    | 5 => decodeOk (dOp ws) s ws
    | 6 => suppressOk s ws
    | 7 => syncOk (dOp ws) s ws
    | _ => imRaster m && rastRefsOk ws && dOp ws = 0 && wd ws 3 = 0 && wd ws 4 = 0 && wd ws 5 = 0 && wd ws 6 = 0)

/-! ### Step 6: shapes -/

/-- R124 for the descriptors of a layer, the extent taken with its full kernel. -/
def layerShapes (m : List Byte) (l : List ConvD) : List (Nat × Nat) :=
  let k := layerKernel l
  l.filterMap (fun d =>
    let q := d.geo
    let size := stLocker4k m (seStage m d.sec) * 4096
    let full := { q with kh := k.1 - q.koffY, kw := k.2 - q.koffX }
    if convShapeOk d.op size d.ws && full.shapeOk then none else some (d.sec, d.idx))

/-- The descriptors of the share that holds section `k`, each with its place in units of 64 bytes. -/
def imPlaced (m : List Byte) (k : Nat) : List (Nat × Nat × Nat × List Nat) :=
  ((imDescs m).filter (fun d => sameHome m d.1 k)).map (fun d => (seDest m d.1 / 64 + d.2.1, d))

/-- The places that a Seat runs through from place `a` on, behind those of `acc`: the pointer advances or follows a LINK, up to END (R46, R47). -/
def runFrom (ds : List (Nat × Nat × Nat × List Nat)) : Nat → Nat → List Nat → List Nat
  | 0, _, acc => acc
  | n + 1, a, acc =>
    match ds.find? (fun d => d.1 = a) with
    | none => acc
    | some d =>
      let ws := d.2.2.2
      if acc.contains a then acc
      else if dEnd ws then acc ++ [a]
      else runFrom ds n (if dClass ws = 7 ∧ dOp ws = 4 then fld ws 3 20 6 else a + 1) (acc ++ [a])

/-- The descriptors of the share that holds section `k` in the order in which its Seat runs them: from the stage's ENTRY, then from the Quiz entry, then
those that neither reaches, by place (log entry 96). -/
def imRun (m : List Byte) (k : Nat) : List (Nat × Nat × List Nat) :=
  let ds := imPlaced m k
  let n := ds.length
  let go := runFrom ds n (imQuizEntry m) (runFrom ds n (stEntry m (seStage m k)) [])
  let rest := (ds.map (·.1)).filter (fun a => !go.contains a)
  (go ++ (List.range 32768).filter rest.contains).filterMap (fun a => (ds.find? (fun d => d.1 = a)).map (·.2))

/-- The CONV descriptors of each share of the image, in the order in which the Seat runs them. -/
def imConvs (m : List Byte) : List (List ConvD) :=
  let secs := (imSecs m).filter (fun k => seReloc m k = 1)
  (secs.filter (fun k => (secs.filter (fun j => j < k)).all (fun j => !sameHome m j k))).map (fun k =>
    (imRun m k).filterMap (fun d => if dClass d.2.2 = 2 then some ⟨d.1, d.2.1, d.2.2⟩ else none))

/-- Descriptors that break R124, with the first one of each layer that breaks R130 or R131. -/
def imShapeFails (m : List Byte) : List (Nat × Nat) :=
  let layers := (imConvs m).flatMap (fun ds => (convChains ds).flatMap layersOf)
  (imDescs m).filterMap (fun d =>
    if dClass d.2.2 = 3 ∧ !poolShapeOk (stLocker4k m (seStage m d.1) * 4096) d.2.2 then some (d.1, d.2.1) else none)
  ++ layers.flatMap (layerShapes m)
  ++ layers.filterMap (fun l => if layerOk true l then none else l.head?.map (fun d => (d.sec, d.idx)))

/-- The first in section order. -/
def firstDesc (l : List (Nat × Nat)) : Option (Nat × Nat) :=
  l.foldl (fun acc p => match acc with
    | none => some p
    | some q => if p.1 < q.1 ∨ (p.1 = q.1 ∧ p.2 < q.2) then some p else acc) none

/-! ### Step 7: placement (R120, R152, R153) -/

/-- The free ranges within `lo` to below `hi` beside disjoint occupied ranges in rising order. -/
def gaps (hi : Nat) : Nat → List (Nat × Nat) → List (Nat × Nat)
  | lo, [] => if lo < hi then [(lo, hi - lo)] else []
  | lo, (a, n) :: t => (if lo < min a hi then [(lo, min a hi - lo)] else []) ++ gaps hi (max lo (a + n)) t

/-- Free ranges beside any occupied ranges. -/
def freeRanges (lo hi : Nat) (occ : List (Nat × Nat)) : List (Nat × Nat) := gaps hi lo (unionRanges occ)

/-- The `n` lowest contiguous places of `size` units, taken one after the other. -/
def lowestPlaces (n size : Nat) (free : List (Nat × Nat)) : List Nat :=
  (free.flatMap (fun p => (List.range (p.2 / size)).map (fun j => p.1 + j * size))).take n

def largestGap (free : List (Nat × Nat)) : Nat := free.foldl (fun m p => max m p.2) 0

/-- The Seat is owned by the slice. -/
def State.ownsSeat (s : State) (i g : Nat) : Bool := s.seatSlice g = some i

/-- R395: a destructive start-up test still runs on a cluster of the die. -/
def State.dieTested (s : State) (d : Nat) : Bool :=
  (List.range 8).any (fun i => (s.cluster (8 * d + i)).march.startup && (s.cluster (8 * d + i)).march.destructive)

/-- R96, R152: the cluster offers its resources; before the zero fill its memories are not in service. -/
def State.offers (s : State) (n : Nat) : Bool :=
  s.cccState n = 1 && !(s.cluster n).withdrawn && !s.dieTested (dieOf n) && s.memUp n

/-- EMPTY Seats of core `m` owned by the slice, lowest first; none on a withdrawn core. -/
def State.emptySeats (s : State) (i m : Nat) : List Nat :=
  if s.offers (m / 8) && !(s.core m).withdrawn then
    ((List.range 8).map (8 * m + ·)).filter (fun g => s.ownsSeat i g && s.seatState g = 0)
  else []

/-- Free Locker of core `m`, in units of 4 KiB, beside the shares of Seats other than `chosen`. -/
def State.lockerFree (s : State) (m : Nat) (chosen : List Nat) : List (Nat × Nat) :=
  freeRanges 0 512 ((((List.range 8).map (8 * m + ·)).filter (fun g => !chosen.contains g)).map (fun g =>
    (s.rd (CLC_SEAT_SHARE.BASE_4K (g / 64) (g % 64)), s.rd (CLC_SEAT_SHARE.SIZE_4K (g / 64) (g % 64)))))

/-- Free Slate of the slice in cluster `n`, in units of 64 KiB: above the secure partition, and above the level to which it is being raised (R116). -/
def State.slateFreeRanges (s : State) (i n : Nat) : List (Nat × Nat) :=
  if !s.offers n then []
  else
    let lo := (s.slice i).slateBase.getD n 0
    let hi := lo + (s.slice i).slateSize.getD n 0
    let bin := if n = 0 && s.on DISP_RAST_CTRL.ENABLE then [(384, 128)] else []
    let held := s.lessons.flatMap (fun p => (p.2.places.filter (·.cluster = n)).map (fun q => (q.slateOff, q.slate64k)))
    freeRanges (max lo (max (s.rd WMARK_SLATE.LEVEL_64K) (s.sec.slateLevel.getD 0))) hi (bin ++ held)

/-- The lowest free synchronisation block of the cluster. -/
def State.freeBlock (s : State) (n : Nat) : Option Nat :=
  if s.offers n then (List.range 8).find? (fun b => (Table.find (s.cluster n).blocks b).isNone) else none

/-- The Seats and share bases that core `m` gives a stage, if it can. -/
def State.coreOffer (s : State) (i : Nat) (img : List Byte) (k m : Nat) : Option (List (Nat × Nat)) :=
  let seats := (s.emptySeats i m).take (stSeatsPerCore img k)
  let bases := lowestPlaces (stSeatsPerCore img k) (stLocker4k img k) (s.lockerFree m seats)
  if seats.length = stSeatsPerCore img k ∧ bases.length = stSeatsPerCore img k then some (seats.zip bases) else none

/-- A stage as it would be placed: the record, and the base of each Seat's share in units of 4 KiB. -/
structure Placed where
  place : StagePlace
  bases : List Nat
  deriving DecidableEq, Repr

/-- R152: stage `k` of replica `r` in cluster `n`. -/
def State.placeIn (s : State) (i : Nat) (img : List Byte) (k r n : Nat) : Option Placed :=
  let cores := ((List.range 8).filterMap (fun c => s.coreOffer i img k (8 * n + c))).take (stCores img k)
  let region := if stSlate64k img k = 0 then some 0 else (lowestPlaces 1 (stSlate64k img k) (s.slateFreeRanges i n)).head?
  let block := if stSemBlock img k = 1 then (s.freeBlock n).map some else some none
  if cores.length < stCores img k ∨ !s.offers n then none
  else
    match region, block with
    | some off, some b =>
      let all := cores.flatMap (fun x => x)
      some ⟨⟨k, r, n, all.map (·.1), off, stSlate64k img k, b⟩, all.map (·.2)⟩
    | _, _ => none

/-- The clusters of a slice, those in which it owns a Seat, in the order in which placement scans them: ascending, or by the rotation
of R185. -/
def State.sliceClusters (s : State) (i : Nat) : List Nat :=
  (if s.reg.rotation.isEmpty then List.range 16 else s.reg.rotation).filter (fun n =>
    (List.range 64).any (fun j => s.ownsSeat i (64 * n + j)))

/-- The clusters that R152 and R153 leave open to a stage of replica `r`. -/
def openClusters (clusters : List Nat) (done : List Placed) (r : Nat) : List Nat :=
  clusters.filter (fun n => done.all (fun p => p.place.cluster ≠ n || (r = 0 && p.place.replica ≠ 0)))

/-- R152, R153: place stage `k` of replica `r` beside what is placed already. -/
def State.placeStage (s : State) (i : Nat) (img : List Byte) (done : List Placed) (k r : Nat) : Option Placed :=
  let cs := openClusters (s.sliceClusters i) done r
  let other := match done.find? (fun p => p.place.replica = 0 && p.place.stage = k) with
    | some p => cs.filter (fun n => dieOf n ≠ dieOf p.place.cluster)
    | none => []
  match (if r = 1 then other.findSome? (s.placeIn i img k 1) else none) with
  | some p => some p
  | none => cs.findSome? (s.placeIn i img k r)

/-- R157: the largest share of which core `m` can place `n`, in units of 4 KiB. -/
def State.largestShare (s : State) (i n m : Nat) : Nat :=
  let free := s.lockerFree m ((s.emptySeats i m).take n)
  ((List.range 512).reverse.find? (fun l => n ≤ (free.map (fun p => p.2 / (l + 1))).sum)).elim 0 (· + 1)

/-- Insert in a list that falls. -/
def insertDown (x : Nat) : List Nat → List Nat
  | [] => [x]
  | y :: t => if y < x then x :: y :: t else y :: insertDown x t

/-- R157: what cluster `n` falls short of for a stage. Where no core counts, the longest share is 0 (log entry 99). -/
def State.shortIn (s : State) (i : Nat) (img : List Byte) (k r n : Nat) : List Shortfall :=
  let per := stSeatsPerCore img k
  let cores := ((List.range 8).map (8 * n + ·)).filter (fun m => per ≤ (s.emptySeats i m).length)
  let shares := (cores.map (s.largestShare i per)).foldl (fun l x => insertDown x l) []
  let share := (shares.take (stCores img k)).getLast?.getD 0
  let slate := largestGap (s.slateFreeRanges i n)
  (if cores.length < stCores img k then [⟨1, n, k, r, stCores img k, cores.length⟩] else [])
    ++ (if share < stLocker4k img k then [⟨2, n, k, r, stLocker4k img k, share⟩] else [])
    ++ (if slate < stSlate64k img k then [⟨3, n, k, r, stSlate64k img k, slate⟩] else [])
    ++ (if stSemBlock img k = 1 && (s.freeBlock n).isNone then [⟨4, n, k, r, 1, 0⟩] else [])

/-- R157: the entries for a stage that cannot be placed: the lowest-numbered of the clusters that came closest. -/
def State.stageReport (s : State) (i : Nat) (img : List Byte) (done : List Placed) (k r : Nat) : List Shortfall :=
  match (List.range 16).filter (fun n => (openClusters (s.sliceClusters i) done r).contains n) with
  | [] => [⟨7, 0xFF, k, r, 1, 0⟩]
  | n :: t => t.foldl (fun best c => if (s.shortIn i img k r c).length < best.length then s.shortIn i img k r c else best)
      (s.shortIn i img k r n)

/-- Place every stage of every replica, as far as they go, and report the others. -/
def State.placeAll (s : State) (i : Nat) (img : List Byte) : List Placed × List Shortfall :=
  let order := (List.range (if imSafety img then 2 else 1)).flatMap (fun r => (List.range (imStages img)).map (fun k => (k, r)))
  order.foldl (fun (acc : List Placed × List Shortfall) kr =>
    match s.placeStage i img acc.1 kr.1 kr.2 with
    | some p => (acc.1 ++ [p], acc.2)
    | none => (acc.1, acc.2 ++ s.stageReport i img acc.1 kr.1 kr.2)) ([], [])

/-! ### Queues and Roster entries of the slice -/

def cqBase : Nat := 57480

/-- Queues in use from `lo` to below `hi`: enabled, owned, of a Lesson, or awaited by a completion. -/
def State.queuesUsed (s : State) (lo hi : Nat) : List (Nat × Nat) :=
  let listed : List (Nat × Nat) := (s.queues.filter (fun p => p.2.enabled || p.2.owner.isSome)).map (fun p => (p.1, 1))
  let held : List (Nat × Nat) := s.lessons.flatMap (fun p =>
    [(p.2.queueFirst, imQueues p.2.image), (p.2.cqFirst, imQueues p.2.image)])
  let awaited : List (Nat × Nat) := (s.jobs.filter (fun p => !p.2.discard)).map (fun p => (p.2.cq, 1))
  (listed ++ held ++ awaited).filter (fun p => lo ≤ p.1 && p.1 < hi)

def State.freeWork (s : State) : List (Nat × Nat) := freeRanges 0 32768 (s.queuesUsed 0 32768)
def State.freeCompletion (s : State) : List (Nat × Nat) := freeRanges cqBase 65536 (s.queuesUsed cqBase 65536)

/-- Work queues of the slice's quota that no Lesson holds. -/
def State.queuesLeft (s : State) (i : Nat) : Nat :=
  (s.slice i).workQueues - ((s.lessons.filter (fun p => p.2.slice = i)).map (fun p => imQueues p.2.image)).sum

/-- Roster entries of the slice's quota that are free (log entry 30). -/
def State.rosterLeft (s : State) (i : Nat) : Nat := (s.slice i).roster - (s.roster.filter (fun p => p.2.slice = i)).length

/-- R157: the largest number of consecutive work and completion queues that the slice can have. -/
def State.queuesAvail (s : State) (i : Nat) : Nat :=
  min (s.queuesLeft i) (min (largestGap s.freeWork) (largestGap s.freeCompletion))

def State.sliceReport (s : State) (i : Nat) (img : List Byte) : List Shortfall :=
  (if s.queuesAvail i < imQueues img then [⟨5, 0xFF, 0xFF, 0, imQueues img, s.queuesAvail i⟩] else [])
    ++ (if s.rosterLeft i < imSeqMax img then [⟨6, 0xFF, 0xFF, 0, imSeqMax img, s.rosterLeft i⟩] else [])

/-! ### Step 8: content (R148, R154) -/

/-- The cluster of each stage of a replica. -/
def stageCluster (places : List StagePlace) (r k : Nat) : Nat :=
  match places.find? (fun p => p.replica = r && p.stage = k) with
  | some p => p.cluster
  | none => 0

/-- R148: an operand reference with its stage index replaced by the cluster. -/
def relocOref (cmap : Nat → Nat) (w : Nat) : Nat :=
  if bits w 63 62 = 1 then w - bits w 59 56 * 2 ^ 56 + cmap (bits w 59 56) % 16 * 2 ^ 56 else w

/-- R148: a descriptor of a RELOC section as the loader writes it. -/
def relocDesc (cmap : Nat → Nat) (ws : List Nat) : List Nat :=
  if dClass ws ≠ 0 then ws
  else indexed 0 ws |>.map (fun p =>
    if (p.1 = 1 ∧ dOp ws ≠ 2) ∨ p.1 = 2 ∨ (p.1 = 6 ∧ dOp ws = 1) then relocOref cmap p.2 else p.2)

/-- The bytes of section `k` as the loader writes them. -/
def sectionBytes (m : List Byte) (cmap : Nat → Nat) (k : Nat) : List Byte :=
  if seReloc m k = 1 then
    (List.range (seLen m k / 64)).flatMap (fun i =>
      (relocDesc cmap ((List.range 8).map (fun j => leAt m (seSrc m k + 64 * i + 8 * j) 8))).flatMap (leBytes 8))
  else (m.drop (seSrc m k)).take (seLen m k)

/-- The sections of a Seat's share (kind 0) or of a stage's region (kind 1). -/
def sectionsOf (m : List Byte) (kind stage seat : Nat) : List Nat :=
  (imSecs m).filter (fun k => seKind m k = kind && seStage m k = stage && (kind = 1 || seSeat m k = seat))

/-- Write sections at a base; `only` picks which. -/
def State.writeSections (s : State) (m : List Byte) (cmap : Nat → Nat) (secs : List Nat) (base : Nat) : State :=
  s.each secs (fun u k => u.writeMem (base + seDest m k) (sectionBytes m cmap k))

/-- The CRC of the CONST content found in memory (R154). -/
def State.constCrc (s : State) (m : List Byte) (secs : List Nat) (base : Nat) : Nat :=
  crc32c ((secs.filter (fun k => seConst m k = 1)).flatMap (fun k => s.readMem (base + seDest m k) (seLen m k)))

/-- Every share and region of a placement: its sections, its base and its size in bytes, with the Seat or the cluster and offset. -/
def State.homes (s : State) (m : List Byte) (places : List StagePlace) : List (StagePlace × List Nat × Nat × Nat × Option Nat) :=
  places.flatMap (fun p =>
    (indexed 0 p.seats).map (fun x => (p, sectionsOf m 0 p.stage x.1, (s.shareOf x.2).1, (s.shareOf x.2).2, some x.2))
      ++ [(p, sectionsOf m 1 p.stage 0, slateAddr p.cluster (p.slateOff * 65536), p.slate64k * 65536, none)])

/-- Zero the shares and regions and write the sections (R147, R154). A region that a new level of the secure partition has shut meanwhile takes
nothing (R114). -/
def State.writeContent (s : State) (m : List Byte) (places : List StagePlace) : State :=
  (s.homes m places).foldl (fun u h =>
    let v := u.cccWipe h.2.2.1 h.2.2.2.1
    if s.regionShut h.2.2.1 h.2.2.2.1 then v else v.writeSections m (stageCluster places h.1.replica) h.2.1 h.2.2.1) s

/-- The CRCs of the Seats' shares, by Seat, and of the regions, by cluster. -/
def State.contentCrcs (s : State) (m : List Byte) (places : List StagePlace) : List (Nat × Nat) × List (Nat × Nat) :=
  ((s.homes m places).filterMap (fun h => h.2.2.2.2.map (fun g => (g, s.constCrc m h.2.1 h.2.2.1))),
   (s.homes m places).filterMap (fun h => if h.2.2.2.2.isNone then some (h.1.cluster, s.constCrc m h.2.1 h.2.2.1) else none))

/-! ### Admission -/

/-- Give a Seat its share and make it IDLE at ENTRY (R151). -/
def State.bindSeat (s : State) (img : List Byte) (k g base : Nat) : State :=
  let n := g / 64
  let i := g % 64
  let s1 := ((s.wr (CLC_SEAT_SHARE.BASE_4K n i) base).wr (CLC_SEAT_SHARE.SIZE_4K n i) (stLocker4k img k)).clearOverlap g
  let s2 := s1.setSeat g { SeatX.zero with vregs := (s1.seat g).vregs }
  (s2.setSeatState g 1).wr (CLC_SEAT_DESC_PTR.PTR n i) (stEntry img k)

/-- Give a stage its Seats and its synchronisation block, whose semaphores are zero (R62). -/
def State.bindStage (s : State) (img : List Byte) (key : Nat) (p : Placed) : State :=
  let s1 := s.each (p.place.seats.zip p.bases) (fun u x => u.bindSeat img p.place.stage x.1 x.2)
  match p.place.block with
  | none => s1
  | some b =>
    let c := s1.cluster p.place.cluster
    s1.setCluster p.place.cluster { c with blocks := Table.put c.blocks b key, sems := Table.cut c.sems (b * 256) ((b + 1) * 256) }

/-- A queue allotted to a Lesson of slice `i` with entries of 8 x 2^e bytes (R353). -/
def QRec.allotted (x : QRec) (i e : Nat) : QRec := x.kept (2 ^ 22 + i % 64 * 2 ^ 16 + e * 2 ^ 13)

def State.allotQueues (s : State) (i w c n : Nat) : State :=
  s.each (List.range n) (fun u k => 
    let u1 := u.setQueue (w + k) ((u.queue (w + k)).allotted i 3)
    u1.setQueue (c + k) ((u1.queue (c + k)).allotted i 2))

/-- A Lesson as it is placed; its content is still to be written. -/
def State.newLesson (s : State) (i : Nat) (m : List Byte) (opts : Nat) (places : List StagePlace) (w c : Nat) : Lesson :=
  { slice := i, id := imId m, image := m.take (imLen m)
    cls := if bits opts 3 1 = 0 then imClass m else bits opts 3 1
    degradable := bit opts 0
    digest := sha384 (m.take (imLen m))
    places := places, seatCrc := [], regionCrc := [], queueFirst := w, cqFirst := c, order := s.reg.loadOrder
    quizPeriod := max 33333 (ceilDiv (imQuizCycles m * 100) 373), quizPhase := 0, quizDefer := 8
    quizPending := false, quizSince := s.clock.now, quizOverdue := false, quizFailed := false, quizSeats := []
    quizLast := none, releasing := false, releaseMb := none }

/-- The placement that the reply names (R317). -/
def placementBytes (places : List StagePlace) : List Byte :=
  leBytes 4 places.length ++ places.flatMap (fun p =>
    let mask := fun c => (p.seats.filter (fun g => coreOf g % 8 = c)).foldl (fun w g => setBit w (g % 8)) 0
    leBytes 1 p.stage ++ leBytes 1 p.replica ++ leBytes 1 p.cluster
      ++ leBytes 1 ((List.range 8).foldl (fun w c => if mask c = 0 then w else setBit w c) 0)
      ++ (List.range 8).flatMap (fun c => leBytes 1 (mask c)) ++ leBytes 4 0)

/-- What the first seven steps of R151 give: a refusal with its report, or the Lesson placed. -/
inductive Admission where
  | refused (status : Nat) (report : List Byte)
  | placed (st : State) (lesson : Lesson)
  deriving DecidableEq, Repr

/-- Step 7 of R151: placement. The entries of the slice stand behind those of the stages in a report (log entry 99). -/
def State.admitPlaced (s : State) (i : Nat) (m : List Byte) (opts : Nat) : Admission :=
  let p := s.placeAll i m
  let short := p.2 ++ s.sliceReport i m
  match (lowestPlaces 1 (imQueues m) s.freeWork).head?, (lowestPlaces 1 (imQueues m) s.freeCompletion).head?, short with
  | some w, some c, [] =>
    .placed (s.each p.1 (fun u x => u.bindStage m (lessonKey i (imId m)) x)) (s.newLesson i m opts (p.1.map (·.place)) w c)
  | _, _, _ => .refused msNofit (reportBytes short)

/-- R151: the checks of an image in their order, up to its placement. -/
def State.admitImage (s : State) (i : Nat) (m : List Byte) (opts : Nat) (root : SigRoot) : Admission :=
  if !imFrameOk m m.length then .refused msBadarg []
  else if imFormat m ≠ 1 then .refused msVersion []
  else if !s.rootOk root then .refused msDenied []
  else if !s.imFieldsOk i m opts then .refused msBadarg []
  else
    match (imDescs m).find? (fun d => !s.imDescOk m d.2.2) with
    | some d => .refused msBadarg (reportBytes [⟨16, 0xFF, seStage m d.1, 0, d.2.1, d.1⟩])
    | none =>
      match firstDesc (imShapeFails m) with
      | some d => .refused msShape (reportBytes [⟨17, 0xFF, seStage m d.1, 0, d.2, d.1⟩])
      | none => s.admitPlaced i m opts

/-- R108, R116: some of a share or a region of a Lesson is held by a test or being wiped. -/
def State.homeHeld (s : State) (h : StagePlace × List Nat × Nat × Nat × Option Nat) : Bool :=
  s.anyHeld [(h.2.2.1, h.2.2.2.1)] || (match s.sec.slateWipe with
    | some w => overlaps h.2.2.1 h.2.2.2.1 (slateAddr h.1.cluster w.1) (w.2 - w.1)
    | none => false)

/-- Some of the memory that a Lesson's content goes to. -/
def State.contentWaits (s : State) (l : Lesson) : Bool := (s.homes l.image l.places).any s.homeHeld

/-- Some of what the resident Lessons hold in cluster `n`, so that a check of it must wait. -/
def State.contentHeld (s : State) (n : Nat) : Bool :=
  s.lessons.any (fun p => (s.homes p.2.image p.2.places).any (fun h => h.1.cluster = n && s.homeHeld h))

/-- Step 8 of R151: the content is written and verified, and the Lesson is resident, or nothing of it is (R154). -/
def State.settleLesson (s : State) (l : Lesson) (readback : Bool) : State × Bool :=
  let key := lessonKey l.slice l.id
  let s1 := s.writeContent l.image l.places
  let crcs := s1.contentCrcs l.image l.places
  let s2 := (s1.allotQueues l.slice l.queueFirst l.cqFirst (imQueues l.image)).setLesson key
    { l with seatCrc := crcs.1, regionCrc := crcs.2, quizSince := s.clock.now }
  if readback && !(s.homes l.image l.places).any (fun h => s.regionShut h.2.2.1 h.2.2.2.1) then ({ s2 with reg := { s2.reg with loadOrder := s2.reg.loadOrder + 1 } }, true)
  else ((s2.releaseLesson key).raise srcLessonVerify, false)

/-- The host of slice `i` has gone: its heartbeat was lost, or it has detached. -/
def State.hostGone (s : State) (i : Nat) : Bool :=
  let x := s.slice i
  x.phase = 2 || (x.running && x.runDetach && x.runReplies.isEmpty)

/-- R151, R159, R308: a LESSON_LOAD request, up to the placement of its Lesson. -/
def State.loadRun (s : State) (i mb : Nat) (root : SigRoot) (r : Req) (bs : List Byte) : Answer :=
  if r.met || (s.slice i).running then (if s.hostGone i then ⟨s, msAborted, 0, [], true⟩ else s.answer msAborted)
  else if s.rd SEC_STATE.SC_STATE = 2 then s.answer msRestarting
  else if s.rd SEC_STATE.SC_STATE = 3 then s.answer msFault
  else
    let p := s.ctxRead (s.ctx r.who) (leAt bs 0 8) (leAt bs 8 4)
    match p.2 with
    | none => p.1.answer msBadarg
    | some m =>
      let f := p.1.findImage m root none
      match f.1.admitImage i m (leAt bs 12 4) f.2.root with
      | .refused st rep => ⟨f.1, st, 0, rep, false⟩
      | .placed t l => ⟨{ t with reg := { t.reg with loading := some ⟨mb, r.header, r.who, l⟩ } }, msOk, 0, [], true⟩

/-- The image that the oldest LESSON_LOAD or RUBRIC_LOAD of mailbox `mb` names must wait for its memory. -/
def State.imageWaits (s : State) (mb op : Nat) : Bool :=
  match takeFor op [] (s.mb mb).taken with
  | none => false
  | some (r, _) =>
    match (s.payload (s.ctx r.who) r.header).2 with
    | none => false
    | some bs => s.ctxWaits (s.ctx r.who) (leAt bs 0 8) (leAt bs 8 4) false

/-- R151: mailbox `mb` sent the LESSON_LOAD that reached the Registrar first. -/
def State.loadDue (s : State) (mb : Nat) : Bool :=
  s.reg.arrivals.find? (fun j => (s.mb j).taken.any (fun r => hOp r.header = 0x0010)) = some mb

/-- A LESSON_LOAD begins: the one that is due is checked and placed. -/
def State.beginLoad (s : State) (mb : Nat) (root : SigRoot) : State :=
  if s.rd SEC_STATE.SC_STATE = 0 || !s.loadDue mb || s.imageWaits mb 0x0010 then s
  else
    let t := s.serve mb 0x0010 (fun t r bs => t.loadRun (hSlice r.header) mb root r bs)
    if (t.mb mb).taken.length < (s.mb mb).taken.length then { t with reg := { t.reg with arrivals := t.reg.arrivals.erase mb } } else t

/-- The load in progress ends: its content is written and verified, and the request is answered (R151, R154). -/
def State.endLoad (s : State) (d : Loading) (readback : Bool) : State :=
  if s.contentWaits d.lesson then s
  else
    let p := { s with reg := { s.reg with loading := none } }.settleLesson d.lesson readback
    if p.2 then
      p.1.reply d.mb (p.1.ctx d.who) d.header msOk (d.lesson.cqFirst * 2 ^ 32 + d.lesson.queueFirst) (placementBytes d.lesson.places)
    else p.1.reply d.mb (p.1.ctx d.who) d.header msFault 0 []

/-! ### Unloading (R158) -/

/-- Jobs of the Lesson that have not ended. -/
def State.openJobs (s : State) (k : Nat) : List Nat :=
  (s.jobsOf k).filter (fun t => match s.job? t with | some j => !j.hasEnded && j.state ≠ 4 | none => false)

/-- Jobs of the Lesson that have not reached DONE, ABORTED or FAILED. -/
def State.unfinished (s : State) (k : Nat) : List Nat :=
  (s.jobsOf k).filter (fun t => match s.job? t with | some j => !j.hasEnded | none => false)

/-- R158: abort the jobs of Lesson `k`; where it runs only as a job's fallback, that run ends. -/
def State.abortJobsOf (s : State) (k : Nat) : State :=
  (s.openJobs k).foldl (fun u t =>
    match u.job? t with
    | none => u
    | some j => if j.lesson = k then u.endJob t 6 msAborted none else u.strike t true 6 msAborted none) s

def State.unloadRun (s : State) (i mb : Nat) (r : Req) : Answer :=
  let k := lessonKey i (hArg r.header)
  match s.lesson? k with
  | none => s.answer msBadarg
  | some l =>
    if (s.unfinished k).isEmpty then ((s.stopQuiz k true).releaseLesson k).answer msOk
    else if !bit (hFlags r.header) 2 then s.answer msBusy
    else
      let s1 := (s.stopQuiz k true).abortJobsOf k
      ⟨s1.setLesson k { l with releasing := true, releaseMb := some (mb, r.header), quizPending := false, quizSeats := [] },
        msOk, 0, [], true⟩

/-- LESSON_RELEASE: the force-unloaded Lesson goes once its jobs have ended, and the request is answered. -/
def State.lessonDone (s : State) (k : Nat) : State :=
  match s.lesson? k with
  | none => s
  | some l =>
    if l.releasing && (s.unfinished k).isEmpty then
      let s1 := s.releaseLesson k
      match l.releaseMb with
      | some (mb, h) => s1.sendReply mb (replyHeader h msOk 0 0)
      | none => s1
    else s

/-! ### The commands -/

/-- LESSON_LOAD (R151, R159): while no load is in progress, the request that is due is checked and its Lesson placed; the same command again writes
and verifies the content and answers (log entry 83). -/
def execLessonLoad (mb : Fin 68) (root : SigRoot) (readback : Bool) (s : State) : Host.Outcome State Fault Refusal :=
  .next (s.live (
    match s.reg.loading with
    | none => s.beginLoad mb.val root
    | some d => if d.mb = mb.val && s.regRunning then s.endLoad d readback else s))

/-- LESSON_UNLOAD (R158). -/
def execLessonUnload (mb : Fin 68) (s : State) : Host.Outcome State Fault Refusal :=
  .next (s.live (s.serve mb.val 0x0011 (fun t r _ => t.unloadRun (hSlice r.header) mb.val r)))

/-- The end of a forced unload (R158). -/
def execLessonRelease (slice : Fin 64) (lesson : Word) (s : State) : Host.Outcome State Fault Refusal :=
  .next (s.live (if s.regRunning then s.lessonDone (lessonKey slice.val lesson.toNat) else s))

end Sys2Proof.Machine
end

