-- ==== Sys2Proof/Machine/Sched.lean ====
section
/-! DEFINITION. Jobs from intake to completion, ABORT, the Bell and the Roster (07_scheduling R160-R184; 10 R238, R239, R242). -/

namespace Sys2Proof.Machine

/-! ### Intake (R160-R163) -/

/-- The Lesson of a work queue, with its key. -/
def State.queueLesson (s : State) (q : Nat) : Option (Nat × Lesson) :=
  s.lessons.find? (fun p => p.2.queueFirst ≤ q && q < p.2.queueFirst + imQueues p.2.image)

/-- The completion queue paired with work queue `q` of the Lesson (R160). -/
def Lesson.pairedCq (l : Lesson) (q : Nat) : Nat := l.cqFirst + (q - l.queueFirst)

/-- Tags free within the quota of slice `i` (R161, R163). -/
def State.tagsFree (s : State) (i : Nat) : Nat :=
  min (1024 - s.reg.freshTag + s.reg.freeTags.length) ((s.slice i).tags - (s.sliceJobs i).length)

/-- The record at place `k` behind CONS, `none` where it cannot be read (R418). -/
def State.record (s : State) (q k : Nat) : Option (List Byte) := (s.qRead q ((s.queue q).cons + k)).2

def recFlags (bs : List Byte) : Nat := leAt bs 0x0C 2

/-- BATCH_CONT of a record; an unreadable record is one of its own. -/
def recCont (r : Option (List Byte)) : Bool := match r with | some bs => bit (recFlags bs) 3 | none => false

/-- What intake does next with a queue: nothing yet, take a whole run, or complete one record of an overlong run. -/
inductive Run where
  | wait
  | whole (n : Nat)
  | overlong
  deriving DecidableEq, Repr

/-- R161: look through at most `lim` records of a run, `occ` of which lie below PROD. -/
def scanRun (cont : Nat → Bool) (occ lim : Nat) : Nat → Nat → Run
  | 0, _ => .wait
  | fuel + 1, k =>
    if occ ≤ k then .wait
    else if !cont k then .whole (k + 1)
    else if k + 1 = lim then (if lim < occ then .overlong else .wait)
    else scanRun cont occ lim fuel (k + 1)

/-- R185 step 4: intake of the record is held. A DISPLAY record is armed from its ARM on; one without a deadline counts as armed. -/
def State.intakeHeld (s : State) (l : Lesson) (r : Option (List Byte)) : Bool :=
  (s.reg.holdBest && l.cls = 4) || (s.reg.holdDisplay && l.cls = 1 &&
    (match r with | some bs => bit (recFlags bs) 0 && s.clock.now < leAt bs 0x18 8 | none => false))

/-- R333, R334: no job of slice `i` is taken in, built or seated while a sequence of R333 runs and from a detach until the slice is attached again. -/
def State.sliceStopped (s : State) (i : Nat) : Bool := (s.slice i).running || (s.slice i).phase = 2

/-- The memory of one of the `n` records behind CONS must be waited for. -/
def State.recordsWait (s : State) (q n : Nat) : Bool := (List.range n).any (fun k => s.qReadWaits q ((s.queue q).cons + k))

/-- The records that intake takes next from queue `q`, and whether they belong to an overlong run. The Queue Manager must work (R21), and nothing is
taken in before its records can be read. -/
def State.intakeNext (s : State) (q : Nat) : Option (Nat × Bool) :=
  match s.queueLesson q with
  | none => none
  | some (_, l) =>
    let x := s.queue q
    let room := s.tagsFree l.slice
    if !x.enabled || x.occupancy = 0 || s.sliceStopped l.slice || l.releasing || !s.qmgrUp || s.recordsWait q 1
        || s.intakeHeld l (s.record q 0) then none
    else if Table.get s.reg.badRuns 0 q = 1 then (if 1 ≤ room then some (1, true) else none)
    else
      let lim := min 64 (s.slice l.slice).tags
      match scanRun (fun k => recCont (s.record q k)) x.occupancy lim lim 0 with
      | .wait => none
      | .whole n => if n ≤ room && !s.recordsWait q n then some (n, false) else none
      | .overlong => if 1 ≤ room && !s.recordsWait q lim then some (1, true) else none

/-- The work queues of a slice. -/
def State.sliceQueues (s : State) (i : Nat) : List Nat :=
  s.lessons.flatMap (fun p => if p.2.slice = i then (List.range (imQueues p.2.image)).map (p.2.queueFirst + ·) else [])

/-- The least of a list. -/
def least (l : List Nat) : Option Nat := l.foldl (fun m x => match m with | none => some x | some y => some (min x y)) none

/-- R162: round robin among the queues of slice `i` that intake can serve. -/
def State.queueDue (s : State) (i : Nat) : Option Nat :=
  let ready := (s.sliceQueues i).filter (fun q => (s.intakeNext q).isSome)
  let after := Table.get s.reg.lastQueue 0 i
  match least (ready.filter (after ≤ ·)) with
  | some q => some q
  | none => least ready

/-- R162: the queue that intake serves next, slices in round robin. -/
def State.intakeDue (s : State) : Option Nat :=
  ((List.range 64).map (fun k => (s.reg.lastSlice + 1 + k) % 64)).findSome? s.queueDue

/-- A job that has been taken in and nothing more. -/
def Job.start (gen slice lesson jobRef flags deadline arm : Nat) (args : List Nat) (queue index cq cls intake : Nat) : Job :=
  { gen := gen, state := 0, status := msOk, slice := slice, lesson := lesson, origLesson := lesson, jobRef := jobRef, flags := flags
    deadline := deadline, arm := arm, args := args, queue := queue, index := index, cq := cq, cls := cls, intake := intake
    group := none, seats := [], firstIssue := none, boosted := false, fbUnavail := false, late := false, voltage := false
    rerun := false, reruns := 0, degraded := false, usedFallback := false, sigEqual := false, origStopped := false, fb := none
    entries := [], home := none, sigOut := 0#64, endTime := 0, armed := bit flags 0, passedArm := false, discard := false
    tile := none }

/-- R161, R176, R243: what becomes of a record at intake: its state and status. -/
def State.intakeState (s : State) (l : Lesson) (q index : Nat) (bad : Bool) (r : Option (List Byte)) : Nat × Nat :=
  match r with
  | none => (7, msBadarg)
  | some bs =>
    if s.reg.preAborts.contains (q, index) then (6, msAborted)
    else if bad || leAt bs 0 8 ≠ l.id || 16 ≤ recFlags bs || leAt bs 0x0E 2 ≠ 0
        || leAt bs 0x10 8 < leAt bs 0x18 8 then (7, msBadarg)
    else if l.quizFailed then (7, msFault)
    else (0, msOk)

/-- R242: a job of Lesson `k` has been taken in; a Quiz run gives way when no group is free. -/
def State.quizYields (s : State) (k : Nat) : State :=
  match s.lesson? k with
  | none => s
  | some l => if !l.quizSeats.isEmpty && (s.pickGroup l none).isNone then s.stopQuiz k false else s

/-- R161, R163: take in the record at CONS of queue `q`. -/
def State.takeRecord (s : State) (q k : Nat) (l : Lesson) (bad : Bool) (head : List Byte) : State :=
  match s.nextTag with
  | none => s
  | some t =>
    let x := s.queue q
    let index := x.cons
    let r := s.qRead q index
    let st := s.intakeState l q index bad r.2
    let p := r.1.takeTag t
    let bs := r.2.getD []
    let s1 := if r.2.isSome then (p.1.ctxWrite x.devCtx (x.entryAddr q index + 0x0E) (leBytes 2 (handleOf p.2 t))).1 else p.1
    let args := (List.range 8).map (fun i => leAt bs (0x20 + 4 * i) 4)
    let tile := s1.tileOfRecord q index
    let j := Job.start p.2 l.slice k (leAt bs 8 4) (recFlags head % 8) (leAt head 0x10 8) (leAt head 0x18 8) args q index
      (l.pairedCq q) l.cls s1.reg.nextIntake
    let ref : Option TileRef := match tile, s1.rast.pass with
      | some (i, _), some ps => some ⟨ps.id, i, bits (args.getD 0 0) 1 0⟩
      | _, _ => none
    let s2 := (s1.qConsume q).setJob t { j with state := st.1, status := st.2, tile := ref, endTime := s1.clock.now }
    let g := s2.reg
    let s3 := { s2 with reg := { g with nextIntake := g.nextIntake + 1, preAborts := g.preAborts.filter (· ≠ (q, index)) }
                        rast := { s2.rast with gone := s2.rast.gone.filter (· ≠ (q, index)) } }
    let s4 := match tile with | some (i, _) => s3.tileTaken i t | none => s3
    if st.1 = 0 then s4.quizYields k else s4

/-- `n` records of one batch. -/
def State.takeRecords (s : State) (q k : Nat) (l : Lesson) (bad : Bool) (head : List Byte) : Nat → State
  | 0 => s
  | n + 1 => State.takeRecords (s.takeRecord q k l bad head) q k l bad head n

/-- R161: one intake from queue `q`: a whole run, or one record of an overlong run, which ends with a record without BATCH_CONT. -/
def State.intake (s : State) (q : Nat) : State :=
  match s.queueLesson q, s.intakeNext q with
  | some (k, l), some (n, bad) =>
    let first := s.record q 0
    let s1 := s.takeRecords q k l bad (first.getD []) n
    let g := s1.reg
    { s1 with reg := { g with
        badRuns := Table.set g.badRuns 0 q (b2n (bad && recCont first))
        lastSlice := l.slice
        lastQueue := Table.set g.lastQueue 0 l.slice (q + 1) } }
  | _, _ => s

/-! ### Seating (R166-R170) -/

/-- The job waits for a group: it is QUEUED, or only its fallback has one (R167, R183). -/
def Job.waiting (j : Job) : Bool := j.seats.isEmpty && !j.origStopped && j.state ≤ 3

/-- R225: the Seat for a tile job: the tile's owner, or for its first job any Seat of the Lesson; it is free and holds no other tile. -/
def State.pickTile (s : State) (l : Lesson) (r : TileRef) : Option (Option Nat × List (Nat × Nat)) :=
  match s.passOf r.pass with
  | none => s.pickGroup l none
  | some p =>
    let x := p.tile r.tile
    let ok := fun g => s.seatFree g && s.placeUp g &&
      (x.seat.isNone || x.seat = some g) && !p.ownsOther g r.tile
    ((l.stageSeats 0 0).find? ok).map (fun g => (none, [(g, 0)]))

/-- The group that a job would take now. -/
def State.groupFor (s : State) (l : Lesson) (j : Job) : Option (Option Nat × List (Nat × Nat)) :=
  match j.tile with
  | some r => s.pickTile l r
  | none => s.pickGroup l j.home

/-- R167: the key of a job among those of its Lesson, the lower the better. -/
def Job.seatRank (j : Job) : Nat := (if j.deadlineEn then j.deadline else 2 ^ 64) * 2 ^ 80 + j.intake

/-- R167: the best waiting job of Lesson `k` that some group can take. -/
def State.bestJob (s : State) (k : Nat) (l : Lesson) : Option (Nat × Job × Option Nat × List (Nat × Nat)) :=
  s.jobs.foldl (fun acc p =>
    if p.2.lesson = k && p.2.waiting then
      match s.groupFor l p.2 with
      | none => acc
      | some g =>
        match acc with
        | none => some (p.1, p.2, g.1, g.2)
        | some b => if p.2.seatRank < b.2.1.seatRank then some (p.1, p.2, g.1, g.2) else acc
    else acc) none

/-- The work list of a step job: SLOT and POSITION of its entries (R170). -/
def State.workList (s : State) (j : Job) : List (Nat × Nat) :=
  j.entries.map (fun e => ((s.entry e).slot, (s.entry e).position))

/-- R170, R174: seat job `t` in a group. -/
def State.seatJob (s : State) (t : Nat) (j : Job) (l : Lesson) (group : Option Nat) (seats : List (Nat × Nat)) : State :=
  let s1 := s.setJob t { j with group := group, seats := seats, state := if j.state = 0 then 1 else j.state }
  let s2 := match j.tile with
    | some r => s1.tileSeated r.tile (match seats with | p :: _ => p.1 | [] => 0)
    | none => s1
  s2.readyGroup l seats (fun rep => ⟨false, t, false, rep⟩) false j.args (s.workList j)

/-- JOB_SEAT (R167). -/
def State.seatBest (s : State) (k : Nat) : State :=
  match s.lesson? k with
  | none => s
  | some l =>
    if l.releasing || s.sliceStopped l.slice then s
    else match s.bestJob k l with
      | none => s
      | some (t, j, g, seats) => s.seatJob t j l g seats

/-! ### Commit (R174) -/

/-- Every Seat of a run of job `t` has completed END, and its writes through the bridges have been performed (R174). -/
def State.runDone (s : State) (t : Nat) (fb : Bool) (seats : List (Nat × Nat)) : Bool :=
  !seats.isEmpty && seats.all (fun p =>
    let x := s.seat p.1
    x.ended && x.flight.isEmpty && (match x.job with | some r => !r.quiz && r.ref = t && r.fallback = fb | none => false)
      && (List.range 5).all (fun b => (s.bridge b).posted.all (fun (w : PostedWrite) => w.init ≠ 0x1000 + p.1)))

/-- The original of the job meets the commit conditions, or its fallback does (R174, R183, R238). While Proctor is held, no SAFETY job commits
(R234). -/
def State.originalReady (s : State) (t : Nat) (j : Job) : Bool :=
  !j.origStopped && s.runDone t false j.seats
    && (match s.lesson? j.lesson with | some l => !imSafety l.image || (j.sigEqual && s.procRunning) | none => false)
def State.fallbackReady (s : State) (t : Nat) (j : Job) : Bool :=
  match j.fb with
  | none => false
  | some f => s.runDone t true f.seats
    && (match s.lesson? f.lesson with | some l => !imSafety l.image || (f.sigEqual && s.procRunning) | none => false)

/-- The commit point: COMMITTING, the signature of R237, and the other run stopped. Both give up their Seats here (log entry 102). -/
def State.commitJob (s : State) (t : Nat) (j : Job) (fb : Bool) : State :=
  let seats := if fb then (match j.fb with | some f => f.seats | none => []) else j.seats
  let s1 := s.setJob t { j with
    state := 4, status := msOk, usedFallback := j.usedFallback || fb, sigOut := BitVec.ofNat 64 (s.jobSig seats 0)
    late := j.late || (j.deadlineEn && j.deadline < s.clock.now) }
  let s2 := s1.each (j.liveSeats.map (·.1)) State.stopSeat
  match j.tile with
  | some r => s2.tileCommitted r
  | none => s2

/-- JOB_COMMIT (R174, R183): in the same cycle the original wins. -/
def State.tryCommit (s : State) (t : Nat) : State :=
  match s.job? t with
  | none => s
  | some j =>
    if j.state ≠ 2 || j.voltage then s
    else if s.originalReady t j then s.commitJob t j false
    else if s.fallbackReady t j then s.commitJob t j true
    else s

/-! ### Completion (R177, R181) -/

/-- FLAGS of a completion record. -/
def Job.compFlags (j : Job) : Nat :=
  b2n (j.usedFallback || j.degraded) + 2 * b2n j.late + 4 * b2n j.voltage + 8 * b2n j.fbUnavail + 16 * b2n j.boosted
    + 32 * b2n j.rerun + 64 * b2n j.degraded + 128 * b2n j.home.isSome

/-- The record of a job, or of one entry of its work list. -/
def Job.compRecord (j : Job) (t ref queueOrStep time : Nat) : List Byte :=
  leBytes 4 ref ++ leBytes 2 (handleOf j.gen t) ++ leBytes 2 j.status ++ leBytes 4 j.compFlags ++ leBytes 4 queueOrStep
    ++ leBytes 8 j.sigOut.toNat ++ leBytes 8 time

/-- R181: an entry of a step job that ended in state `st` with a status. -/
def RosterEntry.after (e : RosterEntry) (st status now : Nat) : RosterEntry :=
  if st = 5 then
    let x := { e with step := (e.step + 1) % 2 ^ 32, position := (e.position + e.advance) % 2 ^ 32, feedPending := false }
    if e.state = 4 then RosterEntry.zero
    else if e.fedMode && !e.feedPending then { x with state := 2 }
    else { x with state := 1, readyTime := now }
  else if st = 7 ∧ status = msRestarting then RosterEntry.zero
  else if e.state = 4 then RosterEntry.zero
  else { e with state := 1, readyTime := now }

/-- A record enters the completion queue, or is dropped where the queue does not take it (R358). A full queue holds it, and so does a Queue
Manager that does not work (R21). -/
def State.cqRoom (s : State) (q : Nat) : Bool := s.qmgrUp && !(s.qFits q 32 && s.qFull q)

/-- The job's last record has been written: DONE, ABORTED or FAILED; every Seat that it still holds, one that halted among them, goes to IDLE
(R175, log entry 15), and the tag is free (R163). -/
def State.closeJob (s : State) (t : Nat) (j : Job) : State :=
  let held := (s.seats.filter (fun p => match p.2.job with | some r => !r.quiz && r.ref = t | none => false)).map (·.1)
  let s1 := (s.each held State.stopSeat).freeTag t
  match j.tile with
  | some r => s1.tileEnded r (j.state = 4)
  | none => s1

/-- COMPLETION_WRITE (R177): one record; a step job writes one for each work-list entry. It waits while the planning engine has yet to copy
the job's batch (R198). -/
def State.complete (s : State) (t : Nat) : State :=
  match s.job? t with
  | none => s
  | some j =>
    if j.state < 4 || (s.unitOn 11 && s.plan.copies.contains t) then s
    else if !j.discard && !s.cqRoom j.cq then s
    else
      let time := if j.state = 4 then s.clock.now else j.endTime
      let put := fun (u : State) bs => if j.discard then u else u.qNotice j.cq bs
      match j.entries with
      | [] => if j.home.isSome then s.closeJob t j else (put s (j.compRecord t j.jobRef j.queue time)).closeJob t j
      | e :: rest =>
        let x := s.entry e
        let s1 := put s (j.compRecord t x.seqRef x.step time)
        let s2 := if x.state = 3 ∨ x.state = 4 then
            s1.setEntry e (x.after (if j.state = 4 then 5 else j.state) j.status s.clock.now) else s1
        if rest.isEmpty then s2.closeJob t j else s2.setJob t { j with entries := rest }

/-! ### ABORT (R176) -/

/-- An ABORT of job `t`. -/
def State.abortJob (s : State) (t : Nat) : Answer :=
  match s.job? t with
  | none => s.answer msAlreadyDone
  | some j => if 4 ≤ j.state then s.answer msAlreadyDone else (s.endJob t 6 msAborted none).answer msOk

/-- ABORT by HANDLE: a step job cannot be aborted by handle (R180). -/
def State.abortHandle (s : State) (i h : Nat) : Answer :=
  let t := h % 1024
  let g := h / 1024
  if g = 0 ∨ Table.get s.reg.gens 0 t ≠ g then s.answer msBadarg
  else
    match s.job? t with
    | none => s.answer msAlreadyDone
    | some j => if j.slice ≠ i ∨ j.home.isSome then s.answer msBadarg else s.abortJob t

/-- ABORT by work queue and ring index, the count of R353 at which the record stands. A queue of no Lesson, or of another slice's, is
answered MS_BADARG (log entry 103). -/
def State.abortIndex (s : State) (i q index : Nat) : Answer :=
  match s.queueLesson q with
  | none => s.answer msBadarg
  | some (_, l) =>
    if l.slice ≠ i then s.answer msBadarg
    else
      match s.jobs.find? (fun p => p.2.queue = q && p.2.index = index && p.2.home.isNone) with
      | some p => s.abortJob p.1
      | none =>
        if (index + 2 ^ 32 - (s.queue q).cons) % 2 ^ 32 < 2 ^ 31 then
          { s with reg := { s.reg with preAborts := s.reg.preAborts.filter (· ≠ (q, index)) ++ [(q, index)] } }.answer msOk
        else s.answer msAlreadyDone

def State.abortRun (s : State) (r : Req) : Answer :=
  let a := hArg r.header
  let i := hSlice r.header
  if bit a 63 then (if bits a 62 47 = 0 then s.abortIndex i (bits a 46 32) (bits a 31 0) else s.answer msBadarg)
  else if a < 65536 then s.abortHandle i a
  else s.answer msBadarg

/-! ### The Bell (R182-R184) -/

/-- R182: the job will miss its deadline. -/
def State.missPredicted (s : State) (j : Job) : Bool :=
  j.state = 0 || j.seats.isEmpty || (match j.firstIssue with
    | none => true
    | some t =>
      let p := j.seats.foldl (fun m x => min m (s.rd (CLC_SEAT_PROGRESS.PROGRESS (x.1 / 64) (x.1 % 64)))) 65536
      ((p : Int) * ((j.deadline : Int) - t)) < ((j.arm : Int) - t) * 65536)

/-- R183, R239: the fallback Lesson and its lowest free group, if a fallback can start. A SAFETY job takes only a SAFETY fallback. -/
def State.fallbackFor (s : State) (j : Job) : Option (Nat × Lesson × List (Nat × Nat)) :=
  match s.lesson? j.lesson with
  | none => none
  | some l =>
    let k := lessonKey j.slice (imFallback l.image)
    if j.noFallback || imFallback l.image = 0 || j.fb.isSome then none
    else
      match s.lesson? k with
      | none => none
      | some f =>
        if f.releasing || (imSafety l.image && !imSafety f.image) then none
        else ((List.range f.groups).findSome? (s.groupFree f)).map (fun g => (k, f, g))

/-- Cores of a job's Seats arbitrate again (R173). -/
def State.rerank (s : State) (t : Nat) : State :=
  match s.job? t with
  | none => s
  | some j => s.each j.liveSeats (fun u p => u.arbitrate (coreOf p.1))

/-- R183: boost the job and start its fallback, while the Registrar restarts too (log entry 101). -/
def State.ringBell (s : State) (t : Nat) (j : Job) : State :=
  match s.fallbackFor j with
  | none => (s.setJob t { j with boosted := true, fbUnavail := true }).rerank t
  | some (k, f, seats) =>
    let s1 := s.setJob t { j with boosted := true, fb := some ⟨k, seats, false⟩, state := if j.state = 0 then 1 else j.state }
    (s1.readyGroup f seats (fun r => ⟨false, t, true, r⟩) false j.args (s.workList j)).rerank t

/-- BELL_ARM (R182), from ARM on. -/
def State.bellArm (s : State) (t : Nat) : State :=
  match s.job? t with
  | none => s
  | some j =>
    if !j.armed || j.passedArm || 4 ≤ j.state || s.clock.now < j.arm then s
    else
      let j1 := { j with passedArm := true }
      if s.missPredicted j then s.ringBell t j1 else (s.setJob t j1).rerank t

/-- BELL_DEADLINE (R184), from DEADLINE on. A tile job that fails so abandons its pass (R229). -/
def State.bellDeadline (s : State) (t : Nat) : State :=
  match s.job? t with
  | none => s
  | some j =>
    if !j.armed || 4 ≤ j.state || s.clock.now < j.deadline then s
    else if j.abortAtDeadline then
      let s1 := s.endJob t 7 msTimeout none
      match j.tile with
      | some r => if (s1.passOf r.pass).isSome then s1.dropPass else s1
      | none => s1
    else s.setJob t { j with late := true }

/-! ### The Roster (R178-R180) -/

/-- Entries of the Lesson, by index. -/
def State.entriesOf (s : State) (l : Lesson) : List (Nat × RosterEntry) :=
  s.roster.filter (fun p => p.2.slice = l.slice && p.2.lesson = l.id)

/-- R179: the home group with the fewest entries, the lowest on a tie. -/
def State.homeGroup (s : State) (l : Lesson) : Nat :=
  let count := fun g => ((s.entriesOf l).filter (fun p => p.2.group = g)).length
  (List.range l.groups).foldl (fun b g => if count g < count b then g else b) 0

/-- R179: SEQ_ADD. -/
def State.seqAddRun (s : State) (i : Nat) (bs : List Byte) : Answer :=
  match s.lesson? (lessonKey i (leAt bs 0 8)) with
  | none => s.answer msBadarg
  | some l =>
    if !imSequence l.image || l.releasing || 2 ≤ leAt bs 20 4 then s.answer msBadarg
    else
      let g := s.homeGroup l
      let taken := ((s.entriesOf l).filter (fun p => p.2.group = g)).map (·.2.slot)
      let slot := (List.range (ceilDiv (imSeqMax l.image) l.groups)).find? (fun k => !taken.contains k)
      let index := (List.range 8192).find? (fun k => (Table.find s.roster k).isNone)
      match slot, index with
      | some k, some e =>
        if s.rosterLeft i = 0 then s.answer msNofit
        else
          let fed := bit (leAt bs 20 4) 0
          (s.setEntry e ⟨if fed then 2 else 1, i, l.id, g, k, 0, leAt bs 12 4, leAt bs 16 2, fed, false, leAt bs 18 2, leAt bs 8 4,
            if fed then 0 else s.clock.now⟩).answerArg e
      | _, _ => s.answer msNofit

/-- The Roster entry that a request names, if it is one of the slice. -/
def State.namedEntry (s : State) (i : Nat) (r : Req) : Option (Nat × RosterEntry) :=
  let a := hArg r.header
  match Table.find s.roster a with
  | some e => if e.slice = i then some (a, e) else none
  | none => none

/-- R179, R181: SEQ_FEED. -/
def State.seqFeedRun (s : State) (i : Nat) (r : Req) : Answer :=
  match s.namedEntry i r with
  | none => s.answer msBadarg
  | some (a, e) =>
    if e.state = 2 then (s.setEntry a { e with state := 1, readyTime := s.clock.now }).answer msOk
    else if e.state = 3 then (s.setEntry a { e with feedPending := true }).answer msOk
    else s.answer msOk

/-- R179, R181: SEQ_RETIRE. -/
def State.seqRetireRun (s : State) (i : Nat) (r : Req) : Answer :=
  match s.namedEntry i r with
  | none => s.answer msBadarg
  | some (a, e) =>
    if e.state = 3 then (s.setEntry a { e with state := 4 }).answer msOk
    else if e.state = 4 then s.answer msOk
    else (s.setEntry a RosterEntry.zero).answer msOk

/-- READY entries of a home group, earliest READY_TIME first, then lower index. -/
def State.readyEntries (s : State) (l : Lesson) (g : Nat) : List (Nat × RosterEntry) :=
  let key := fun (p : Nat × RosterEntry) => p.2.readyTime * 8192 + p.1
  ((s.entriesOf l).filter (fun p => p.2.group = g && p.2.state = 1)).foldr (fun p acc =>
    acc.takeWhile (fun q => key q < key p) ++ p :: acc.dropWhile (fun q => key q < key p)) []

/-- R180: build a step job of home group `g` and take it in. Its ARGS are zero (log entry 100). -/
def State.buildStep (s : State) (k g : Nat) : State :=
  match s.lesson? k with
  | none => s
  | some l =>
    let es := (s.readyEntries l g).take (imBatch l.image)
    if l.releasing || s.sliceStopped l.slice || es.isEmpty || (s.groupFree l g).isNone || s.tagsFree l.slice = 0 then s
    else
      match s.nextTag with
      | none => s
      | some t =>
        let p := s.takeTag t
        let budget := least ((es.map (·.2.budgetUs)).filter (0 < ·))
        let now := s.clock.now
        let dl := now + (budget.getD 0) * 1000
        let j := Job.start p.2 l.slice k 0 (b2n budget.isSome) dl ((now + dl) / 2) (List.replicate 8 0) l.queueFirst 0 l.cqFirst
          l.cls p.1.reg.nextIntake
        let s1 := p.1.setJob t { j with entries := es.map (·.1), home := some g }
        let s2 := { s1 with reg := { s1.reg with nextIntake := s1.reg.nextIntake + 1 } }
        (s2.each es (fun u e => u.setEntry e.1 { e.2 with state := 3 })).quizYields k

/-! ### The commands -/

/-- JOB_INTAKE (R161, R162): intake serves the queue when it is due. -/
def execJobIntake (queue : Fin 32768) (s : State) : Host.Outcome State Fault Refusal :=
  .next (s.live (if s.intakeDue = some queue.val then s.intake queue.val else s))

/-- JOB_SEAT (R167): only the Registrar seats (R189). -/
def execJobSeat (slice : Fin 64) (lesson : Word) (s : State) : Host.Outcome State Fault Refusal :=
  .next (s.live (if s.regRunning then s.seatBest (lessonKey slice.val lesson.toNat) else s))

/-- COMPLETION_WRITE (R177). -/
def execCompletionWrite (tag : Fin 1024) (s : State) : Host.Outcome State Fault Refusal := .next (s.live (s.complete tag.val))

/-- ABORT (R176). -/
def execAbort (mb : Fin 68) (s : State) : Host.Outcome State Fault Refusal :=
  .next (s.live (s.serve mb.val 0x0012 (fun t r _ => t.abortRun r)))

/-- BELL_ARM (R182). -/
def execBellArm (tag : Fin 1024) (s : State) : Host.Outcome State Fault Refusal := .next (s.live (s.bellArm tag.val))

/-- BELL_DEADLINE (R184). -/
def execBellDeadline (tag : Fin 1024) (s : State) : Host.Outcome State Fault Refusal := .next (s.live (s.bellDeadline tag.val))

/-- SEQ_ADD (R179). -/
def execSeqAdd (mb : Fin 68) (s : State) : Host.Outcome State Fault Refusal :=
  .next (s.live (s.serve mb.val 0x0020 (fun t r bs => t.seqAddRun (hSlice r.header) bs)))

/-- SEQ_FEED (R179). -/
def execSeqFeed (mb : Fin 68) (s : State) : Host.Outcome State Fault Refusal :=
  .next (s.live (s.serve mb.val 0x0021 (fun t r _ => t.seqFeedRun (hSlice r.header) r)))

/-- SEQ_RETIRE (R179). -/
def execSeqRetire (mb : Fin 68) (s : State) : Host.Outcome State Fault Refusal :=
  .next (s.live (s.serve mb.val 0x0022 (fun t r _ => t.seqRetireRun (hSlice r.header) r)))

/-- ROSTER_STEP_BUILD (R180). -/
def execRosterStepBuild (slice : Fin 64) (lesson : Word) (group : Nat) (s : State) : Host.Outcome State Fault Refusal :=
  .next (s.live (s.buildStep (lessonKey slice.val lesson.toNat) group))

end Sys2Proof.Machine
end

