-- ==== Sys2Proof/Machine/Reset.lean ====
section
/-! DEFINITION. Reset of the device and the steps of boot (17_power_clocks_reset R392-R396, R410; 13_firmware_mladnel R307; 01 R28, R35;
12_worlds_identity R288, R291, R301, R302). -/

namespace Sys2Proof.Machine

/-! ### Reset (R392, R393) -/

/-- Everything to its reset value but the always-on fields; the device is held in reset. The level in force becomes PRIOR_1M, and a
level whose wipe is still owed stays owed (R291). The contents of LPDDR5X stay where `keepDram` holds (log entry 5). -/
def State.holdReset (s : State) (causes prior : Nat) (keepDram : Bool) : State :=
  let inDram := fun (a : Nat) => dramBase ≤ a && a < pairBase
  let t := State.cleared { s.pins with aliveOut := false, pwrEn0 := false, pwrEn1 := false } s.fuses []
  let t1 := (t.wr AON_RESET_CAUSE.CAUSE causes).wr WMARK_DRAM_CTRL.PRIOR_1M prior
  { t1 with
    pending := s.pending, bus := s.bus, fresh := s.fresh, found := s.found
    mem := if keepDram then s.mem.filter (fun (p : Host.Cell) => inDram p.1) else []
    ecc := if keepDram then ⟨s.ecc.ce.filter inDram, s.ecc.ue.filter inDram, [], [], []⟩ else ⟨[], [], [], [], []⟩ }

/-- PRIOR_1M after a reset that begins now. -/
def State.priorNext (s : State) : Nat :=
  if s.boot.dramTrained then s.rd WMARK_DRAM.LEVEL_1M
  else max (s.rd WMARK_DRAM.LEVEL_1M) (s.rd WMARK_DRAM_CTRL.PRIOR_1M)

/-- A reset of the device with a cause: 0 POR, 1 PIN, 2 BROWNOUT, 3 THERMAL, 4 LIFECYCLE, 5 SOFT, 6 DEBUG (R393). POR clears the other
causes and PRIOR_1M. -/
def State.deviceReset (s : State) (cause : Nat) : State :=
  if cause = 0 then s.holdReset 1 0 false
  else s.holdReset (setBit (s.rd AON_RESET_CAUSE.CAUSE) cause) s.priorNext true

/-- POWER_ON_RESET (R392). -/
def execPowerOnReset (s : State) : Host.Outcome State Fault Refusal := .next (s.deviceReset 0)

/-- A reset that may meet one in progress: a shutdown still lasts its 5 s (R384). -/
def State.resetAgain (s : State) (cause : Nat) : State :=
  let t := s.deviceReset cause
  { t with boot := { t.boot with thermOff := s.boot.thermOff } }

/-- RESET_PIN (R392): pulses shorter than 1 us are ignored. -/
def execResetPin (lowNs : Nat) (s : State) : Host.Outcome State Fault Refusal := .next (if lowNs < 1000 then s else s.resetAgain 1)

/-- A write to AON_RESET_REQ (R393). -/
def State.resetReqWrite (s : State) (v : Nat) : State := if bits v 7 0 = 0xA5 then s.deviceReset 5 else s

/-- AON_RESET_REQ (R392). -/
def execAonResetReq (who : Initiator) (data : Word) (s : State) : Host.Outcome State Fault Refusal :=
  .next (s.live (s.regWr who .aon_reset_req 0 0 (fun t => t.resetReqWrite data.toNat)))

/-- DEBUG_RESET (R392): while DBG_NS_INV is 1. -/
def execDebugReset (s : State) : Host.Outcome State Fault Refusal :=
  .next (s.live (if s.on SEC_STATE.DBG_NS_INV then s.deviceReset 6 else s))

/-- The fuses after a lifecycle transition (R302): the owner revoke fuses go with FIELD_RETURN, the secret-destroy fuses with
DECOMMISSIONED. -/
def Fuses.moved (f : Fuses) (target : Nat) : Fuses :=
  { f with lifecycle := target, transition := none
           secrets := if target = 4 then [] else f.secrets
           ownersRevoked := if target = 3 then 15 else f.ownersRevoked
           secretsDestroyed := f.secretsDestroyed || target = 4 }

/-- The debug enables that a lifecycle state sets without a certificate (R301), as DBG_S_INV, DBG_S_NONINV, DBG_NS_INV,
DBG_NS_NONINV from bit 3 down. -/
def debugDefault (life : Nat) : Nat := if life = 0 ∨ life = 3 then 15 else if life = 1 then 3 else 0

/-- Set the debug enables named by a mask: bit 0 DBG_NS_NONINV, 1 DBG_NS_INV, 2 DBG_S_NONINV, 3 DBG_S_INV. -/
def State.raiseDebug (s : State) (m : Nat) : State :=
  let set := fun (t : State) (b : Bool) (f : FRef) => if b then t.wr f 1 else t
  set (set (set (set s (bit m 0) SEC_STATE.DBG_NS_NONINV) (bit m 1) SEC_STATE.DBG_NS_INV) (bit m 2) SEC_STATE.DBG_S_NONINV)
    (bit m 3) SEC_STATE.DBG_S_INV

/-- The governor loads its limits from the fuses (R309, R386, R395). -/
def State.loadLimits (s : State) : State :=
  let f := s.fuses
  let s1 := ((s.wr (PMC_LIMIT_CD.IMAX_A 0) f.imaxA0).wr (PMC_LIMIT_CD.OPP_MAX 0) f.oppMax0)
  let s2 := ((s1.wr (PMC_LIMIT_CD.IMAX_A 1) f.imaxA1).wr (PMC_LIMIT_CD.OPP_MAX 1) f.oppMax1)
  (((s2.wr PMC_LIMIT_PKG.TJ_CLAMP_C f.tjClamp).wr PMC_LIMIT_PKG.EXC_MS f.excMs).wr PMC_LIMIT_PKG.P_EXC_W f.pExcW).wr
    PMC_LIMIT_PKG.P_SUST_W f.pSustW

/-- RESET_RELEASE (R35, R309, R392, R395): the straps are sampled, the limits are loaded from the fuses, Vehicle Time and the boot ROM start; a
lifecycle transition cut short is completed before any other code runs (R302). -/
def execResetRelease (s : State) : Host.Outcome State Fault Refusal :=
  .next (
    if s.boot.inReset && s.boot.thermOff = 0 then
      let fuses := match s.fuses.transition with | some t => s.fuses.moved t | none => s.fuses
      let s1 := { s with
        fuses := fuses
        clock := ⟨0, 0, true, 0⟩
        boot := { s.boot with inReset := false, strapEn := s.pins.pairEn, strapRole := s.pins.pairRole } }
      (s1.loadLimits.wr SEC_STATE.LIFECYCLE fuses.lifecycle).raiseDebug (debugDefault fuses.lifecycle)
    else s)

/-- THERMAL_POWER_OFF (R384): the device is held in reset; PRIOR_1M is kept. LPDDR5X loses its power. -/
def execThermalPowerOff (s : State) : Host.Outcome State Fault Refusal :=
  .next (s.live (
    if s.pwr.shutdown then
      let t := s.holdReset (s.rd AON_RESET_CAUSE.CAUSE) s.priorNext false
      { t with boot := { t.boot with thermOff := 1 } }
    else s))

/-- THERMAL_RESTART (R384): 5 s have passed, and the device starts with cause THERMAL. -/
def execThermalRestart (s : State) : Host.Outcome State Fault Refusal :=
  .next (
    if s.boot.inReset && s.boot.thermOff = 1 then
      let t := s.wr AON_RESET_CAUSE.CAUSE (setBit (s.rd AON_RESET_CAUSE.CAUSE) 3)
      { t with boot := { t.boot with thermOff := 0 } }
    else s)

/-- SAFE0_N and SAFE1_N (R270, R413): driven low until the self-check passes, and low while asserted. -/
def State.safe0N (s : State) : Bool := s.boot.fcuPassed && !s.boot.inReset && !s.safe0
def State.safe1N (s : State) : Bool := s.boot.fcuPassed && !s.boot.inReset && !s.on FCU_SUMMARY.SAFE1

/-! ### Firmware images (R307, R395) -/

/-- R299: the boot ROM of a die (0 the Hub die) derives its identifier from the measurement of the die's first mutable firmware, and makes its
secret unreadable. -/
def State.deriveCdi (s : State) (die : Nat) (measure : BitVec 384) : State :=
  if s.boot.secretShut.contains die then s
  else { s with boot := { s.boot with
    secretShut := s.boot.secretShut ++ [die], cdi := Table.put s.boot.cdi die (compoundId (s.fuses.secrets.getD die 0) measure) } }

/-- BOOT_SEC_FW_LOAD (R299, R307, R395, R396): a DECOMMISSIONED device's boot ROM stops after reporting the state (R301). An image that fails a
check raises FW_AUTH_FAIL, and the Security Core is held until the reset of the device. -/
def execBootSecFwLoad (image : SecFwImage) (digest : BitVec 384) (bootFlags : Word) (s : State) :
    Host.Outcome State Fault Refusal :=
  .next (s.live (
    if s.rd SEC_STATE.SC_STATE ≠ 0 || s.boot.scFailed || s.fuses.lifecycle = 4 then s
    else if image.sigOk && s.fuses.minVersion.getD 0 0 ≤ image.version.toNat then
      let s1 := (((s.wr SEC_STATE.SC_STATE 1).wr SEC_STATE.SEALED 0).deriveCdi 0 digest).draw
      { s1.2 with boot := { s1.2.boot with
          firstSecDigest := some digest, bootFlags := bootFlags.toNat, measure := s1.2.boot.measure.set 0 digest, aliasCert := s1.1 } }
    else { s with boot := { s.boot with scFailed := true } }.raise srcFwAuthFail))

/-- Place of an image in the measurements of R304, and in the minimum versions. -/
def fwPlace : FwImage → Nat
  | .pmc => 1
  | .registrar => 2
  | .ccc => 3
  | .proctor => 4

/-- The image has been loaded, or its processor is held until the device is reset. -/
def State.fwSettled (s : State) (i : FwImage) : Bool :=
  match i with
  | .pmc => s.rd MLMB_FW_STATE.PMC ≠ 0 || s.boot.pmcHeld
  | .registrar => s.rd MLMB_FW_STATE.REGISTRAR ≠ 0 || s.boot.regHeld
  | .ccc => s.boot.cccVerified || s.boot.cccHeld
  | .proctor => s.rd MLMB_FW_STATE.PROCTOR ≠ 0 || s.boot.procHeld

/-- The CCCs of die `d` run the verified image, which the die's boot ROM has measured (R299, R395). -/
def State.startCccs (s : State) (d : Nat) : State :=
  (List.range 8).foldl (fun (u : State) i => u.setCcc (8 * d + i) 1) (s.deriveCdi (d + 1) (s.boot.measure.getD 3 0))

/-- The image is loaded, and its processors run. -/
def State.fwStart (s : State) (i : FwImage) : State :=
  match i with
  | .pmc => s.wr MLMB_FW_STATE.PMC 1
  | .registrar => s.wr MLMB_FW_STATE.REGISTRAR 1
  | .proctor => s.wr MLMB_FW_STATE.PROCTOR 1
  | .ccc =>
    let s1 := { s with boot := { s.boot with cccVerified := true } }
    s1.each ([0, 1].filter (fun d => (s1.die d).powered)) State.startCccs

/-- The processor is held in reset until the reset of the device. -/
def State.fwHold (s : State) (i : FwImage) : State :=
  let b := s.boot
  { s with boot := match i with
      | .pmc => { b with pmcHeld := true }
      | .registrar => { b with regHeld := true }
      | .ccc => { b with cccHeld := true }
      | .proctor => { b with procHeld := true } }

/-- FW_IMAGE_VERIFY (R307). -/
def execFwImageVerify (image : FwImage) (sigOk : Bool) (version : BitVec 16) (digest : BitVec 384) (s : State) :
    Host.Outcome State Fault Refusal :=
  .next (s.live (
    if !s.scRunning || s.fwSettled image then s
    else if sigOk && s.fuses.minVersion.getD (fwPlace image) 0 ≤ version.toNat then
      let s1 := { s with boot := { s.boot with measure := s.boot.measure.set (fwPlace image) digest } }
      (s1.fwStart image).noteService
    else (s.fwHold image).raise srcFwAuthFail))

/-- LPDDR5X_TRAINING_END (R291, R395, R396): the wipe below PRIOR_1M runs before any access is served; a tamper event, a certificate or a
lifecycle change that met untrained LPDDR5X has the secure partition wiped then (R303), with the readback of R290; it is merged into a wipe that was asked for before training and still waits. -/
def execLpddr5xTrainingEnd (training : DramTraining) (s : State) : Host.Outcome State Fault Refusal :=
  .next (s.live (
    if s.boot.dramTrained then s
    else if training.ok then
      let s1 := s.wipeRange dramBase (dramBase + s.rd WMARK_DRAM_CTRL.PRIOR_1M * 0x100000)
      let s2 := if !s1.sec.tamperDram then s1
        else if s1.sec.dramWipe.isSome then s1.wipeDram 0 s1.dramLevel true
        else (s1.wipeDram 0 s1.dramLevel true).dramWiped training.nonZero
      let s3 := { s2 with
        boot := { s2.boot with dramTrained := true, dramServing := true }
        sec := { s2.sec with tamperDram := false } }
      (s3.deassertSrc srcDramTrainFail).noteService
    else s.assertSrc srcDramTrainFail))

/-! ### Compute dies (R28, R96, R300, R410) -/

/-- CLC_SEAT_SHARE.SLICE and SLICE_VALID of global Seat `g` (R327, R329). A Seat that goes to another slice shows it nothing of the first: its vector
registers are cleared (R305, log entry 84). -/
def State.ownSeat (s0 : State) (g : Nat) (owner : Option Nat) : State :=
  let s := if s0.seatSlice g = owner then s0 else s0.setSeat g { s0.seat g with vregs := [] }
  match owner with
  | some i => (s.wr (CLC_SEAT_SHARE.SLICE (g / 64) (g % 64)) i).wr (CLC_SEAT_SHARE.SLICE_VALID (g / 64) (g % 64)) 1
  | none => (s.wr (CLC_SEAT_SHARE.SLICE (g / 64) (g % 64)) 0).wr (CLC_SEAT_SHARE.SLICE_VALID (g / 64) (g % 64)) 0

/-- The Seats of a slice by its SEAT_MASKs. -/
def Slice.seats (x : Slice) : List Nat :=
  (indexed 0 x.seatMask).flatMap (fun p => (List.range 64).filterMap (fun k => if bit p.2 k then some (64 * p.1 + k) else none))

/-- The Seats of die `d` belong to their slices again: a slice owns its Seats for as long as it is configured. -/
def State.ownSeatsOf (s : State) (d : Nat) : State :=
  s.each s.slices (fun u p => u.each (p.2.seats.filter (fun g => dieOf (clusterOf g) = d)) (fun v g => v.ownSeat g (some p.1)))

/-- A die that comes up joins: its links train, its CCCs run the verified image, it starts at OP0, and a hold that waited for it is
in force (R293, R344, R394). -/
def State.dieJoins (s : State) (d : Nat) : State :=
  let x := s.die d
  let s1 := s.setDie d { Die.zero with powered := true, govCeil := x.govCeil, enAt := x.enAt, offAt := x.offAt }
  let up := setBit s1.pwr.linksUp (d + 1)
  let s1 := (s1.ownSeatsOf d).each ((List.range 8).map (8 * d + ·)) State.noteSpares
  let s2 := s1.setLinks (if (s1.die (1 - d)).powered then setBit up 0 else up)
  let s3 := s2.deassertSrc (srcDieLinkDownH d)
  let s4 := if bit s3.pwr.linksUp 0 then s3.deassertSrc srcDieLinkDownC else s3
  let s5 := if s4.boot.cccVerified then s4.startCccs d else s4
  let s6 := if bit s5.pwr.holdPending d then
      let t := s5.setReg64 PMC_SEC_HOLD (setBit (s5.reg64 PMC_SEC_HOLD) d)
      { t with pwr := { t.pwr with holdPending := clearBit t.pwr.holdPending d } }
    else s5
  s6.noteService

/-- The PMC drives PWR_EN_CDn high: once the FCU self-check has passed (R413), for a die that is neither held nor gated off, and 10 ms after it was last driven
low (R410). -/
def State.mayDrive (s : State) (d : Nat) : Bool :=
  s.pmcRunning && s.boot.fcuPassed && !(s.die d).held && !bit s.pwr.gatedPower d
    && (match (s.die d).offAt with | none => true | some t => s.passed t 10000000)

/-- PWR_EN_CDn driven high where nothing keeps the PMC from it (log entry 91). -/
def State.drivePower (s : State) (d : Nat) : State := if !s.pwrEn d && s.mayDrive d then s.setPwrEn d true else s

/-- DIE_POWER_UP (R300, R410): with PWR_EN_CDn high the rails come up; a die that fails authentication is refused and held unpowered (R28). -/
def execDiePowerUp (die : Fin 2) (authOk : Bool) (s : State) : Host.Outcome State Fault Refusal :=
  let d := die.val
  .next (s.live (
    let s1 := s.drivePower d
    if !s1.pwrEn d || !s.scRunning || (s.die d).powered || (s.die d).held then s
    else if authOk then s1.dieJoins d
    else ((s1.setDie d { s1.die d with held := true }).setPwrEn d false).assertSrc (srcCdAuthFail d)))

/-- DIE_POWER_TIMEOUT (R410): 5 ms after PWR_EN_CDn was driven high the die's rails are not up. -/
def execDiePowerTimeout (die : Fin 2) (s : State) : Host.Outcome State Fault Refusal :=
  let d := die.val
  .next (s.live (
    if !s.pmcRunning || !s.pwrEn d || (s.die d).powered || !s.passed (s.die d).enAt 5000000 then s
    else ((s.setDie d { s.die d with held := true }).setPwrEn d false).assertSrc (srcDieLinkDownH d)))

/-- ZERO_FILL_END (R96, R113): the memories of the die hold zero, and every cluster starts its start-up test; bit 0 of BOOT_FLAGS selects
the destructive mode (R394). -/
def execZeroFillEnd (die : Fin 2) (s : State) : Host.Outcome State Fault Refusal :=
  let d := die.val
  .next (s.live (
    if !(s.die d).powered || (s.die d).filled then s
    else
      let s1 := s.setDie d { s.die d with filled := true }
      (List.range 8).foldl (fun (u : State) i =>
        u.beginMarch (8 * d + i) [0, 1, 2, 3, 4, 5, 6, 7, 8] 0 31 (bit s.boot.bootFlags 0) true) s1))

/-- APC_RESET_RELEASE (R288). -/
def execApcResetRelease (s : State) : Host.Outcome State Fault Refusal :=
  .next (s.live (
    if s.on APC_LLC_PART.LOCK then
      let s1 := { s with boot := { s.boot with apcOut := true } }
      s1.noteService
    else s))

end Sys2Proof.Machine
end

