-- ==== Sys2Proof/Machine/Power.lean ====
section
/-! DEFINITION. Supply dips, operating points, the hardware governor's limits, the clock monitor, and power gating
(17_power_clocks_reset R374-R391; 12_worlds_identity R292, R293; 07_scheduling R174). -/

namespace Sys2Proof.Machine

/-! ### Operating points (R380-R382) -/

/-- Energy factors of OP0 to OP4 (R380). -/
def energyFactors : List Nat := [599, 694, 797, 907, 1024]

/-- The governor moves die `d` towards point `p`, one point at a time (R381). -/
def State.setTarget (s : State) (d p : Nat) : State :=
  let cur := s.rd (PMC_OPP_CD.CUR d)
  (s.setDie d { s.die d with moveFrom := cur, moveBusy := p ≠ cur }).wr (PMC_OPP_CD.TARGET d) p

/-- Lower die `d` to point `p`, unless it stands or moves there or lower. -/
def State.lowerTo (s : State) (d p : Nat) : State := if p < s.rd (PMC_OPP_CD.TARGET d) then s.setTarget d p else s

/-- Raise die `d` towards point `p` at the Registrar's request: only the PMC raises, no higher than CEIL, and only once its first
budget record after the CCCs ran, and a period without a limit, allow it (R382, R385, R394). -/
def State.raiseTo (s : State) (d p : Nat) : State :=
  let q := min p (s.ceil d)
  if s.pmcRunning && (s.die d).powered && (s.die d).allowed && !s.pwr.acted && !s.pwr.actedLast && s.rd (PMC_OPP_CD.TARGET d) < q then s.setTarget d q else s

/-- A step of the change in progress ends (R381). -/
def State.oppStep (s : State) (d : Nat) : State :=
  if !(s.die d).moveBusy then s
  else
    let cur := s.rd (PMC_OPP_CD.CUR d)
    let tgt := s.rd (PMC_OPP_CD.TARGET d)
    let nxt := if cur < tgt then cur + 1 else cur - 1
    let s1 := (s.wr (PMC_OPP_CD.CUR d) nxt).wrapAdd (PMC_OPP_CD.STEPS d) 1
    s1.setDie d { s1.die d with moveBusy := nxt ≠ tgt }

/-- OPP_RAISE (R382): at the Registrar's request. -/
def execOppRaise (die : Fin 2) (point : Fin 5) (s : State) : Host.Outcome State Fault Refusal :=
  .next (s.live (if s.regRunning then s.raiseTo die.val point.val else s))

/-- OPP_STEP_END (R381). -/
def execOppStepEnd (die : Fin 2) (s : State) : Host.Outcome State Fault Refusal := .next (s.live (s.oppStep die.val))

/-! ### The voltage event (R174, R376) -/

/-- A Seat's work in flight is discarded at once (R376). -/
def State.clearFlight (s : State) (g : Nat) : State := s.setSeat g { s.seat g with flight := [] }

/-- The job's Lesson, or where only its fallback runs that one, is a SAFETY Lesson. -/
def State.safetyJob (s : State) (j : Job) : Bool := match s.lesson? j.lesson with | some l => imSafety l.image | none => false

/-- A SAFETY job returns to QUEUED with RERUN set, its Seats at once to IDLE. It keeps its tag and its generation. -/
def State.requeue (s : State) (t : Nat) (j : Job) : State :=
  let s1 := s.setJob t { j with
    state := 0, group := none, seats := [], firstIssue := none, rerun := true, reruns := j.reruns + 1, sigEqual := false
    origStopped := false, fb := none }
  s1.each j.liveSeats (fun u p => u.dropSeat p.1)

/-- One of two runs of a job is stopped at once. -/
def State.stopRun (s : State) (t : Nat) (j : Job) (onFb : Bool) : State :=
  let j1 := if onFb then { j with fb := none } else { j with origStopped := true }
  let seats := if onFb then (match j.fb with | some f => f.seats | none => []) else j.seats
  (s.setJob t j1).each seats (fun u p => u.dropSeat p.1)

/-- voltage_event on job `t` for its Seats that satisfy `f`. While both runs go, one struck alone stops and leaves the state word
unchanged; otherwise the job is queued again or fails (R174). -/
def State.voltJob (s : State) (t : Nat) (f : Nat → Bool) : State :=
  match s.job? t with
  | none => s
  | some j =>
    let orig := !j.origStopped && j.seats.any (fun p => f p.1)
    let fb := match j.fb with | some r => r.seats.any (fun p => f p.1) | none => false
    let both := j.fb.isSome && !j.origStopped && !j.seats.isEmpty
    if !(orig || fb) || j.state = 0 || 4 ≤ j.state then s
    else if both && !(orig && fb) then s.stopRun t j fb
    else if s.safetyJob j && j.reruns < 2 then s.requeue t j
    else
      let s1 := s.setJob t { j with voltage := true }
      (s1.each j.liveSeats (fun u p => u.clearFlight p.1)).endJob t 7 msFault none

/-- R376 step 2 for the Seats that satisfy `f`: jobs, Quiz runs and Drill steps. -/
def State.voltageEvent (s : State) (onCluster : Nat → Bool) : State :=
  let f := fun g => onCluster (clusterOf g)
  let s1 := s.jobs.foldl (fun (u : State) p => u.voltJob p.1 f) s
  (s1.stopQuizzes f true).dropDrill onCluster

/-! ### Dips (R375-R379) -/

/-- Rails of die `d` by their bit in PMC_RAIL_STATUS (R379). -/
def dieRails (d : Nat) : List Nat := if d = 0 then [0, 1, 4] else [2, 3, 5]
/-- The die of a rail bit below 6. -/
def railDie (r : Nat) : Nat := if r = 0 ∨ r = 1 ∨ r = 4 then 0 else 1
/-- The source of a rail's warning (R374). -/
def railSrc (r : Nat) : Nat :=
  if r = 4 ∨ r = 5 then srcVoltWarn 3 else if r = 6 then srcVoltWarn 2 else if r = 7 then srcVoltWarn 4 else srcVoltWarn (railDie r)

/-- BELOW and WARNED of a rail that has crossed its warning threshold. -/
def State.railBelow (s : State) (r : Nat) : State :=
  (s.wr PMC_RAIL_STATUS.BELOW (setBit (s.rd PMC_RAIL_STATUS.BELOW) r)).wr PMC_RAIL_STATUS.WARNED
    (setBit (s.rd PMC_RAIL_STATUS.WARNED) r)

/-- A dip on die `d` (R376, R378): issue halts, a change of operating point is abandoned for the lower of its two points, and the
jobs with a Seat on the die are tagged. -/
def State.dieDip (s : State) (d : Nat) (sram : Bool) : State :=
  let x := s.die d
  let s1 := if x.moveBusy then
      let p := min x.moveFrom (s.rd (PMC_OPP_CD.TARGET d))
      (s.wr (PMC_OPP_CD.CUR d) p).wr (PMC_OPP_CD.TARGET d) p
    else s
  let s2 := s1.setDie d { x with dipHalt := true, sramDip := x.sramDip || sram, moveBusy := false }
  s2.voltageEvent (fun n => dieOf n = d)

/-- RAIL_WARNING_DIE (R376). -/
def execRailWarningDie (rail : Fin 6) (s : State) : Host.Outcome State Fault Refusal :=
  let r := rail.val
  .next (s.live (
    if !(s.die (railDie r)).powered then s
    else ((s.railBelow r).dieDip (railDie r) (4 ≤ r)).raise (railSrc r)))

/-- RAIL_WARNING_HUB (R377): jobs on both dies are tagged; issue does not halt. -/
def execRailWarningHub (s : State) : Host.Outcome State Fault Refusal :=
  .next (s.live (
    let s1 := s.railBelow 6
    ({ s1 with pwr := { s1.pwr with hubLow := true } }.voltageEvent (fun _ => true)).raise (railSrc 6)))

/-- RAIL_WARNING_DDR (R377): only refresh until the rails have recovered. -/
def execRailWarningDdr (s : State) : Host.Outcome State Fault Refusal :=
  .next (s.live (
    let s1 := s.railBelow 7
    { s1 with pwr := { s1.pwr with ddrRefreshOnly := true } }.raise (railSrc 7)))

/-! ### The CONST check of a cluster (R154, R155) -/

/-- The CONST content of a share or a region, read from memory, gives the CRC kept at load; an uncorrectable word fails the
check, and so does a region that the CCC may not read (R114). -/
def State.verifyHome (s : State) (m : List Byte) (secs : List Nat) (base size crc : Nat) : State × Bool :=
  if s.regionShut base size && secs.any (fun k => seConst m k = 1) then (s.cccViol base false, false) else
  let r := (secs.filter (fun k => seConst m k = 1)).foldl (fun (p : State × Bool) k =>
    let q := p.1.eccRead (base + seDest m k) (seLen m k)
    (q.1, p.2 && q.2)) (s, true)
  (r.1, r.2 && r.1.constCrc m secs base = crc)

/-- The CRC kept for a Seat's share, or for the region in a cluster. -/
def Lesson.keptCrc (l : Lesson) (seat : Option Nat) (cluster : Nat) : Nat :=
  match seat with
  | some g => (Table.find l.seatCrc g).getD 0
  | none => (Table.find l.regionCrc cluster).getD 0

/-- The CONST content of Lesson `l` in cluster `n` passes. -/
def State.verifyLesson (s : State) (l : Lesson) (n : Nat) : State × Bool :=
  ((s.homes l.image l.places).filter (fun h => h.1.cluster = n)).foldl (fun (p : State × Bool) h =>
    let q := p.1.verifyHome l.image h.2.1 h.2.2.1 h.2.2.2.1 (l.keptCrc h.2.2.2.2 n)
    (q.1, p.2 && q.2)) (s, true)

/-- The CCC of cluster `n` verifies the CONST content there; a difference unloads every Lesson with a stage in the cluster (R155). -/
def State.verifyCluster (s : State) (n : Nat) : State :=
  let ls := s.lessons.filter (fun p => p.2.places.any (fun q => q.cluster = n))
  let r := ls.foldl (fun (p : State × Bool) x => let q := p.1.verifyLesson x.2 n; (q.1, p.2 && q.2)) (s, true)
  if r.2 then r.1 else (r.1.unloadWhere (fun q => q.cluster = n) msFault).raise srcLessonVerify

/-- The check of the CONST content of die `d` must wait: a test or a wipe holds some of it (R105, R108). -/
def State.checkHeld (s : State) (d : Nat) : Bool := (s.die d).sramDip && (List.range 8).any (fun i => s.contentHeld (8 * d + i))

/-- Issue resumes on die `d` once every rail of it has recovered, its clocks run and no thermal clamp holds it (R376, R378, R391); jobs seated during the
dip are tagged as well. -/
def State.resumeDie (s : State) (d : Nat) : State :=
  let low := (dieRails d).any (fun r => bit (s.rd PMC_RAIL_STATUS.BELOW) r)
  if !(s.die d).dipHalt || low || s.on (PMC_OPP_CD.CLAMPED d) || s.checkHeld d || !s.domainOn (36 + 4 * d) || !s.domainOn (37 + 4 * d) then s
  else
    let s1 := s.voltageEvent (fun n => dieOf n = d)
    let s2 := if (s.die d).sramDip then (List.range 8).foldl (fun (u : State) i => u.verifyCluster (8 * d + i)) s1 else s1
    s2.setDie d { s2.die d with dipHalt := false, sramDip := false }

/-- RAIL_RECOVERED (R375-R377). -/
def execRailRecovered (rail : Fin 8) (s : State) : Host.Outcome State Fault Refusal :=
  let r := rail.val
  .next (s.live (
    if !bit (s.rd PMC_RAIL_STATUS.BELOW) r then s
    else
      let s1 := s.wr PMC_RAIL_STATUS.BELOW (clearBit (s.rd PMC_RAIL_STATUS.BELOW) r)
      if r = 6 then { s1 with pwr := { s1.pwr with hubLow := false } }
      else if r = 7 then { s1 with pwr := { s1.pwr with ddrRefreshOnly := false } }
      else s1.resumeDie (railDie r)))

/-- A die that is off has no rail below its threshold and no clock missing. -/
def State.clearRails (s : State) (d : Nat) : State :=
  let s1 := s.wr PMC_RAIL_STATUS.BELOW ((dieRails d).foldl clearBit (s.rd PMC_RAIL_STATUS.BELOW))
  { s1 with pwr := { s1.pwr with stopped := s1.pwr.stopped.filter (fun k => !(36 + 4 * d ≤ k && k < 40 + 4 * d)) } }

/-- The rail is on while a thermal shutdown lasts (R384). -/
def railStays (rail : Rail) : Bool := rail = .aon || rail = .io18 || rail = .io33

/-- RAIL_RESET_THRESHOLD (R379, R392): a device that is held in reset already takes the cause BROWNOUT as well. -/
def execRailResetThreshold (rail : Rail) (s : State) : Host.Outcome State Fault Refusal :=
  .next (
    match rail with
    | .die r =>
      let d := railDie r.val
      s.live (if (s.die d).powered then (s.loseDie d).clearRails d else s)
    | _ => if s.boot.thermOff = 0 || railStays rail then s.resetAgain 2 else s)

/-! ### Heat (R383, R384) -/

/-- The highest of a list of readings, and the readings of a die or of the Hub. -/
def hottest (l : List Int) : Int := l.foldl max (-1000)
def State.dieTemps (s : State) (d : Nat) : List Int := (s.pwr.temps.drop (32 * d)).take 32
def State.hubTemps (s : State) : List Int := s.pwr.temps.drop 64
/-- Temperature of cluster `n`: the highest of its four sites (R383). -/
def State.clusterTemp (s : State) (n : Nat) : Int := hottest ((s.pwr.temps.drop (4 * n)).take 4)

/-- Every die goes to OP0: the safe point that the governor takes under a thermal or current limit while the PMC is away (R325). -/
def State.safePoint (s : State) : State := if s.pmcRunning then s else (s.lowerTo 0 0).lowerTo 1 0

/-- The clamp of a die and its halt at one sample (R384): 20 samples after the first one at OP0, 1 ms has passed there. -/
def State.thermalDie (s : State) (d : Nat) : State :=
  if !(s.die d).powered then s
  else
    let t := hottest (s.dieTemps d)
    let tj : Int := s.rd PMC_LIMIT_PKG.TJ_CLAMP_C
    let low := s.rd (PMC_OPP_CD.CUR d) = 0
    let x := s.die d
    let y := { x with clampSamples := if low then min (x.clampSamples + 1) 20 else 0 }
    let halt := decide low && decide (20 ≤ x.clampSamples) && decide (tj + 3 ≤ t)
    if s.on (PMC_OPP_CD.CLAMPED d) then
      if t ≤ tj - 5 then ((s.setDie d { y with heatHalt := false }).wr (PMC_OPP_CD.CLAMPED d) 0).resumeDie d
      else s.setDie d { y with heatHalt := x.heatHalt || halt }
    else if tj ≤ t then (((s.setDie d { y with heatHalt := halt }).wr (PMC_OPP_CD.CLAMPED d) 1).lowerTo d 0).safePoint
    else s.setDie d y

/-- THERMAL_SAMPLE (R384). -/
def execThermalSample (temps : List Int) (s : State) : Host.Outcome State Fault Refusal :=
  .next (s.live (
    let s1 := { s with pwr := { s.pwr with temps := temps } }
    let s2 := (s1.thermalDie 0).thermalDie 1
    let tj : Int := s.rd PMC_LIMIT_PKG.TJ_CLAMP_C
    let h := hottest s2.hubTemps
    let hub := if s2.pwr.clampHub then decide (¬ h ≤ tj - 5) else decide (tj ≤ h)
    let s3 := { s2 with pwr := { s2.pwr with clampHub := hub } }.when (hub && !s2.pwr.clampHub) State.safePoint
    let s4 := s3.levelSrc srcThermClamp (hub || s3.on (PMC_OPP_CD.CLAMPED 0) || s3.on (PMC_OPP_CD.CLAMPED 1))
    if 135 ≤ hottest temps ∧ ¬ s4.pwr.shutdown then
      { s4 with pwr := { s4.pwr with shutdown := true } }.raise srcThermShutdown
    else s4))

/-! ### Power and current (R385) -/

/-- A power or current limit lowers die `d`: by one point, or to OP0; CEIL follows. -/
def State.limitDie (s : State) (d : Nat) (toZero : Bool) : State :=
  let p := if toZero then 0 else min (s.rd (PMC_OPP_CD.CUR d)) (s.rd (PMC_OPP_CD.TARGET d)) - 1
  let x := s.die d
  (s.setDie d { x with govCeil := min x.govCeil p }).lowerTo d p

/-- A limit acts on the dies `ds`: POWER_LIMIT is raised if it lowers a point. -/
def State.limitActs (s : State) (ds : List Nat) (toZero : Bool) : State :=
  let s1 := { s with pwr := { s.pwr with acted := true } }
  let s2 := s1.each ds (fun u d => u.limitDie d toZero)
  if ds.any (fun d => s2.rd (PMC_OPP_CD.TARGET d) < s.rd (PMC_OPP_CD.TARGET d)) then s2.raise srcPowerLimit else s2

/-- The sustained-power limit at one sample (R385): after EXC_MS of samples above P_SUST_W, or at once within 90 ms of the last
excursion, both dies go down one point every 100 us until a sample is at or below P_SUST_W. -/
def State.sustained (s : State) (pkgW : Nat) : State :=
  let p := s.pwr
  if s.rd PMC_LIMIT_PKG.P_SUST_W < pkgW then
    let n := p.overSamples + 1
    let act := p.sustaining || s.rd PMC_LIMIT_PKG.EXC_MS * 100 ≤ n
      || (match p.sinceExc with | some k => k < 9000 | none => false)
    let s1 := { s with pwr := { p with
      overSamples := n, sustaining := act, sustCount := if act then (p.sustCount + 1) % 10 else 0 } }
    if act && p.sustCount = 0 then s1.limitActs [0, 1] false else s1
  else
    { s with pwr := { p with
      overSamples := 0, sustaining := false, sustCount := 0
      sinceExc := if 0 < p.overSamples then some 0 else p.sinceExc.map (· + 1) } }

/-- The current limit of die `d` at one sample (R385): it acts once the current has been above IMAX_A for 10 us, and goes on at every sample until the
current is below IMAX_A. -/
def State.currentLimit (s : State) (d amps : Nat) (held : Bool) : State :=
  let imax := s.rd (PMC_LIMIT_CD.IMAX_A d)
  let act := decide (imax ≤ amps) && ((held && decide (imax < amps)) || (s.die d).overAmps)
  let s1 := s.setDie d { s.die d with overAmps := act }
  if act then (s1.limitActs [d] false).safePoint else s1

/-- POWER_SAMPLE (R385, R399). -/
def execPowerSample (sample : PowerSample) (s : State) : Host.Outcome State Fault Refusal :=
  .next (s.live (
    let s1 := s.wrapAdd PMC_ENERGY.ENERGY_UJ sample.energyUj
    let s2 := if s1.rd PMC_LIMIT_PKG.P_EXC_W < sample.avg100W then s1.limitActs [0, 1] true else s1
    let s3 := s2.sustained sample.pkgW
    (s3.currentLimit 0 sample.amps0 sample.held0).currentLimit 1 sample.amps1 sample.held1))

/-! ### Limit registers (R309, R386) -/

/-- A write to PMC_LIMIT_CDn: each field is only ever lowered; the die follows a lower OPP_MAX. -/
def State.limitCdWrite (s : State) (d v : Nat) : State :=
  let s1 := (s.wr (PMC_LIMIT_CD.IMAX_A d) (min (bits v 31 16) (s.rd (PMC_LIMIT_CD.IMAX_A d)))).wr (PMC_LIMIT_CD.OPP_MAX d)
    (min (bits v 2 0) (s.rd (PMC_LIMIT_CD.OPP_MAX d)))
  s1.lowerTo d (s1.rd (PMC_LIMIT_CD.OPP_MAX d))

/-- A write to PMC_LIMIT_PKG; TJ_CLAMP_C takes no value below 85. -/
def State.limitPkgWrite (s : State) (v : Nat) : State :=
  let low := fun (t : State) (f : FRef) => t.wr f (min (f.of v) (t.rd f))
  let s1 := low (low (low s PMC_LIMIT_PKG.P_SUST_W) PMC_LIMIT_PKG.P_EXC_W) PMC_LIMIT_PKG.EXC_MS
  if PMC_LIMIT_PKG.TJ_CLAMP_C.of v < 85 then s1 else low s1 PMC_LIMIT_PKG.TJ_CLAMP_C

/-- PMC_LIMIT_WRITE (R386). -/
def execPmcLimitWrite (who : Initiator) (reg : LimitReg) (data : Word) (s : State) : Host.Outcome State Fault Refusal :=
  .next (s.live (
    match reg with
    | .cd d => s.regWr who .pmc_limit_cd d.val 0 (fun t => t.limitCdWrite d.val data.toNat)
    | .pkg => s.regWr who .pmc_limit_pkg 0 0 (fun t => t.limitPkgWrite data.toNat)))

/-- OPP_LIMIT (R316, R386): ARG [0] the die, [11:8] the ceiling; other bits are zero and the ceiling is a point of R380. -/
def State.oppLimitRun (s : State) (r : Req) : Answer :=
  let a := hArg r.header
  let p := bits a 11 8
  if bits a 7 1 ≠ 0 || 4096 ≤ a || 4 < p then s.answer msBadarg
  else
    let d := a % 2
    let s1 := s.wr (PMC_LIMIT_CD.OPP_MAX d) (min p (s.rd (PMC_LIMIT_CD.OPP_MAX d)))
    (s1.lowerTo d (s1.rd (PMC_LIMIT_CD.OPP_MAX d))).answer msOk

/-- OPP_LIMIT (R316). -/
def execOppLimit (mb : Fin 68) (s : State) : Host.Outcome State Fault Refusal :=
  .next (s.live (s.serve mb.val 0x0101 (fun t r _ => t.oppLimitRun r)))

/-! ### Clocks (R389, R391) -/

/-- The domains that one PLL feeds, by any of them; none for a domain without a PLL. -/
def pllDomains (k : Nat) : List Nat :=
  if k ∈ [0, 1, 2, 9] then []
  else
    match ([[3, 4], [6, 7, 8, 29], [16, 17], [18, 19, 20, 21], [30, 31], [32, 33], [34, 35], [38, 39], [42, 43]] : List (List Nat)).find?
        (fun g => g.contains k) with
    | some g => g
    | none => [k]

/-- The CRITICAL level sources of the units whose absence is CRITICAL (R21), from the domains that stand: the Hub fabric, the Queue Manager, the
gateway with its Ethernet and CAN controllers, Proctor, which also keeps its source while it is held (R234; log entry 80). -/
def State.unitFaults (s : State) : State :=
  let held := s.rd MLMB_FW_STATE.PROCTOR = 3
  s.each [(0x001, !s.domainOn 6), (0x002, !s.domainOn 16), (srcGwFail, !([17, 18, 19, 20, 21] : List Nat).all s.domainOn),
    (srcProcLockstep, held || !s.domainOn 11)] (fun t p => t.levelSrc p.1 p.2)

/-- What the stop of a domain means at once: the FCU self-check (R272, R391), the loss of a hub link (R21), and a dip of a compute die. -/
def State.domainLost (s : State) (k : Nat) : State :=
  match k with
  | 4 => s.selfcheckFail
  | 34 => s.cccsLost 0
  | 38 => s.cccsLost 0
  | 35 => s.cccsLost 1
  | 42 => s.cccsLost 1
  | 36 => s.dieDip 0 false
  | 37 => s.dieDip 0 false
  | 40 => s.dieDip 1 false
  | 41 => s.dieDip 1 false
  | _ => s

/-- The die of a domain, if it lies on one that is off. -/
def State.domainOff (s : State) (k : Nat) : Bool := 36 ≤ k && !(s.die ((k - 36) / 4)).powered

/-- PLL_MONITOR_CHECK (R391): a loss of lock or a frequency outside the window is raised, and the PLL's domains stop. -/
def execPllMonitorCheck (domain : Fin 44) (unlocked outOfWindow : Bool) (s : State) : Host.Outcome State Fault Refusal :=
  let ds := pllDomains domain.val
  .next (s.live (
    if ds.isEmpty || !(unlocked || outOfWindow) || !s.domainOn domain.val || s.domainOff domain.val then s
    else
      let s1 := { s with pwr := { s.pwr with stopped := s.pwr.stopped ++ ds } }
      let s2 := if unlocked then s1.raise srcPllUnlock else s1
      let s3 := if outOfWindow then s2.raise srcClkMon else s2
      (s3.each ds State.domainLost).unitFaults))

/-- PLL_RELOCK (R391): the PLL's domains resume; a die's issue resumes as after a dip. -/
def execPllRelock (domain : Fin 44) (s : State) : Host.Outcome State Fault Refusal :=
  let ds := pllDomains domain.val
  .next (s.live (
    if s.domainOn domain.val then s
    else
      let s1 := { s with pwr := { s.pwr with stopped := s.pwr.stopped.filter (fun k => !ds.contains k) } }
      (if 36 ≤ domain.val then s1.resumeDie ((domain.val - 36) / 4) else s1).unitFaults.noteService))

/-! ### Power gating and secure holds (R292, R293) -/

/-- A unit gets its power and its clock again. A die whose power was cut comes up with DIE_POWER_UP. -/
def State.ungate (s : State) (u : Nat) (power : Bool) : State :=
  { s with pwr := { s.pwr with
      gatedPower := if power then clearBit s.pwr.gatedPower u else s.pwr.gatedPower
      gatedClock := if power then s.pwr.gatedClock else clearBit s.pwr.gatedClock u } }

/-- A unit loses its clock or its power. A compute die that loses its power is powered down (R28, R96), and may be powered up again; one that loses its
clock loses its CCCs (R21). -/
def State.gate (s : State) (u : Nat) (power : Bool) : State :=
  if power then
    let s1 := if u ≤ 1 && (s.die u).powered then
        let t := s.powerDownDie u
        (t.setDie u { t.die u with held := false }).clearRails u
      else if u ≤ 1 then s.setPwrEn u false
      else s
    { s1 with pwr := { s1.pwr with gatedPower := setBit s1.pwr.gatedPower u } }
  else
    let s1 := if u ≤ 1 && (s.die u).powered then s.cccsLost u else s
    { s1 with pwr := { s1.pwr with gatedClock := setBit s1.pwr.gatedClock u } }

/-- R292: the refusal is logged in PMC_HOLD_LOG, the first one held, and SEC_HOLD_DENIED is raised. -/
def State.holdDenied (s : State) (u : Nat) (power : Bool) (initiator : Nat) : State :=
  let n := s.rd PMC_HOLD_LOG.COUNT
  let s1 := if s.on PMC_HOLD_LOG.VALID then s
    else s.setReg64 PMC_HOLD_LOG (2 ^ 63 + n * 2 ^ 48 + u * 2 ^ 32 + b2n power * 2 ^ 16 + initiator)
  (s1.satAdd PMC_HOLD_LOG.COUNT 1).raise srcSecHoldDenied

/-- A hold bit is set, or waits for its unit. -/
def State.unitHeld (s : State) (u : Nat) : Bool := bit (s.reg64 PMC_SEC_HOLD) u || bit s.pwr.holdPending u

/-- POWER_GATE (R292): ARG [3:0] the unit, [8] power or clock, [9] gate or ungate. Only a request of the normal world is refused for a held unit. -/
def State.powerGateRun (s : State) (r : Req) : Answer :=
  let a := hArg r.header
  let u := bits a 3 0
  if bits a 7 4 ≠ 0 || 1024 ≤ a || u = 15 then s.answer msBadarg
  else if !bit a 9 then (s.ungate u (bit a 8)).answer msOk
  else if s.unitHeld u && !s.isSecure r.who then (s.holdDenied u (bit a 8) (s.initId r.who)).answer msDeniedHold
  else (s.gate u (bit a 8)).answer msOk

/-- POWER_GATE (R292). -/
def execPowerGate (mb : Fin 68) (s : State) : Host.Outcome State Fault Refusal :=
  .next (s.live (s.serve mb.val 0x0100 (fun t r _ => t.powerGateRun r)))

/-- Hold unit `u`: the PMC restores its power and clock first; the bit of a compute die that is not up yet waits for the die (R293). -/
def State.holdUnit (s : State) (u : Nat) : State :=
  let cut := u ≤ 1 && !(s.die u).powered
  let s1 := (s.ungate u true).ungate u false
  if cut then { s1 with pwr := { s1.pwr with holdPending := setBit s1.pwr.holdPending u } }
  else s1.setReg64 PMC_SEC_HOLD (setBit (s1.reg64 PMC_SEC_HOLD) u)

/-- A write to PMC_SEC_HOLD (R293). -/
def State.secHoldWrite (s : State) (v : Nat) : State :=
  (List.range 15).foldl (fun (t : State) u =>
    if bit v u then (if t.unitHeld u then t else t.holdUnit u)
    else
      let t1 := t.setReg64 PMC_SEC_HOLD (clearBit (t.reg64 PMC_SEC_HOLD) u)
      { t1 with pwr := { t1.pwr with holdPending := clearBit t1.pwr.holdPending u } }) s

/-- SEC_HOLD_WRITE (R293). -/
def execSecHoldWrite (who : Initiator) (data : Word) (s : State) : Host.Outcome State Fault Refusal :=
  .next (s.live (s.regWr who .pmc_sec_hold 0 0 (fun t => t.secHoldWrite data.toNat)))

/-- PMC_HOLD_LOG_READ (R14): the fields are returned and COUNT is cleared. -/
def execPmcHoldLogRead (who : Initiator) (s : State) : Host.Outcome State Fault Refusal :=
  .next (s.live (s.regRd who .pmc_hold_log 0 0 (fun t => t.reg64 PMC_HOLD_LOG)
    (fun t => t.readClear PMC_HOLD_LOG (RegFam.fields .pmc_hold_log))))

end Sys2Proof.Machine
end

