-- ==== Sys2Proof/Machine/SeatEvents.lean ====
section
/-! DEFINITION. Completion of descriptors, preemption and the switch of the issue path (02_tensor_core R41, R42, R64-R70). -/

namespace Sys2Proof.Machine

/-- DESCRIPTOR_COMPLETE (R64): entry `slot` of the Seat's descriptors in flight completes. -/
def execDescriptorComplete (seat : Fin 1024) (slot : Nat) (s : State) : Host.Outcome State Fault Refusal :=
  .next (s.live (s.completeDesc seat.val slot))

/-- R172, R173, R187: the CCC directs the issue path of core `m` to Seat `g`: it may issue, no other Seat that may ranks higher, and it outranks
the ISSUING Seat. -/
def State.mayTake (s : State) (m g : Nat) : Bool :=
  s.eligible g &&
    (match s.seatKey g with
    | none => false
    | some key =>
      (match s.bestSeat m with | some b => key ≤ b.2 | none => false)
        && (match s.issuingSeat m with
          | some k => (match s.seatKey k with | some b => key < b | none => true)
          | none => true))

/-- PREEMPTION_SIGNAL (R66, R69): a signal that names the READY or PARKED Seat to which the issue path is due makes it the incoming Seat, in place
of an earlier one; any other signal has no effect. -/
def execPreemptionSignal (core : Fin 128) (incoming : Fin 8) (s : State) : Host.Outcome State Fault Refusal :=
  let g := 8 * core.val + incoming.val
  .next (s.live (
    if s.mayTake core.val g then
      s.setCore core.val { s.core core.val with incoming := some g, outgoing := s.issuingSeat core.val }
    else s))

/-- A job that was PREEMPTED is RUNNING again once a Seat of it holds the issue path (R174). -/
def State.noteResumed (s : State) (g : Nat) : State :=
  match (s.seat g).job with
  | none => s
  | some r =>
    if r.quiz then s
    else
      match s.job? r.ref with
      | none => s
      | some j => if j.state = 3 then s.setJob r.ref { j with state := 2 } else s

/-- Give the issue path of core `m` to Seat `g`, whose paused work resumes (R41, R68). What another Seat left in the array is gone (R59, log
entry 77). -/
def State.giveIssue (s : State) (m g : Nat) : State :=
  let s1 := s.setCore m { s.core m with incoming := none, outgoing := none }
  let s2 := s1.each (((List.range 8).map (8 * m + ·)).filter (· ≠ g)) (fun t k => t.setSeat k { t.seat k with lastC := none })
  let x := s2.seat g
  let s3 := s2.setSeat g { x with flight := x.flight.map (fun f => { f with paused := false }) }
  (s3.setSeatState g 3).noteResumed g

/-- The array drains; the outgoing Seat is then PARKED, or IDLE after END (R41, R66, R69). -/
def State.vacate (s : State) (m : Nat) : State :=
  let s1 := s.drainCore m
  if !s1.drained m then s1
  else
    match s1.issuingSeat m with
    | none => s1
    | some k => s1.parkSeat k

/-- SEAT_SWITCH_END (R66): the drain and the 64-cycle switch of a core have ended. A Seat that may no longer issue is not given the path (R187, R188);
the CCC then directs it anew. -/
def execSeatSwitchEnd (core : Fin 128) (s : State) : Host.Outcome State Fault Refusal :=
  let m := core.val
  let c := s.core m
  .next (s.live (
    match c.incoming with
    | none => s
    | some _ =>
      if s.dieHalted (m / 8) || c.drill || (match s.issuingSeat m with | some k => s.endPending k | none => false) then s
      else
        let s1 := s.vacate m
        if !s1.drained m then s1
        else
          match (s1.core m).incoming with
          | some g => if s1.eligible g then (s1.giveIssue m g).arbitrate m
                      else (s1.setCore m { s1.core m with incoming := none, outgoing := none }).arbitrate m
          | none => s1))

end Sys2Proof.Machine
end

