-- ==== Sys2Proof/Machine/Budget.lean ====
section
/-! DEFINITION. The budget record and the Registrar's steps against it, and the safety timetable (07_scheduling R185-R188;
17_power_clocks_reset R387, R388). -/

namespace Sys2Proof.Machine

/-! ### The budget record (R387, R388) -/

/-- ENERGY_UJ (R388): `otherW` is the power of every rail but the tensor rails. -/
def State.energyAllowed (s : State) (otherW : Nat) : Nat :=
  let excess := hottest s.pwr.temps - ((s.rd PMC_LIMIT_PKG.TJ_CLAMP_C : Int) - 10)
  let allow : Int := (s.rd PMC_LIMIT_PKG.P_SUST_W : Int) - 10 * max 0 excess
  min ((allow - otherW) * 1000).toNat (2 ^ 32 - 1)

/-- TJ of a cluster: signed, saturating at -128 and 127. -/
def tjByte (t : Int) : Byte := BitVec.ofInt 8 (max (-128) (min 127 t))

/-- The 64 bytes of the record (R387). -/
def State.budgetBytes (s : State) (otherW pkgW : Nat) : List Byte :=
  leBytes 4 (s.reg64 (PMC_BUDGET 0) + 1) ++ leBytes 4 (s.energyAllowed otherW)
    ++ leBytes 8 (s.clock.now - s.clock.now % 1000000) ++ (List.range 16).map (fun n => tjByte (s.clusterTemp n))
    ++ leBytes 1 (s.ceil 0) ++ leBytes 1 (s.ceil 1) ++ leBytes 1 (s.rd (PMC_OPP_CD.CUR 0)) ++ leBytes 1 (s.rd (PMC_OPP_CD.CUR 1))
    ++ leBytes 2 (min pkgW 65535) ++ leBytes 2 0 ++ energyFactors.flatMap (leBytes 2) ++ leBytes 14 0

/-- The PMC's side of a period boundary: limits that did not act in the period end, dies whose CCCs run may be raised (R385, R394), and
the record is published. -/
def State.publish (s : State) (otherW pkgW : Nat) : State :=
  let s1 := [0, 1].foldl (fun (t : State) d =>
    let x := t.die d
    t.setDie d { x with
      govCeil := if t.pwr.acted then x.govCeil else 4
      allowed := x.allowed || t.cdAvail d }) s
  let s2 := { s1 with pwr := { s1.pwr with acted := false, actedLast := s1.pwr.acted } }
  let bs := s2.budgetBytes otherW pkgW
  (List.range 8).foldl (fun (t : State) k => t.setReg64 (PMC_BUDGET k) (leAt bs (8 * k) 8)) s2

/-! ### The projection (R185) -/

/-- The highest point that a die of the clusters is at or moves to. -/
def State.pointOf (s : State) (clusters : List Nat) : Nat :=
  clusters.foldl (fun m n => max m (s.rd (PMC_OPP_CD.TARGET (dieOf n)))) 0

/-- ENERGY_UJ x factor of a Lesson on clusters, in 1/1,024 uJ. -/
def State.lessonEnergy (s : State) (k : Nat) (clusters : List Nat) : Nat :=
  match s.lesson? k with
  | none => 0
  | some l => imEnergy l.image * energyFactors.getD (s.pointOf clusters) 0

/-- What a job adds to the projection: it is seated, or QUEUED with its deadline in the period from `t0`; a fallback run counts as a
job. -/
def State.jobEnergy (s : State) (t0 : Nat) (j : Job) : Nat :=
  let on := fun (l : List (Nat × Nat)) => l.map (fun p => clusterOf p.1)
  let fb := match j.fb with | some f => s.lessonEnergy f.lesson (on f.seats) | none => 0
  if j.state = 0 then
    if j.deadlineEn && t0 ≤ j.deadline && j.deadline < t0 + 1000000 then
      s.lessonEnergy j.lesson (match s.lesson? j.lesson with | some l => l.clusters | none => [])
    else 0
  else if j.state ≤ 3 then (if j.origStopped || j.seats.isEmpty then fb else fb + s.lessonEnergy j.lesson (on j.seats))
  else 0

/-- The projection exceeds the budget. -/
def State.overBudget (s : State) (t0 energy : Nat) : Bool :=
  decide (energy * 1024 < (s.jobs.map (fun p => s.jobEnergy t0 p.2)).sum)

/-! ### The steps (R185) -/

/-- Step 1: the clusters coolest first, the lower number on a tie. -/
def State.coolest (s : State) : List Nat :=
  (List.range 16).foldl (fun (l : List Nat) n =>
    l.takeWhile (fun m => s.clusterTemp m ≤ s.clusterTemp n) ++ n :: l.dropWhile (fun m => s.clusterTemp m ≤ s.clusterTemp n)) []

/-- Step 2 for one job: it is taken in as its resident fallback Lesson, with FALLBACK and DEGRADED. NO_FALLBACK, of the Bell's choice only, does not
keep a job from it; a step job is seated in its home group only (R169). -/
def State.substitute (s : State) (t : Nat) : State :=
  match s.job? t with
  | none => s
  | some j =>
    match s.lesson? j.lesson with
    | none => s
    | some l =>
      let k := lessonKey j.slice (imFallback l.image)
      match s.lesson? k with
      | none => s
      | some f =>
        if j.state ≠ 0 || !l.degradable || j.home.isSome || f.releasing || imFallback l.image = 0 then s
        else (s.setJob t { j with lesson := k, cls := f.cls, degraded := true }).quizYields k

/-- Step 2: job by job, until the projection fits. SAFETY (class 0) is never substituted. -/
def State.substituteAll (s : State) (t0 energy : Nat) : State :=
  let order := [4, 1, 3, 2].flatMap (fun c =>
    ((s.jobs.filter (fun p => p.2.cls = c && p.2.state = 0)).foldl (fun (l : List (Nat × Job)) p =>
      l.takeWhile (fun q => q.2.intake < p.2.intake) ++ p :: l.dropWhile (fun q => q.2.intake < p.2.intake)) []).map (·.1))
  order.foldl (fun (u : State) t => if u.overBudget t0 energy then u.substitute t else u) s

/-- A resident SAFETY Lesson has Seats on die `d`. -/
def State.safetyOn (s : State) (d : Nat) : Bool :=
  s.lessons.any (fun p => imSafety p.2.image && p.2.places.any (fun q => dieOf q.cluster = d))

/-- A safety window is open or has been asked for: step 3 waits, and what follows it (R187, R189 example). -/
def State.windowNear (s : State) : Bool := s.reg.windows.any (fun w => w.asked || w.soon || w.isOpen)

/-- Step 3: one point down on a die that holds no Seat of a resident SAFETY Lesson. -/
def State.budgetDie (s : State) (d t0 energy : Nat) : State :=
  let p := s.rd (PMC_OPP_CD.TARGET d)
  if s.overBudget t0 energy && !s.safetyOn d && (s.die d).powered && 0 < p then s.lowerTo d (p - 1) else s

/-- Step 4: intake of BEST_EFFORT records is held, and in a further short period that of DISPLAY records not yet armed. -/
def State.holdIntake (s : State) : State :=
  let r := s.reg
  { s with reg := { r with holdBest := true, holdDisplay := r.holdDisplay || r.holdBest } }

/-- The Registrar at a period boundary (R185). -/
def State.budgetSteps (s : State) (energy : Nat) : State :=
  let t0 := s.clock.now - s.clock.now % 1000000
  if !s.overBudget t0 energy then
    { s with reg := { s.reg with rotation := [], short := false, holdBest := false, holdDisplay := false } }
  else
    let s1 := { s with reg := { s.reg with rotation := s.coolest, short := true } }
    let s2 := s1.substituteAll t0 energy
    if s2.windowNear then s2
    else
      let s3 := (s2.budgetDie 0 t0 energy).budgetDie 1 t0 energy
      if s3.overBudget t0 energy then s3.holdIntake else s3

/-- BUDGET_RECORD (R185, R387). -/
def execBudgetRecord (otherW pkgW : Nat) (s : State) : Host.Outcome State Fault Refusal :=
  .next (s.live (
    if !s.pmcRunning then s
    else
      let s1 := s.publish otherW pkgW
      if s1.regRunning then s1.budgetSteps (s1.reg64 (PMC_BUDGET 0) / 2 ^ 32) else s1))

/-! ### The timetable (R186, R187) -/

/-- A window of a TIMETABLE_SET payload (R316), if its fields are in range and it fits in its period. -/
def windowOf (bs : List Byte) : Option Window :=
  let w : Window := ⟨leAt bs 0 2, leAt bs 4 4, leAt bs 8 4, leAt bs 12 2, leAt bs 14 1, leAt bs 15 1, false, false, false⟩
  if leAt bs 2 2 = 0 ∧ leAt bs 16 8 = 0 ∧ 1 ≤ w.periodMs ∧ w.periodMs ≤ 1000 ∧ w.offsetUs + w.lengthUs ≤ w.periodMs * 1000
      ∧ w.opp0 ≤ 4 ∧ w.opp1 ≤ 4 then some w else none

/-- The occurrences of a window that meet the span of `n` us from `a`, clipped to it. -/
def Window.occurs (w : Window) (a n : Nat) : List (Nat × Nat) :=
  let p := w.periodMs * 1000
  (List.range (n / p + 2)).filterMap (fun k =>
    let lo := (a / p + k) * p + w.offsetUs
    let hi := min (lo + w.lengthUs) (a + n)
    if lo < a + n ∧ lo < hi then some (max lo a, hi - max lo a) else none)

/-- Time in us that the windows cover of the span. -/
def coverage (ws : List Window) (a n : Nat) : Nat := ((unionRanges (ws.flatMap (fun w => w.occurs a n))).map (·.2)).sum

/-- On every cluster, the windows cover at most 80% of each period of each of them, over the time after which they repeat
together. -/
def coverageOk (ws : List Window) : Bool :=
  (List.range 16).all (fun c =>
    let on := ws.filter (fun w => bit w.mask c)
    let l := on.foldl (fun m w => Nat.lcm m (w.periodMs * 1000)) 1
    on.all (fun w =>
      let p := w.periodMs * 1000
      (List.range (l / p)).all (fun k => coverage on (k * p) p * 5 ≤ p * 4)))

/-- The windows of the payload; none where one is refused. -/
def windowsOf : Nat → List Byte → Option (List Window)
  | 0, _ => some []
  | n + 1, bs =>
    match windowOf (bs.take 24), windowsOf n (bs.drop 24) with
    | some w, some ws => some (w :: ws)
    | _, _ => none

/-- Every core arbitrates again. -/
def State.arbitrateAll (s : State) : State := s.each (List.range 128) State.arbitrate

/-- The timetable that waits replaces the old one once no window is open. -/
def State.swapWindows (s : State) : State :=
  match s.reg.nextWindows with
  | none => s
  | some ws =>
    if s.reg.windows.any (·.isOpen) then s
    else { s with reg := { s.reg with windows := ws, nextWindows := none } }.arbitrateAll

/-- TIMETABLE_SET (R186, R316). -/
def execTimetableSet (mb : Fin 68) (s : State) : Host.Outcome State Fault Refusal :=
  .next (s.live (s.serve mb.val 0x0030 (fun t _ bs =>
    match windowsOf (bs.length / 24) bs with
    | none => t.answer msBadarg
    | some ws =>
      if coverageOk ws then { t with reg := { t.reg with nextWindows := some ws } }.swapWindows.answer msOk
      else t.answer msBadarg)))

/-- Window `i` of the timetable, changed. -/
def State.setWindow (s : State) (i : Nat) (w : Window) : State := { s with reg := { s.reg with windows := s.reg.windows.set i w } }

/-- R187: every ISSUING Seat on the clusters of a mask that is neither SAFETY nor a Quiz run is parked. -/
def State.parkFor (s : State) (mask : Nat) : State :=
  s.each ((List.range 128).filter (fun m => bit mask (m / 8))) (fun u m =>
    let v := match u.issuingSeat m with
      | some g => if u.seatSafe g || u.endPending g then u else u.vacate m
      | none => u
    v.arbitrate m)

/-- Microseconds of Vehicle Time since the latest moment that equals the window's offset modulo its period (R186). -/
def State.windowPhase (s : State) (w : Window) : Nat :=
  let p := w.periodMs * 1000
  (s.clock.now / 1000 + p - w.offsetUs % p) % p

/-- WINDOW_OPP_REQUEST (R187): while the PMC is away the request is not served (R325). -/
def execWindowOppRequest (window : Fin 16) (s : State) : Host.Outcome State Fault Refusal :=
  .next (s.live (
    match s.reg.windows[window.val]? with
    | none => s
    | some w =>
      if !s.regRunning then s
      else
        let s1 := s.setWindow window.val { w with asked := true }
        let up := fun (t : State) (d p : Nat) => if bits w.mask (8 * d + 7) (8 * d) ≠ 0 then t.raiseTo d p else t
        up (up s1 0 w.opp0) 1 w.opp1))

/-- WINDOW_PARK (R187), 1 us before the window opens. -/
def execWindowPark (window : Fin 16) (s : State) : Host.Outcome State Fault Refusal :=
  .next (s.live (
    match s.reg.windows[window.val]? with
    | none => s
    | some w =>
      if s.windowPhase w + 1 = w.periodMs * 1000 then (s.setWindow window.val { w with soon := true }).parkFor w.mask else s))

/-- WINDOW_OPEN (R186, R187), when Vehicle Time equals the offset modulo the period. -/
def execWindowOpen (window : Fin 16) (s : State) : Host.Outcome State Fault Refusal :=
  .next (s.live (
    match s.reg.windows[window.val]? with
    | none => s
    | some w => if s.dueEvery (w.periodMs * 1000) w.offsetUs then (s.setWindow window.val { w with isOpen := true }).parkFor w.mask else s))

/-- WINDOW_CLOSE (R186, R187), once its length has passed: other work may use the clusters again, and a timetable that waits takes effect (R316). -/
def execWindowClose (window : Fin 16) (s : State) : Host.Outcome State Fault Refusal :=
  .next (s.live (
    match s.reg.windows[window.val]? with
    | none => s
    | some w =>
      if w.isOpen && w.lengthUs ≤ s.windowPhase w then
        (s.setWindow window.val { w with asked := false, soon := false, isOpen := false }).swapWindows.arbitrateAll
      else s))

end Sys2Proof.Machine
end

