-- ==== Sys2Proof/Machine/Wipes.lean ====
section
/-! DEFINITION. The watermarks and the wipes of the secure partitions (04_locker_slate R114-R117; 12_worlds_identity R289-R291, R298,
R302, R303). -/

namespace Sys2Proof.Machine

/-! ### Ends -/

/-- R297, R302, R295: what waited for both wipes: the debug enables (answered by `reply`), the lifecycle fuses and the reset, or the
failure of the Security Core. -/
def State.afterWipes (s : State) (reply : State → State) : State :=
  if s.sec.slateWipe.isSome || s.sec.dramWipe.isSome then s
  else
    match s.sec.pendingLife with
    | some r => { s with fuses := s.fuses.moved r.2 }.deviceReset 4
    | none =>
      let s1 := match s.sec.pendingDebug with
        | some m => reply ({ s with sec := { s.sec with pendingDebug := none } }.raiseDebug m)
        | none => s
      if s1.sec.pendingFail then
        let s2 := { s1 with sec := { s1.sec with pendingFail := false } }
        (s2.wr SEC_STATE.SC_STATE 3).restartNotice 0 (Table.get s2.sec.causes 0 0) true true
      else s1

/-! ### The registers -/

/-- A write to WMARK_SLATE (R114, R116): the range between the levels is wiped, then the new level applies. -/
def State.slateLevelWrite (s : State) (v : Nat) : State :=
  let n := bits v 8 0
  let old := s.rd WMARK_SLATE.LEVEL_64K
  if s.on WMARK_SLATE_CTRL.LOCK || 256 < n || (n = old && s.sec.slateLevel.isNone) then s
  else { s with sec := { s.sec with slateLevel := some n } }.wipeSlates (min n old * 0x10000) (max n old * 0x10000)

/-- A write to WMARK_SLATE_CTRL (R114, R115). -/
def State.slateCtrlWrite (s : State) (v : Nat) : State :=
  let s1 := if bit v 0 then s.wr WMARK_SLATE_CTRL.LOCK 1 else s
  if bit v 3 then (s1.wr WMARK_SLATE_CTRL.WIPE_REQ 1).wipeSlates 0 s1.slateLevel else s1

/-- A write to WMARK_DRAM (R289, R290): at most 8,192 and at most the fitted capacity. -/
def State.dramLevelWrite (s : State) (v : Nat) : State :=
  let n := bits v 13 0
  let old := s.rd WMARK_DRAM.LEVEL_1M
  if s.on WMARK_DRAM_CTRL.LOCK || 8192 < n || s.pins.fittedMiB < n || (n = old && s.sec.dramLevel.isNone) then s
  else { s with sec := { s.sec with dramLevel := some n } }.wipeDram (min n old * 0x100000) (max n old * 0x100000) false

/-- A write to WMARK_DRAM_CTRL (R289, R290). -/
def State.dramCtrlWrite (s : State) (v : Nat) : State :=
  let s1 := if bit v 0 then s.wr WMARK_DRAM_CTRL.LOCK 1 else s
  if bit v 3 then (s1.wr WMARK_DRAM_CTRL.WIPE_REQ 1).wipeDram 0 s1.dramLevel false else s1

/-! ### The commands -/

/-- WMARK_SLATE_LEVEL_WRITE (R116). -/
def execWmarkSlateLevelWrite (who : Initiator) (data : Word) (s : State) : Host.Outcome State Fault Refusal :=
  .next (s.live (s.regWr who .wmark_slate 0 0 (fun t => t.slateLevelWrite data.toNat)))

/-- SLATE_WIPE_REQ (R115). -/
def execSlateWipeReq (who : Initiator) (data : Word) (s : State) : Host.Outcome State Fault Refusal :=
  .next (s.live (s.regWr who .wmark_slate_ctrl 0 0 (fun t => t.slateCtrlWrite data.toNat)))

/-- SLATE_WMARK_LOCK (R114). -/
def execSlateWmarkLock (who : Initiator) (data : Word) (s : State) : Host.Outcome State Fault Refusal :=
  .next (s.live (s.regWr who .wmark_slate_ctrl 0 0 (fun t => t.slateCtrlWrite data.toNat)))

/-- WMARK_DRAM_LEVEL_WRITE (R290). -/
def execWmarkDramLevelWrite (who : Initiator) (data : Word) (s : State) : Host.Outcome State Fault Refusal :=
  .next (s.live (s.regWr who .wmark_dram 0 0 (fun t => t.dramLevelWrite data.toNat)))

/-- DRAM_WIPE_REQ (R290). -/
def execDramWipeReq (who : Initiator) (data : Word) (s : State) : Host.Outcome State Fault Refusal :=
  .next (s.live (s.regWr who .wmark_dram_ctrl 0 0 (fun t => t.dramCtrlWrite data.toNat)))

/-- DRAM_WMARK_LOCK (R289). -/
def execDramWmarkLock (who : Initiator) (data : Word) (s : State) : Host.Outcome State Fault Refusal :=
  .next (s.live (s.regWr who .wmark_dram_ctrl 0 0 (fun t => t.dramCtrlWrite data.toNat)))

/-- TAMPER_EVENT (R303): armed in every state; merged into a wipe that runs. -/
def execTamperEvent (kind : TamperKind) (s : State) : Host.Outcome State Fault Refusal :=
  .next (s.live ((s.raise (match kind with | .lid => srcTamperLid | .glitch => srcTamperGlitch)).wipeBoth))

end Sys2Proof.Machine
end

