-- ==== Sys2Proof/Machine/Secure.lean ====
section
/-! DEFINITION. The Security Core: its mailboxes and the monitor, its restart, debug certificates, identity, attestation and the
lifecycle (12_worlds_identity R284-R304). -/

namespace Sys2Proof.Machine

/-! ### SECMB (R284, R285) -/

/-- The owner of a channel. -/
def chanOwner (c : Nat) : Initiator :=
  if c < 24 then ⟨.apc, c, 0⟩
  else if c = 24 then registrar
  else if c = 25 then pmcFw
  else if c = 26 then proctor
  else if c = 27 then ⟨.pair, 0, 0⟩
  else ⟨.debug, 0, 0⟩

/-- A reply is on the channel: DONE, STATUS, and BUSY clear. -/
def State.chanDone (s : State) (c status : Nat) : State :=
  ((s.wr (SECMB_CH_RSP.BUSY c) 0).wr (SECMB_CH_RSP.DONE c) 1).wr (SECMB_CH_RSP.STATUS c) status

/-- The channel that is served next: the next that holds a request, in round robin after channel `c`. -/
def State.serveNext (s : State) (c : Nat) : State :=
  let next := ((List.range 32).map (fun k => (c + 1 + k) % 32)).find? (fun k => (Table.find s.sec.chans k).isSome)
  { s with sec := { s.sec with serving := next } }

/-- The channel's request is over: it no longer counts as taken, and a monitor call on it returns. -/
def State.chanClose (s : State) (c : Nat) : State :=
  let s1 := { s with sec := { s.sec with chans := Table.del s.sec.chans c, calls := Table.del s.sec.calls c } }
  if s1.sec.serving = some c then s1.serveNext c else s1

/-- R285, R312: the reply payload and header are written through the owner's checks; where the buffer cannot be written, the status
is MS_BADARG. The answer is the status that stands in the header. -/
def State.writeReply (s : State) (who : Ctx) (q : SecReq) (status arg : Nat) (payload : List Byte) : State × Nat :=
  let p := if payload.isEmpty then (s, true) else s.ctxWrite who (hAddr q.header) payload
  if p.2 then ((p.1.ctxWrite who q.addr (replyHeader q.header status payload.length arg)).1, status)
  else ((p.1.ctxWrite who q.addr (replyHeader q.header msBadarg 0 0)).1, msBadarg)

/-- R286: the monitor call of core `c` returns `status` in a0. -/
def State.callReturns (s : State) (c status : Nat) : State :=
  { s with sec := { s.sec with calls := Table.del s.sec.calls c, a0 := Table.put s.sec.a0 c status } }

/-- The Security Core writes the reply of channel `c` into its header. In a monitor call that header is the monitor's copy: the monitor, which has
left the secure world by then, copies the reply to the caller and returns its status; the copy of a call that has timed out reaches nobody
(R286). -/
def State.chanReply (s : State) (c status arg : Nat) (payload : List Byte) : State :=
  match Table.find s.sec.chans c with
  | none => s
  | some q =>
    let s1 := s.chanClose c
    if !q.call then
      let p := s1.writeReply (s.ctx (chanOwner c)) q status arg payload
      p.1.chanDone c p.2
    else if (Table.find s.sec.calls c).isSome then
      let p := s1.writeReply (s1.ctx (chanOwner c)) q status arg payload
      (p.1.chanDone c status).callReturns c p.2
    else s1.chanDone c status

/-- R285, R312: header and payload of a request at `addr`, read through the checks of `who`; `none` for what gets an error response. -/
def State.readRequest (s : State) (who : Ctx) (addr : Nat) : State × Option (List Byte) × Option (List Byte) :=
  let p := s.ctxRead who addr 32
  match p.2 with
  | none => (p.1, none, none)
  | some h =>
    if hLen h = 0 then (p.1, some h, some [])
    else
      let q := p.1.ctxRead who (hAddr h) (hLen h)
      (q.1, some h, q.2)

/-- The read of a request at `addr` must wait for its memory. -/
def State.requestWaits (s : State) (who : Ctx) (addr : Nat) : Bool :=
  s.ctxWaits who addr 32 false ||
    (match (s.ctxRead who addr 32).2 with
     | some h => hLen h ≠ 0 && s.ctxWaits who (hAddr h) (hLen h) false
     | none => false)

/-- A request waits on channel `c`. -/
def State.chanTake (s : State) (c : Nat) (q : SecReq) : State :=
  let s1 := s.wr (SECMB_CH_RSP.BUSY c) 1
  { s1 with sec := { s1.sec with
      chans := Table.put s1.sec.chans c q
      serving := match s1.sec.serving with | some k => some k | none => some c } }

/-- A GO of `who` on channel `c` (R285, R294, R295, R312): the header and the payload are read through the checks; where a read gets an error
response, the reply is MS_BADARG, in the header where that could be read. -/
def State.chanSubmit (s : State) (c : Nat) (who : Ctx) (addr : Nat) : State :=
  let p := s.readRequest who addr
  let now := fun (t : State) (h : List Byte) (status : Nat) =>
    let u := t.writeReply who ⟨addr, h, [], false⟩ status 0 []
    u.1.chanDone c u.2
  match p.2.1, p.2.2, s.secAway with
  | none, _, some st => p.1.chanDone c st
  | none, _, none => p.1.chanDone c msBadarg
  | some h, _, some st => now p.1 h st
  | some h, none, none => now p.1 h msBadarg
  | some h, some d, none => p.1.chanTake c ⟨addr, h, d, false⟩

/-- A write to SECMB_CHc_REQ (R285): a GO while BUSY leaves the channel unchanged; one whose request cannot be read yet waits. -/
def State.secmbReqWrite (s : State) (who : Initiator) (c v : Nat) : State :=
  let addr := bits v 47 5 * 32
  if !bit v 63 then s.wr (SECMB_CH_REQ.ADDR c) addr
  else if s.on (SECMB_CH_RSP.BUSY c) || s.requestWaits (s.ctx who) addr then s
  else (s.wr (SECMB_CH_REQ.ADDR c) addr).chanSubmit c (s.ctx who) addr

/-- SECMB_REQUEST (R285). -/
def execSecmbRequest (who : Initiator) (ch : Fin 32) (data : Word) (s : State) : Host.Outcome State Fault Refusal :=
  .next (s.live (s.regWr who .secmb_ch_req ch.val 0 (fun t => t.secmbReqWrite who ch.val data.toNat)))

/-- R347: the partner has authenticated once the Security Core answers its request on channel 27 with MS_OK (log entry 31). -/
def State.pairAnswered (s : State) (c status : Nat) : State :=
  if c = 27 && status = msOk && s.boot.strapEn && s.pair.trained then
    let t := { s with sec := { s.sec with pairAuth := true } }
    t.noteService
  else s

/-- SECMB_REPLY (R285): the Security Core answers the channel that it serves. -/
def execSecmbReply (ch : Fin 32) (status : BitVec 16) (arg : Word) (payload : List Byte) (s : State) :
    Host.Outcome State Fault Refusal :=
  .next (s.live (
    if s.scRunning && s.sec.serving = some ch.val then
      (s.chanReply ch.val status.toNat arg.toNat payload).pairAnswered ch.val status.toNat
    else s))

/-! ### The monitor (R286) -/

/-- Steps 3 and 4 of a monitor call of core `c` with a request read as `h` and `d` (R286): it goes on channel `c`, where ADDR holds the place of the
monitor's copy, which is its own affair: a free value. What is answered at once returns at once. -/
def State.callSubmit (s : State) (c addr : Nat) (h d : List Byte) : State :=
  let n := s.draw
  let s1 := ((n.2.wr (SECMB_CH_REQ.ADDR c) (bits (Config.freeWord n.1).toNat 47 5 * 32)).wr (SECMB_CH_RSP.DONE c) 0).chanTake c ⟨addr, h, d, true⟩
  match s.secAway with
  | some st => s1.chanReply c st 0 []
  | none => s1

/-- MONITOR_CALL (R286): the core enters the secure world, copies the caller's header and payload, and submits them on its channel; a caller's
buffer that cannot be read returns MS_BADARG (log entry 81). While an earlier request of the channel is still BUSY, the call waits for its DONE. -/
def execMonitorCall (core : Fin 24) (header : PAddr) (s : State) : Host.Outcome State Fault Refusal :=
  let c := core.val
  let who := s.ctx ⟨.apc, c, 0⟩
  .next (s.live (
    if !s.boot.apcOut || s.worldTag c || !s.unitOn (2 + c / 8) || s.requestWaits who header.toNat then s
    else
      let p := s.readRequest who header.toNat
      let s1 := { p.1 with sec := { p.1.sec with calls := Table.put p.1.sec.calls c s.clock.up } }
      match p.2.1, p.2.2 with
      | none, _ => s1.callReturns c msBadarg
      | some h, none => (s1.writeReply who ⟨header.toNat, h, [], true⟩ msBadarg 0 []).1.callReturns c msBadarg
      | some h, some d =>
        if s1.on (SECMB_CH_RSP.BUSY c) then
          { s1 with sec := { s1.sec with chans := s1.sec.chans.map (fun (q : Nat × SecReq) =>
              if q.1 = c then (c, { q.2 with addr := header.toNat }) else q) } }
        else s1.callSubmit c header.toNat h d))

/-- MONITOR_TIMEOUT (R286), 60 ms after the call: the monitor returns MS_TIMEOUT in a0; the channel keeps its request. -/
def execMonitorTimeout (core : Fin 24) (s : State) : Host.Outcome State Fault Refusal :=
  let c := core.val
  .next (s.live (
    match Table.find s.sec.calls c with
    | none => s
    | some t => if s.passed t 60000000 then s.callReturns c msTimeout else s))

/-! ### Ends of wipes -/

/-- The debug certificate on channel 28 is accepted. -/
def State.certReply (s : State) : State := s.chanReply 28 msOk 0 []

/-- SLATE_WIPE_END (R115). -/
def execSlateWipeEnd (nonZero : List (Fin 16)) (s : State) : Host.Outcome State Fault Refusal :=
  .next (s.live (
    if s.sec.slateWipe.isSome then (s.slateWiped (nonZero.map (·.val))).afterWipes State.certReply else s))

/-- DRAM_WIPE_END (R290): LPDDR5X that is not trained cannot be wiped. -/
def execDramWipeEnd (nonZero : Bool) (s : State) : Host.Outcome State Fault Refusal :=
  .next (s.live (
    if s.sec.dramWipe.isSome && s.boot.dramTrained then (s.dramWiped nonZero).afterWipes State.certReply else s))

/-! ### Restart of the Security Core (R294-R296) -/

/-- Requests that server `k` (the top byte of the opcode) has taken and not answered are answered by the MLMB block (R322). -/
def State.answerTaken (s : State) (k status : Nat) : State :=
  s.each (List.range 68) (fun u i => u.answerMb i k status)

/-- R326: an event with the given cause belongs to the restart of processor `proc` that the other kind of event began in the same cycle, one of the
TIME clock (log entry 82). -/
def State.sameCycle (s : State) (proc cause : Nat) : Bool :=
  Table.find s.sec.began proc = some s.clock.up && Table.find s.sec.causes proc = some (1 - cause)

/-- The second event of that cycle: one restart, both sources raised. Any later event begins the restart again. -/
def State.joinRestart (s : State) (proc src : Nat) : State :=
  { s with sec := { s.sec with began := Table.del s.sec.began proc } }.raise src

/-- The restart of processor `proc` begins, and its cause is kept for the notice at its end. -/
def State.noteBegan (s : State) (proc cause : Nat) : State :=
  { s with sec := { s.sec with causes := Table.put s.sec.causes proc cause, began := Table.put s.sec.began proc s.clock.up } }

/-- R322: a LIFECYCLE_SET that waits for its wipes is answered MS_RESTARTING, and nothing of the transition is left (log entry 82). -/
def State.dropLife (s : State) : State :=
  match s.sec.pendingLife with
  | none => s
  | some r =>
    let h := s.sec.lifeHeader
    { s with sec := { s.sec with pendingLife := none, lifeHeader := [] }, fuses := { s.fuses with transition := none } }.sendReply r.1
      (replyHeader h msRestarting 0 0)

/-- R294: the Security Core alone is reset, while its boot ROM runs too. Requests on the channels and monitor calls are answered; wipes run on. Every
restart is counted, and a failure during one begins it again (R326). -/
def State.secRestart (s : State) (src cause : Nat) : State :=
  let st := s.rd SEC_STATE.SC_STATE
  if st = 3 || s.boot.scFailed then s
  else if st = 2 && s.sameCycle 0 cause then s.joinRestart 0 src
  else
    let s1 := (((s.raise src).wr SEC_STATE.SC_STATE 2).wr SEC_STATE.SEALED 1).satAdd SEC_STATE.RESTARTS 1
    let s1 := s1.dropLife
    let s2 := s1.each (List.range 32) (fun u c => if (Table.find u.sec.chans c).isSome then u.chanReply c msRestarting 0 [] else u)
    let s3 := s2.each (s2.sec.calls.map (·.1)) (fun u c => u.callReturns c msRestarting)
    let s4 := { s3 with sec := { s3.sec with pendingDebug := none } }.noteBegan 0 cause
    (s4.answerTaken 2 msRestarting).restartNotice 0 cause false false

/-- SEC_WDT_EXPIRY (R294, R326). -/
def execSecWdtExpiry (s : State) : Host.Outcome State Fault Refusal := .next (s.live (s.secRestart srcSecWdt 0))

/-- SEC_LOCKSTEP (R294, R326). -/
def execSecLockstep (s : State) : Host.Outcome State Fault Refusal := .next (s.live (s.secRestart srcSecLockstep 1))

/-- SEC_RESTART_END (R295). While no first boot has been recorded, there is nothing to compare with: the boot ROM goes on with the first load
(log entry 82). -/
def execSecRestartEnd (imageOk : Bool) (digest : BitVec 384) (s : State) : Host.Outcome State Fault Refusal :=
  .next (s.live (
    if s.rd SEC_STATE.SC_STATE ≠ 2 || s.sec.pendingFail then s
    else if imageOk && s.boot.firstSecDigest.isNone then
      (s.wr SEC_STATE.SC_STATE 0).restartNotice 0 (Table.get s.sec.causes 0 0) true false
    else if imageOk && s.boot.firstSecDigest = some digest then
      (((s.wr SEC_STATE.SEALED 0).wr SEC_STATE.SC_STATE 1).restartNotice 0 (Table.get s.sec.causes 0 0) true false).noteService
    else
      let s1 := (s.assertSrc srcSecRemeasure).wipeBoth
      { s1 with sec := { s1.sec with pendingFail := true } }))

/-! ### Debug certificates (R297, R298, R301) -/

/-- An owner root in force. -/
def State.ownerRoot (s : State) (r : SigRoot) : Bool :=
  match r with
  | .owner k => bit s.fuses.ownersFused k.val && !bit s.fuses.ownersRevoked k.val
  | _ => false

/-- DEBUG_CERTIFICATE (R297, R298, R301): a certificate that fails verification, names another device or asks for too much raises DEBUG_AUTH_FAIL in
every state; a good one that the state has no use for is refused without it. `grants` has bit 0 DBG_NS_NONINV, 1 DBG_NS_INV, 2 DBG_S_NONINV, 3 DBG_S_INV. -/
def execDebugCertificate (verified namesDevice : Bool) (root : SigRoot) (grants : BitVec 4) (s : State) :
    Host.Outcome State Fault Refusal :=
  let g := grants.toNat
  let life := s.fuses.lifecycle
  .next (s.live (
    if !s.scRunning || s.sec.serving ≠ some 28 || s.sec.pendingDebug.isSome then s
    else if !verified || !namesDevice || (life ≠ 0 && life ≠ 3 && !s.ownerRoot root) || (life = 2 && 4 ≤ g) then
      (s.raise srcDebugAuthFail).chanReply 28 msDenied 0 []
    else if life = 0 ∨ life = 3 then s.chanReply 28 msDenied 0 []
    else if 4 ≤ g then
      let s1 := s.wipeBoth
      { s1 with sec := { s1.sec with pendingDebug := some g } }
    else (s.raiseDebug g).certReply))

/-! ### Identity and attestation (R300, R304) -/

/-- The certificate chain of this reset (R300): its length, and its byte at an offset; the encoding of the certificates is not given. -/
def State.chainLength (s : State) : Nat :=
  (Config.chainLen (s.fuses.secrets.getD 0 0) (Table.get s.boot.cdi 0 0) (s.boot.measure.getD 0 0) s.boot.aliasCert).toNat
def State.chainAt (s : State) (i : Nat) : Byte :=
  Config.chainByte (s.fuses.secrets.getD 0 0) (Table.get s.boot.cdi 0 0) (s.boot.measure.getD 0 0) s.boot.aliasCert i

/-- CERT_CHAIN (R300, R316): up to 4,096 bytes of the chain from the offset. -/
def execCertChain (mb : Fin 68) (s : State) : Host.Outcome State Fault Refusal :=
  .next (s.live (s.serve mb.val 0x0200 (fun t r _ =>
    let off := hArg r.header
    let n := t.chainLength
    ⟨t, msOk, n, (List.range (min 4096 (n - off))).map (fun i => t.chainAt (off + i)), false⟩)))

/-- The resident Lessons of a slice in the order of load. -/
def State.lessonsByLoad (s : State) (i : Nat) : List Lesson :=
  ((s.lessons.filter (fun p => p.2.slice = i)).map (·.2)).foldl (fun (l : List Lesson) x =>
    l.takeWhile (fun y => y.order < x.order) ++ x :: l.dropWhile (fun y => y.order < x.order)) []

/-- One Lesson entry of the report. -/
def lessonEntry (l : Lesson) : List Byte :=
  leBytes 8 l.id ++ l.digest ++ leBytes 1 (imFlags l.image % 8) ++ leBytes 1 l.cls ++ leBytes 1 (imStages l.image)
    ++ leBytes 1 (b2n l.degradable + 2 * b2n l.quizFailed) ++ leBytes 4 0

/-- The nonce field: zero-padded, its length in byte 0x3F. -/
def nonceField (n : List Byte) : List Byte :=
  ((n ++ List.replicate 64 0#8).take 63) ++ [BitVec.ofNat 8 n.length]

/-- The bytes that the signature covers (R304). -/
def State.reportBody (s : State) (i first : Nat) (nonce : List Byte) : List Byte :=
  let all := s.lessonsByLoad i
  let part := (all.drop first).take 52
  let dbg := b2n (s.on SEC_STATE.DBG_NS_NONINV) + 2 * b2n (s.on SEC_STATE.DBG_NS_INV) + 4 * b2n (s.on SEC_STATE.DBG_S_NONINV)
    + 8 * b2n (s.on SEC_STATE.DBG_S_INV)
  nonceField nonce ++ (List.range 48).map (Config.deviceIdByte (s.fuses.secrets.getD 0 0))
    ++ (List.range 5).flatMap (fun k => ((leBytes 48 (s.boot.measure.getD k 0).toNat)))
    ++ leBytes 1 (s.rd SEC_STATE.LIFECYCLE) ++ leBytes 1 dbg ++ leBytes 1 (s.rd CFG_IDENT.STEPPING) ++ leBytes 1 0
    ++ leBytes 2 (s.rd WMARK_DRAM.LEVEL_1M) ++ leBytes 2 (s.rd WMARK_SLATE.LEVEL_64K) ++ leBytes 1 i
    ++ leBytes 1 (b2n (s.slice i).strict) ++ leBytes 2 (s.rd SEC_STATE.RESTARTS) ++ leBytes 2 part.length ++ leBytes 2 all.length
    ++ part.flatMap lessonEntry

/-- ATTEST (R304). -/
def execAttest (mb : Fin 68) (s : State) : Host.Outcome State Fault Refusal :=
  .next (s.live (s.serve mb.val 0x0201 (fun t r bs =>
    let body := t.reportBody (hSlice r.header) (hArg r.header) bs
    let n := t.draw
    ⟨n.2, msOk, 0, body ++ (List.range 96).map (Config.aliasSign (Table.get t.boot.cdi 0 0) body n.1), false⟩)))

/-! ### Lifecycle (R301, R302) -/

/-- The token is signed by an owner root that is fused and not revoked (R301, R302). -/
def State.tokenOwner (s : State) (k : LifecycleToken) : Bool :=
  match k.byOwner with
  | some o => s.ownerRoot (.owner o)
  | none => false

/-- The transition that a token asks for exists, and the token is signed as it must be. -/
def State.tokenOk (s : State) (k : LifecycleToken) : Bool :=
  k.namesDevice && (match s.fuses.lifecycle, k.target.val with
    | 0, 1 => k.byViforik
    | 1, 2 => s.tokenOwner k
    | 2, 3 => k.byViforik && s.tokenOwner k
    | 1, 4 => s.tokenOwner k
    | 2, 4 => s.tokenOwner k
    | 0, 4 => k.byViforik
    | 3, 4 => k.byViforik
    | _, _ => false)

/-- LIFECYCLE_SET (R302): both secure partitions are wiped; the fuses and the reset follow when the wipes have ended. The request
is not answered then, since the device is reset. -/
def execLifecycleSet (mb : Fin 68) (token : LifecycleToken) (s : State) : Host.Outcome State Fault Refusal :=
  .next (s.live (s.serve mb.val 0x0202 (fun t r _ =>
    if t.sec.pendingLife.isSome || !t.tokenOk token then t.answer msDenied
    else
      let t1 := { t with fuses := { t.fuses with transition := some token.target.val } }.wipeBoth
      ⟨{ t1 with sec := { t1.sec with pendingLife := some (mb.val, token.target.val), lifeHeader := r.header } }, msOk, 0, [], true⟩)))

/-- DEV_ROOT_ADD (R301): in DEVELOP, until reset. -/
def execDevRootAdd (mb : Fin 68) (certOk : Bool) (s : State) : Host.Outcome State Fault Refusal :=
  .next (s.live (s.serve mb.val 0x0203 (fun t _ _ =>
    if t.fuses.lifecycle ≠ 1 then t.answer msDenied
    else if !certOk then t.answer msBadarg
    else { t with boot := { t.boot with devRoots := t.boot.devRoots + 1 } }.answer msOk)))

end Sys2Proof.Machine
end

