-- ==== Sys2Proof/Machine/Slices.lean ====
section
/-! DEFINITION. Slices: configuration, attaching, reset and detach, grace, strict quotas (14_slices R327-R335). -/

namespace Sys2Proof.Machine

/-! ### SLICE_CONFIG (R327, R329) -/

/-- Entry of cluster `n` in the payload: SEAT_MASK, SLATE_BASE_64K, SLATE_SIZE_64K. -/
def cfgMask (bs : List Byte) (n : Nat) : Nat := leAt bs (0x30 + 16 * n) 8
def cfgSlateBase (bs : List Byte) (n : Nat) : Nat := leAt bs (0x38 + 16 * n) 2
def cfgSlateSize (bs : List Byte) (n : Nat) : Nat := leAt bs (0x3A + 16 * n) 2

/-- A value, or its default where it is zero. -/
def orDefault (v d : Nat) : Nat := if v = 0 then d else v

/-- The slice that the payload describes. -/
def sliceOfPayload (bs : List Byte) : Slice :=
  { Slice.zero with
    kind := leAt bs 0 1, function := leAt bs 2 2, ident := leAt bs 4 4, strict := bit (leAt bs 8 4) 0
    heartbeatMs := orDefault (leAt bs 0x0C 2) 100, graceS := orDefault (leAt bs 0x0E 2) 5
    dramBase := leAt bs 0x10 4, dramSize := leAt bs 0x14 4, tags := leAt bs 0x18 2, workQueues := leAt bs 0x1A 2
    roster := leAt bs 0x1C 2, drainMs := orDefault (leAt bs 0x1E 2) 2, dramQuota := leAt bs 0x20 4, linkQuota := leAt bs 0x24 4
    slateBase := (List.range 16).map (cfgSlateBase bs), slateSize := (List.range 16).map (cfgSlateSize bs)
    seatMask := (List.range 16).map (cfgMask bs) }

/-- Every field is in its range, and reserved bits are zero. -/
def sliceFieldsOk (bs : List Byte) (x : Slice) : Bool :=
  leAt bs 1 1 = 0 && (x.kind = 0 || x.function = 0) && x.function < 4096 && x.ident < 2 ^ 20 && leAt bs 8 4 < 2
    && 10 ≤ x.heartbeatMs && x.heartbeatMs ≤ 10000 && 1 ≤ x.graceS && x.graceS ≤ 60 && 1 ≤ x.tags && x.tags ≤ 1024
    && x.workQueues ≤ 32768 && x.roster ≤ 8192 && 1 ≤ x.drainMs && x.drainMs ≤ 100 && leAt bs 0x28 8 = 0
    && (List.range 16).all (fun n => leAt bs (0x3C + 16 * n) 4 = 0)

/-- The other configured slices. -/
def State.otherSlices (s : State) (i : Nat) : List (Nat × Slice) := s.slices.filter (fun p => p.1 ≠ i && p.2.kind ≠ 2)

/-- The identity is bound to another slice. -/
def State.identTaken (s : State) (i : Nat) (x : Slice) : Bool :=
  (s.otherSlices i).any (fun p => p.2.kind = x.kind && p.2.ident = x.ident && (x.kind = 1 || p.2.function = x.function))

/-- The Seats that the slices of a list own in core `m`, as a mask. -/
def coreMask (x : Slice) (m : Nat) : Nat := bits (x.seatMask.getD (m / 8) 0) (8 * (m % 8) + 7) (8 * (m % 8))

/-- R329: a Seat is owned by another slice or is not EMPTY, or a core would mix a strict slice with another. -/
def State.seatsClash (s : State) (i : Nat) (x : Slice) : Bool :=
  x.seats.any (fun g => s.seatState g ≠ 0 || (s.otherSlices i).any (fun p => p.2.seats.contains g))
    || (List.range 128).any (fun m => coreMask x m ≠ 0 && (s.otherSlices i).any (fun p =>
        coreMask p.2 m ≠ 0 && (x.strict || p.2.strict)))

/-- R329: a Slate share lies below the secure partition, over bin memory in use, over another slice's share, or past the Slate. -/
def State.slateClash (s : State) (i : Nat) (x : Slice) : Bool :=
  (List.range 16).any (fun n =>
    let b := x.slateBase.getD n 0
    let z := x.slateSize.getD n 0
    0 < z && (b < s.rd WMARK_SLATE.LEVEL_64K || 512 < b + z
      || (n = 0 && s.on DISP_RAST_CTRL.ENABLE && overlaps b z 384 128)
      || (s.otherSlices i).any (fun p => overlaps b z (p.2.slateBase.getD n 0) (p.2.slateSize.getD n 0))))

/-- R329: the LPDDR5X range lies below the secure partition, beyond the fitted capacity, or over another slice's. -/
def State.dramClash (s : State) (i : Nat) (x : Slice) : Bool :=
  0 < x.dramSize && (x.dramBase < s.rd WMARK_DRAM.LEVEL_1M || min s.pins.fittedMiB 65536 < x.dramBase + x.dramSize
    || (s.otherSlices i).any (fun p => overlaps x.dramBase x.dramSize p.2.dramBase p.2.dramSize))

/-- R329: the sums over all slices fit. -/
def State.quotasFit (s : State) (i : Nat) (x : Slice) : Bool :=
  let all := x :: (s.otherSlices i).map (·.2)
  let strict := all.filter (·.strict)
  (all.map (·.tags)).sum ≤ 1024 && (all.map (·.workQueues)).sum ≤ 32768 && (all.map (·.roster)).sum ≤ 8192
    && (strict.map (·.dramQuota)).sum ≤ 245000 && (strict.map (·.linkQuota)).sum ≤ 800000

/-- The slice is configured: its Seats are written, and those that it no longer names are given back. -/
def State.configure (s : State) (i : Nat) (x : Slice) : State :=
  let old := (s.slice i).seats
  let s1 := s.each (old.filter (fun g => !x.seats.contains g)) (fun u g => u.ownSeat g none)
  (s1.each x.seats (fun u g => u.ownSeat g (some i))).setSlice i x

/-- The slice holds something that keeps it from being configured (R327, R335). -/
def State.sliceBusy (s : State) (i : Nat) : Bool :=
  s.lessons.any (fun p => p.2.slice = i) || !(s.sliceJobs i).isEmpty || s.roster.any (fun p => p.2.slice = i)
    || (s.slice i).phase ≠ 0 || (s.slice i).running || (match s.reg.loading with | some d => d.lesson.slice = i | none => false)

/-- SLICE_CONFIG. -/
def State.sliceConfigRun (s : State) (i : Nat) (bs : List Byte) : Answer :=
  let x := sliceOfPayload bs
  if s.sliceBusy i then s.answer msBusy
  else if 2 < x.kind then s.answer msBadarg
  else if x.kind = 2 then (s.configure i Slice.zero).answer msOk
  else if !sliceFieldsOk bs x || s.identTaken i x || s.seatsClash i x || s.slateClash i x || s.dramClash i x then s.answer msBadarg
  else if !s.quotasFit i x then s.answer msNofit
  else (s.configure i x).answer msOk

/-- SLICE_CONFIG (R327, R329). -/
def execSliceConfig (mb : Fin 68) (s : State) : Host.Outcome State Fault Refusal :=
  .next (s.live (s.serve mb.val 0x0006 (fun t r bs => t.sliceConfigRun (hSlice r.header) bs)))

/-! ### Reset and detach (R333, R335) -/

/-- Steps 1 to 3: intake stops and every job of the slice is aborted; a detach discards their completion records. A request or a heartbeat
loss that meets a running sequence is merged into it. A LESSON_LOAD in progress or already taken does not survive (R159, R335); its reply is
discarded where the host has gone. -/
def State.startRun (s : State) (i : Nat) (reset detach : Bool) (reply : Option (Nat × List Byte)) : State :=
  let x := s.slice i
  let s1 := s.setSlice i { x with
    running := true, runReset := x.runReset || reset, runDetach := x.runDetach || detach
    runReplies := x.runReplies ++ reply.toList
    runAt := if x.running then x.runAt else s.clock.up
    aborted := if x.running then x.aborted else ((s.sliceJobs i).filter (fun p => p.2.state < 4)).length }
  let s2 := (s1.sliceJobs i).foldl (fun (u : State) p =>
    let v := u.endJob p.1 6 msAborted none
    if detach then (match v.job? p.1 with | some j => v.setJob p.1 { j with discard := true } | none => v) else v) s1
  let s2 := match s2.reg.loading with
    | some d => if d.lesson.slice = i then s2.dropLoad msAborted (detach && reply.isNone) else s2
    | none => s2
  let s3 := s2.setMb i { s2.mb i with taken := (s2.mb i).taken.map (fun r => { r with met := true }) }
  s3.each (s3.lessons.filter (fun p => p.2.slice = i)) (fun u p => u.stopQuiz p.1 false)

/-- Every job of the slice ends without a further record. -/
def State.closeSliceJobs (s : State) (i : Nat) : State := (s.sliceJobs i).foldl (fun (u : State) p => u.closeJob p.1 p.2) s

/-- The Roster entries of the slice are freed. -/
def State.freeRoster (s : State) (i : Nat) : State := { s with roster := s.roster.filter (fun p => p.2.slice ≠ i) }

/-- The queues that slice `i` owns hold no entry any more (R333, R354); the requests that waited in its mailbox go with them. -/
def State.emptyQueues (s : State) (i : Nat) : State :=
  let mine := fun (q : Nat) => (s.queue q).owner = some i
  let s1 := { s with
    queues := s.queues.map (fun (p : Nat × QRec) => if mine p.1 then (p.1, { p.2 with cons := p.2.prod }) else p)
    gw := { s.gw with
      txWait := s.gw.txWait.filter (fun p => !mine p.1)
      frames := s.gw.frames.map (fun (p : Nat × GwFrame) =>
        (p.1, { p.2 with tsBack := p.2.tsBack.filter (fun t => !mine t.1) })) } }
  s1.setMb i { s1.mb i with senders := if (s1.queue (reqQueue i)).owner = some i then [] else (s1.mb i).senders }

/-- Every Lesson of the slice is unloaded, its Roster entries freed and its queues emptied. -/
def State.unloadSlice (s : State) (i : Nat) : State :=
  (((s.lessons.filter (fun p => p.2.slice = i)).foldl (fun (u : State) p => u.unloadLesson p.1 msAborted) s).freeRoster i).emptyQueues i

/-- Step 5: every transfer of the slice still outstanding is squashed: DMA bursts, split reads and posted writes in the bridges, and writes that
the device makes for it. A squashed read gets its error response at once. -/
def State.squashTransfers (s : State) (i : Nat) : State :=
  let seats := (s.slice i).seats.filter (fun g => (s.seat g).flight.any (fun f => f.unit = 2))
  let nDma := (seats.map (fun g => ((s.seat g).flight.filter (fun f => f.unit = 2)).length)).sum
  let nPost := (s.bridges.map (fun p => (p.2.posted.filter (fun (w : PostedWrite) => w.slice = i + 1)).length)).sum
  let nLate := (s.ecc.late.filter (fun l => l.ctx.slice = some i)).length
  let s1 := s.each seats (fun u g =>
    let x := u.seat g
    u.setSeat g { x with flight := x.flight.filter (fun f => f.unit ≠ 2) })
  let p := s1.squashReads (fun r => s.sliceOf r.who = some i)
  let s2 := p.1.mapBridges (fun x => { x with posted := x.posted.filter (fun (w : PostedWrite) => w.slice ≠ i + 1) })
  let s3 := { s2 with ecc := { s2.ecc with late := s2.ecc.late.filter (fun l => l.ctx.slice ≠ some i) } }
  let n := nDma + p.2 + nPost + nLate
  let s4 := s3.setSlice i { s3.slice i with squashed := (s3.slice i).squashed + n }
  if n = 0 then s4 else s4.raise srcSliceSquash

/-- Events of the slice that its mailbox still holds or owes are discarded (R333). -/
def State.dropEvents (s : State) (i : Nat) : State := s.setMb i { s.mb i with lost := 0, lostPending := false }

/-- The forced unloads of the slice whose jobs have all ended are done and answered (R158): they came before the sequence. -/
def State.releaseDone (s : State) (i : Nat) : State := s.each (s.lessons.filter (fun p => p.2.slice = i && p.2.releasing)) (fun u p => u.lessonDone p.1)

/-- The sequence completes: the replies, step 6, the unload of a reset, the grace period of a detach. The reply of a DETACH is written before the
mailbox loses its negotiation (R332). -/
def State.finishRun (s : State) (i : Nat) : State :=
  let s1 := (s.closeSliceJobs i).releaseDone i
  let x := s1.slice i
  let byDetach := x.runReplies.any (fun p => p.1 = i && hOp p.2 = 0x0003)
  let s2 := if x.runReset then s1.unloadSlice i else s1.freeRoster i
  let arg := if x.runReset then x.aborted % 2 ^ 32 + min x.squashed 65535 * 2 ^ 32 else 0
  let s3 := s2.each x.runReplies (fun u p => u.sendReply p.1 (replyHeader p.2 msOk 0 arg))
  let s4 := s3.setSlice i { x with
    running := false, runReset := false, runDetach := false, runReplies := [], drained := false, aborted := 0, squashed := 0
    phase := if x.runDetach && x.phase = 1 then 2 else x.phase, graceAt := s3.clock.up }
  let s5 := s4.when x.runDetach (fun u => u.dropEvents i)
  if byDetach then s5.endNegotiation i else s5.wr (MLMB_MB_STATUS.NEGOTIATED i) 0

/-- R334: the grace period has ended: the slice is reset and unloaded, and then configured and not attached. -/
def State.graceEnd (s : State) (i : Nat) : State :=
  let s1 := ((s.closeSliceJobs i).unloadSlice i).wr (MLMB_MB_STATUS.NEGOTIATED i) 0
  s1.setSlice i { s1.slice i with phase := 0, token := 0#64 }

/-- SLICE_RESET of slice `i` (R333). -/
def State.sliceResetRun (s : State) (i mb : Nat) (r : Req) : Answer :=
  let x := s.slice i
  if x.kind = 2 then s.answerArg 0
  else if x.phase = 2 && !x.running then (s.graceEnd i).answer msOk
  else ⟨s.startRun i true false (some (mb, r.header)), msOk, 0, [], true⟩

/-- SLICE_RESET (R333). -/
def execSliceReset (mb : Fin 68) (s : State) : Host.Outcome State Fault Refusal :=
  .next (s.live (s.serve mb.val 0x0005 (fun t r _ => t.sliceResetRun (hSlice r.header) mb.val r)))

/-- DETACH (R332, R333). -/
def execDetach (mb : Fin 68) (s : State) : Host.Outcome State Fault Refusal :=
  .next (s.live (s.serve mb.val 0x0003 (fun t r _ =>
    ⟨t.startRun (hSlice r.header) false true (some (mb.val, r.header)), msOk, 0, [], true⟩)))

/-- HOST_HEARTBEAT_LOST (R332), once HEARTBEAT_MS has passed with no request. -/
def execHostHeartbeatLost (slice : Fin 64) (s : State) : Host.Outcome State Fault Refusal :=
  let i := slice.val
  .next (s.live (
    if s.regRunning && (s.slice i).phase = 1 && s.passed (s.slice i).lastBeat ((s.slice i).heartbeatMs * 1000000) then (s.raise srcHeartbeatLost).startRun i false true none else s))

/-- SLICE_DRAIN_END (R333, R335), DRAIN_MS after step 1: the bridges and controllers squash at DRAIN_MS; the Registrar completes the sequence, after a
restart if one is in progress. -/
def execSliceDrainEnd (slice : Fin 64) (s : State) : Host.Outcome State Fault Refusal :=
  let i := slice.val
  .next (s.live (
    if !(s.slice i).running || !s.passed (s.slice i).runAt ((s.slice i).drainMs * 1000000) then s
    else
      let s1 := s.squashTransfers i
      if s1.regRunning then s1.finishRun i else s1.setSlice i { s1.slice i with drained := true }))

/-- SLICE_GRACE_END (R334), GRACE_S after the grace period began. -/
def execSliceGraceEnd (slice : Fin 64) (s : State) : Host.Outcome State Fault Refusal :=
  let i := slice.val
  .next (s.live (
    if s.regRunning && (s.slice i).phase = 2 && !(s.slice i).running && s.passed (s.slice i).graceAt ((s.slice i).graceS * 1000000000) then
      s.graceEnd i
    else s))

/-! ### Attaching (R331, R332) -/

/-- A host attaches with a new token, drawn by the Security Core. -/
def State.attachNew (s : State) (i : Nat) : Answer :=
  match s.rd SEC_STATE.SC_STATE with
  | 1 =>
    let n := s.draw
    let token : Nat := (Config.freeToken n.1).val + 1
    (n.2.setSlice i { n.2.slice i with phase := 1, token := BitVec.ofNat 64 token, lastBeat := n.2.clock.up }).answerArg token
  | 3 => s.answer msFault
  | _ => s.answer msRestarting

/-- ATTACH (R331). One taken while the sequence of R333 ran, whose answer had to wait for the sequence's own, has met it (R335). -/
def State.attachRun (s : State) (i : Nat) (r : Req) : Answer :=
  let x := s.slice i
  let a := hArg r.header
  if x.kind = 2 then s.answer msDenied
  else if r.met || x.running || x.phase = 1 then s.answer msBusy
  else if x.phase = 2 then
    if a = x.token.toNat then (s.setSlice i { x with phase := 1, lastBeat := s.clock.up }).answerArg a
    else if a = 0 then (s.graceEnd i).attachNew i
    else s.answer msDenied
  else if a = 0 then s.attachNew i
  else s.answer msDenied

/-- ATTACH (R331). -/
def execAttach (mb : Fin 68) (s : State) : Host.Outcome State Fault Refusal :=
  .next (s.live (s.serve mb.val 0x0004 (fun t r _ => t.attachRun (hSlice r.header) r)))

/-- HEARTBEAT (R332): taking the request has counted it. -/
def execHeartbeat (mb : Fin 68) (s : State) : Host.Outcome State Fault Refusal :=
  .next (s.live (s.serve mb.val 0x0002 (fun t _ _ => t.answer msOk)))

/-- STRICT_QUOTA_WINDOW (R330): the quota use of every strict slice is renewed. -/
def execStrictQuotaWindow (s : State) : Host.Outcome State Fault Refusal :=
  .next (s.live (s.each (s.slices.filter (fun p => p.2.strict)) (fun u p =>
    u.setSlice p.1 { u.slice p.1 with dramUsed := 0, linkUsed := [] })))

end Sys2Proof.Machine
end

