-- ==== Sys2Proof/Machine/Fw.lean ====
section
/-! DEFINITION. Restarts of the PMC, the Registrar and the CCCs (13_firmware_mladnel R308, R322-R326; 06_lessons R155; 07 R189). -/

namespace Sys2Proof.Machine

/-- Number of a processor in RESTART_NOTICE (R321). -/
def procNumber : FwProc → Nat
  | .pmc => 1
  | .registrar => 2
  | .proctor => 3
  | .ccc n => 16 + n.val

/-- A restart begins (R321, R322): RESTART_NOTICE marks its start. -/
def State.restartBegins (s : State) (proc cause : Nat) : State := (s.noteBegan proc cause).restartNotice proc cause false false

/-- A restart ends, RUNNING or FAILED: RESTART_NOTICE marks its end (R321, R322). -/
def State.restartEnds (s : State) (proc : Nat) (failed : Bool) : State :=
  s.restartNotice proc (Table.get s.sec.causes 0 proc) true failed

/-- How the check of a processor's private SRAM ends its restart (R308): it runs from a persistent copy; it has FAILED; or the restart goes on, for
the reload of its image waits for the Security Core (R326). -/
inductive SramEnd where
  | runs
  | failed
  | waits
  deriving DecidableEq, Repr

/-- The image of processor `proc`, by its place in the measurements and the minimum versions. -/
def procPlace (proc : Nat) : Nat := if 16 ≤ proc then 3 else proc

/-- R308, R326: the instruction region is checked. An uncorrectable word raises FW_SRAM_UE, and the Security Core reloads and verifies the image, but
only while it is RUNNING; the notice at the end of such a restart gives the cause 2 (log entry 82). The digest of an image that passes is the
processor's measurement; one that fails the signature or the minimum version raises FW_AUTH_FAIL, and its processor stays held (R307). -/
def State.checkSram (s : State) (proc : Nat) (e : RestartFound) : State × SramEnd :=
  let waiting := s.sec.reloads.contains proc
  let last := if e.copyA || e.copyB then SramEnd.runs else SramEnd.failed
  if e.instrOk && !waiting then (s, last)
  else
    let s1 := if waiting then s else { s with sec := { s.sec with reloads := s.sec.reloads ++ [proc] } }.raise srcFwSramUe
    if !s1.scRunning then (s1, .waits)
    else
      let s2 := { s1 with sec := { s1.sec with
        reloads := s1.sec.reloads.filter (· ≠ proc), causes := Table.put s1.sec.causes proc 2 } }
      if e.sigOk && s2.fuses.minVersion.getD (procPlace proc) 0 ≤ e.version.toNat then
        ({ s2 with boot := { s2.boot with measure := s2.boot.measure.set (procPlace proc) e.digest } }, last)
      else (s2.raise srcFwAuthFail, .failed)

/-- A restart begins again: no reload of an earlier one waits. -/
def State.noReload (s : State) (proc : Nat) : State := { s with sec := { s.sec with reloads := s.sec.reloads.filter (· ≠ proc) } }

/-! ### PMC and Registrar -/

/-- R322, R326: the PMC alone restarts. -/
def State.pmcFails (s : State) (src cause : Nat) : State :=
  let st := s.rd MLMB_FW_STATE.PMC
  if st ≠ 1 && st ≠ 2 then s
  else if st = 2 && s.sameCycle 1 cause then s.joinRestart 1 src
  else
    ((((s.noReload 1).raise src).wr MLMB_FW_STATE.PMC 2).satAdd MLMB_FW_RESTARTS.PMC 1 |>.answerTaken 1 msBusy).restartBegins 1 cause

/-- Requests that the Registrar has taken and not answered, with the mailbox of each: waiting ones, the load in progress, forced unloads, and replies of
the sequence of R333. -/
def State.registrarOpen (s : State) : List (Nat × List Byte) :=
  ((List.range 68).flatMap (fun i => ((s.mb i).taken.filter (fun r => hOp r.header / 256 = 0)).map (fun r => (i, r.header))))
    ++ (s.reg.loading.map (fun d => (d.mb, d.header))).toList
    ++ s.lessons.filterMap (fun p => p.2.releaseMb) ++ s.slices.flatMap (fun p => p.2.runReplies)

/-- R322: the Registrar alone restarts; what it had taken is answered after the restart, what arrives is queued. -/
def State.registrarFails (s : State) (src cause : Nat) : State :=
  let st := s.rd MLMB_FW_STATE.REGISTRAR
  if st ≠ 1 && st ≠ 2 then s
  else if st = 2 && s.sameCycle 2 cause then s.joinRestart 2 src
  else
    let s1 := (((s.noReload 2).raise src).wr MLMB_FW_STATE.REGISTRAR 2).satAdd MLMB_FW_RESTARTS.REGISTRAR 1
    let s2 := if st = 2 then s1 else
      let due := s1.registrarOpen
      let s1 := s1.dropLoad msRestarting true
      let t := { s1 with
        reg := { s1.reg with owed := due, arrivals := [] }
        lessons := s1.lessons.map (fun (p : Nat × Lesson) => (p.1, { p.2 with releaseMb := none }))
        slices := s1.slices.map (fun (p : Nat × Slice) => (p.1, { p.2 with runReplies := [] })) }
      t.each (List.range 68) (fun u i =>
        let m := u.mb i
        u.setMb i { m with taken := m.taken.filter (fun r => hOp r.header / 256 ≠ 0) })
    s2.restartBegins 2 cause

/-- R322: what is owed since the restart began is answered MS_RESTARTING. -/
def State.payOwed (s : State) : State :=
  let l := s.reg.owed
  { s with reg := { s.reg with owed := [] } }.each l (fun u p => u.sendReply p.1 (replyHeader p.2 msRestarting 0 0))

/-- PMC_RESTART_END (R308, R325). -/
def execPmcRestartEnd (found : RestartFound) (s : State) : Host.Outcome State Fault Refusal :=
  .next (s.live (
    if s.rd MLMB_FW_STATE.PMC ≠ 2 then s
    else
      let p := s.checkSram 1 found
      match p.2 with
      | .waits => p.1
      | .failed => ((p.1.wr MLMB_FW_STATE.PMC 3).restartEnds 1 true).noteService
      | .runs => ((p.1.wr MLMB_FW_STATE.PMC 1).restartEnds 1 false).noteService))

/-- REGISTRAR_RESTART_END (R308, R323): what the Registrar rebuilds from is all in the state already. In FAILED, requests are answered
MS_FAULT. -/
def execRegistrarRestartEnd (found : RestartFound) (s : State) : Host.Outcome State Fault Refusal :=
  .next (s.live (
    if s.rd MLMB_FW_STATE.REGISTRAR ≠ 2 then s
    else
      let p := s.checkSram 2 found
      match p.2 with
      | .waits => p.1
      | .failed => (((p.1.wr MLMB_FW_STATE.REGISTRAR 3).payOwed).restartEnds 2 true).answerTaken 0 msFault
      | .runs =>
        let s1 := ((p.1.wr MLMB_FW_STATE.REGISTRAR 1).payOwed).restartEnds 2 false
        (s1.each (s1.slices.filter (fun p => p.2.running && p.2.drained)) (fun u p => u.finishRun p.1)).noteService))

/-! ### CCCs (R324) -/

/-- MLMB_CCC_RESTARTS counts cluster `n`, saturating at 15. -/
def State.countCcc (s : State) (n : Nat) : State :=
  let f : FRef := ⟨MLMB_CCC_RESTARTS, 4 * n + 3, 4 * n⟩
  s.satAdd f 1

/-- R324: CCCn restarts: every job with a Seat in the cluster fails with MS_RESTARTING, Quiz runs become pending again, Drill steps
there are abandoned. -/
def State.cccFails (s : State) (n src cause : Nat) : State :=
  let st := s.cccState n
  if st ≠ 1 && st ≠ 2 then s
  else if st = 2 && s.sameCycle (16 + n) cause then s.joinRestart (16 + n) src
  else
    let s1 := (((s.noReload (16 + n)).raise src).setCcc n 2).countCcc n
    let on := fun g => clusterOf g = n
    let s2 := (((s1.dropLoadWhere (fun p => p.cluster = n) msRestarting).strikeSeats on msRestarting).stopQuizzes on false).dropDrill (fun k => k = n)
    s2.restartBegins (16 + n) cause

/-- R155: the non-CONST content of a share or a region is written to its initial content again, where the CCC may write it (R114). -/
def State.rewriteHome (s : State) (l : Lesson) (h : StagePlace × List Nat × Nat × Nat × Option Nat) : State :=
  let consts := (h.2.1.filter (fun k => seConst l.image k = 1)).map (fun k => (h.2.2.1 + seDest l.image k, seLen l.image k))
  if s.regionShut h.2.2.1 h.2.2.2.1 then s.cccViol h.2.2.1 true else
  let s1 := s.each (freeRanges h.2.2.1 (h.2.2.1 + h.2.2.2.1) consts) (fun u p => u.wipeRange p.1 (p.1 + p.2))
  s1.writeSections l.image (stageCluster l.places h.1.replica) (h.2.1.filter (fun k => seConst l.image k ≠ 1)) h.2.2.1

/-- The non-CONST content of cluster `n`. -/
def State.rewriteCluster (s : State) (n : Nat) : State :=
  s.each s.lessons (fun u p => u.each ((u.homes p.2.image p.2.places).filter (fun h => h.1.cluster = n)) (fun v h => v.rewriteHome p.2 h))

/-- CCC_RESTART_END (R155, R308, R324, R326): the CRC comparison waits for a RUNNING Registrar; then the Seats accept work again. -/
def execCccRestartEnd (cluster : Fin 16) (found : RestartFound) (s : State) : Host.Outcome State Fault Refusal :=
  let n := cluster.val
  .next (s.live (
    if s.cccState n ≠ 2 then s
    else
      let p := s.checkSram (16 + n) found
      match p.2 with
      | .waits => p.1
      | .failed => (p.1.setCcc n 3).restartEnds (16 + n) true
      | .runs =>
        if !p.1.regRunning || p.1.contentHeld n then p.1
        else
          let s1 := ((p.1.verifyCluster n).rewriteCluster n).setCcc n 1
          let s2 := s1.restartEnds (16 + n) false
          (s2.each (List.range 8) (fun u i => u.arbitrate (8 * n + i))).noteService))

/-! ### Detection (R322) -/

/-- Proctor is held in reset until the reset of the device (R234, R306); requests to it are answered MS_FAULT. Both its events raise the one
source. -/
def State.proctorFails (s : State) (cause : Nat) : State :=
  if s.rd MLMB_FW_STATE.PROCTOR ≠ 1 then s
  else (((s.assertSrc srcProcLockstep).wr MLMB_FW_STATE.PROCTOR 3).answerTaken 3 msFault).restartNotice 3 cause false true

/-- A processor fails (R322): its watchdog expires (cause 0), or its cores differ (cause 1). -/
def State.fwFails (s : State) (p : FwProc) (cause : Nat) : State :=
  let pick := fun (a b : Nat) => if cause = 0 then a else b
  match p with
  | .pmc => s.pmcFails (pick srcPmcWdt srcPmcLockstep) cause
  | .registrar => s.registrarFails (pick srcRegWdt srcRegLockstep) cause
  | .ccc k => s.cccFails k.val (pick (srcCluster k.val 13) (srcCluster k.val 12)) cause
  | .proctor => s.proctorFails cause

/-- FW_WATCHDOG_EXPIRY (R322, R326). -/
def execFwWatchdogExpiry (proc : FwProc) (s : State) : Host.Outcome State Fault Refusal := .next (s.live (s.fwFails proc 0))

/-- FW_LOCKSTEP_MISMATCH (R322, R326). -/
def execFwLockstepMismatch (proc : FwProc) (s : State) : Host.Outcome State Fault Refusal := .next (s.live (s.fwFails proc 1))

/-- PROC_LOCKSTEP (R234). -/
def execProcLockstep (s : State) : Host.Outcome State Fault Refusal := .next (s.live (s.proctorFails 1))

end Sys2Proof.Machine
end

