-- ==== Sys2Proof/Machine/Bridges.lean ====
section
/-! DEFINITION. Bridges and the Pair Link (15_bridges_pair_link R336-R348; 01 R33-R37). Bridge 0 is the Peripheral Bridge, 1 to 3 the Die Bridges
of the Hub die, CD0 and CD1, 4 the Pair Bridge; Machine/Links.lean holds what every access needs of them. -/

namespace Sys2Proof.Machine

/-! ### Accesses on the bus -/

/-- Number of bytes of an access. -/
def opBytes : MemOp → Nat
  | .read n _ => n
  | .write bs => bs.length
  | .loadReserved n => n
  | .storeCond bs => bs.length
  | .atomic _ bs => bs.length

/-- The access is checked as a write. -/
def opWrites : MemOp → Bool
  | .read _ _ => false
  | .write _ => true
  | .loadReserved _ => false
  | .storeCond _ => true
  | .atomic _ _ => true

/-- The bytes that an access carries. -/
def opData : MemOp → List Byte
  | .read _ _ => []
  | .write bs => bs
  | .loadReserved _ => []
  | .storeCond bs => bs
  | .atomic _ bs => bs

/-- The access belongs to an exclusive sequence (R341). -/
def opExclusive : MemOp → Bool
  | .read _ _ => false
  | .write _ => false
  | .loadReserved _ => true
  | .storeCond _ => true
  | .atomic _ _ => true

/-! ### Reads (R337-R340) -/

/-- A read of `n` bytes at `a`, whose address at the far side is `target`, takes a tag of every bridge on its way, or waits for one: the completion
comes for the tag of the last bridge. -/
def State.takeReadTag (s : State) (b : Nat) (w : Initiator) (a target n : Nat) (kind : ReadKind := .bus) : State :=
  match s.freeReadTag b (linkOf b a) with
  | none => { s with bus := .wait 256 }
  | some t =>
    let s1 := s.holdTag b t w a target n kind
    match dieBridge (startDie w) a with
    | none => { s1 with bus := .wait t }
    | some d =>
      if d = b then { s1 with bus := .wait t }
      else
        match s1.freeReadTag d (linkOf d a) with
        | none => { s with bus := .wait 256 }
        | some u => { s1.holdTag d u w a target n (.leg t) with bus := .wait t }

/-- The tag of read `r` is free again. -/
def State.freeReadTagOf (s : State) (b : Nat) (r : BridgeRead) : State :=
  let x := s.bridge b
  s.setBridge b { x with reads := x.reads.filter (· ≠ r) }

/-- The read is the Die Bridge's part of read `r` of the Peripheral or the Pair Bridge. -/
def BridgeRead.legOf (q r : BridgeRead) : Bool := q.kind = .leg r.tag && q.who = r.who && q.addr = r.addr

/-- The Die Bridge's part of read `r` is over: the state, and whether it had timed out. -/
def State.endLegs (s : State) (r : BridgeRead) : State × Bool :=
  [1, 2, 3].foldl (fun p b =>
    let x := p.1.bridge b
    (p.1.setBridge b { x with reads := x.reads.filter (fun q => !q.legOf r) }, p.2 || x.reads.any (fun q => q.legOf r && q.timedOut))) (s, false)

/-- R338: a completion over the Peripheral or the Pair Bridge shows that the posted writes sent before its request have been performed: the
message of one that failed would have come first. -/
def State.performed (s : State) (b after : Nat) : State :=
  let x := s.bridge b
  s.setBridge b { x with posted := x.posted.filter (fun p => after ≤ p.num) }

/-- A write-error message of a write sent before read `r` is on its way over the read's link of Die Bridge `b`. -/
def State.messageFirst (s : State) (b : Nat) (r : BridgeRead) : Bool :=
  (s.bridge b).posted.any (fun p => p.link = r.tag / 256 && p.num < r.after)

/-- R338: a completion over a Die Bridge stays behind the write-error messages that are on their way over the same link, and so does one that goes
on there from the Peripheral or the Pair Bridge. -/
def State.behindMessage (s : State) (b : Nat) (r : BridgeRead) : Bool :=
  if b = 0 || b = 4 then [1, 2, 3].any (fun d => (s.bridge d).reads.any (fun q => q.legOf r && s.messageFirst d q))
  else s.messageFirst b r

/-! ### Ends of exclusive sequences (R341) -/

/-- R341: the bridges whose lock an exclusive access of `w` at `a` needs. -/
def lockBridges (w : Initiator) (a : Nat) : List Nat := if w.kind = .pair then [4] else passes (startDie w) a

/-- R341: the initiator holds the lock of the granule at every bridge that its sequence crosses. -/
def State.holdsLocks (s : State) (w : Initiator) (a : Nat) : Bool :=
  (lockBridges w a).all (fun b => (s.bridge b).locks.any (fun l => l.isOf (s.initId w) (granuleOf b a)))

/-- R341: a lock of the sequence has lapsed. -/
def State.lapsedAt (s : State) (w : Initiator) (a : Nat) : Bool :=
  (lockBridges w a).any (fun b => (s.bridge b).lapsed.any (fun l => l.isOf (s.initId w) (granuleOf b a)))

/-- R341: the sequence of `w` at `a` has ended: its locks are released, a lapsed one has had its answer, and its reservation goes. -/
def State.endSequence (s : State) (w : Initiator) (a : Nat) : State :=
  let i := s.initId w
  let s1 := s.each (lockBridges w a) (fun t b =>
    let x := t.bridge b
    let others := fun (u : List BridgeLock) => u.filter (fun l => !l.isOf i (granuleOf b a))
    t.setBridge b { x with locks := others x.locks, lapsed := others x.lapsed })
  { s1 with ecc := { s1.ecc with resv := s1.ecc.resv.filter (fun r => r.1 ≠ i) } }

/-- A number of `n` bytes as a signed one. -/
def signedBytes (n v : Nat) : Int := if v < 2 ^ (8 * n - 1) then (v : Int) else (v : Int) - 2 ^ (8 * n)

/-- What an atomic memory operation on `n` bytes writes (R341; the operations are those of RISC-V, log entry 68). -/
def amoResult (f : AmoOp) (n old v : Nat) : Nat :=
  match f with
  | .swap => v
  | .add => (old + v) % 2 ^ (8 * n)
  | .and => old &&& v
  | .or => old ||| v
  | .xor => old ^^^ v
  | .min => if signedBytes n old ≤ signedBytes n v then old else v
  | .max => if signedBytes n old ≤ signedBytes n v then v else old
  | .minu => min old v
  | .maxu => max old v

/-- The old value of an atomic memory operation arrives with its completion, and its sequence ends (R341). On the peripheral bus the result is then
written under the semaphore; the partner has performed its own. One whose lock has lapsed gets an error response. -/
def State.atomicDone (s : State) (b : Nat) (r : BridgeRead) (f : AmoOp) (operand old : List Byte) : State :=
  if s.lapsedAt r.who r.addr then { s.endSequence r.who r.addr with bus := .error }
  else
    let n := r.bytes
    let result := leBytes n (amoResult f n (leNat old) (leNat operand))
    let s1 := if b = 0 then (s.countCross (startDie r.who) r.addr).postWrite 0 (s.ctx r.who) r.addr r.target result 0 else s
    { s1.endSequence r.who r.addr with bus := .bytes old }

/-- The completion of read `r`: the data of the far side, for a read within the device as memory holds them; a memory that is held keeps the
completion waiting. A late completion is discarded. -/
def State.completeRead (s : State) (b : Nat) (r : BridgeRead) (data : List Byte) : State :=
  let s0 := s.freeReadTagOf b r
  let late := r.timedOut || r.squashed
  if b = 0 || b = 4 then
    let p := (s0.performed b r.after).endLegs r
    match r.kind with
    | .atomic f v =>
      if late then p.1 else if p.2 then p.1.endSequence r.who r.addr else p.1.atomicDone b r f v (data.take r.bytes)
    | .barrier => if late then s0 else s
    | _ => if late || p.2 then p.1 else { p.1 with bus := .bytes (data.take r.bytes) }
  else if late && (match r.kind with | .leg _ => false | _ => true) then s0
  else if r.kind ≠ .bus then s
  else
    let c := s.ctx r.who
    match s0.memCheck c r.addr r.bytes false with
    | .waits => s
    | v =>
      let p := s0.getNow c r.addr r.bytes v
      { p.1 with bus := (match p.2 with | some d => .bytes d | none => .error) }

/-- BRIDGE_COMPLETION (R338, R339): the read with the tag completes, or its late completion is discarded. -/
def execBridgeCompletion (bridge : Fin 5) (readTag : Nat) (data : List Byte) (s : State) : Host.Outcome State Fault Refusal :=
  let b := bridge.val
  .next (s.live (
    match (s.bridge b).reads.find? (fun r => r.tag = readTag) with
    | none => s
    | some r => if s.behindMessage b r then s else s.completeRead b r data))

/-- The bridge is out of reset: the Pair Bridge of a standalone device stays in reset (R36). -/
def State.bridgeOn (s : State) (b : Nat) : Bool := b ≠ 4 || s.boot.strapEn

/-- READ_TIMEOUT_US of bridge `b` has passed since read `r` went out (R339). -/
def State.readOver (s : State) (b : Nat) (r : BridgeRead) : Bool :=
  s.bridgeOn b && s.passed r.since (s.rd (BRG_CTRL.READ_TIMEOUT_US b) * 1000)

/-- BRIDGE_READ_TIMEOUT (R339), once READ_TIMEOUT_US has passed. A barrier read that times out waits no longer; the error response of the Peripheral or
the Pair Bridge ends the Die Bridge's part of the read, and an atomic memory operation's sequence. -/
def execBridgeReadTimeout (bridge : Fin 5) (readTag : Nat) (s : State) : Host.Outcome State Fault Refusal :=
  let b := bridge.val
  .next (s.live (
    match (s.bridge b).reads.find? (fun r => r.tag = readTag && !r.timedOut && !r.squashed && s.readOver b r) with
    | none => s
    | some r =>
      let x := s.bridge b
      let i := s.initId r.who
      let s1 := s.setBridge b { x with
        reads := x.reads.map (fun q => if q = r then { q with timedOut := true } else q)
        barriers := if r.kind = .barrier then x.barriers.filter (· ≠ i) else x.barriers }
      let p := if b = 0 || b = 4 then s1.endLegs r else (s1, false)
      let s2 := match r.kind with
        | .atomic _ _ => p.1.endSequence r.who r.addr
        | _ => p.1
      { s2.satAdd (BRG_STATUS.READ_TIMEOUTS b) 1 with bus := if p.2 then s.bus else .error }))

/-! ### Exclusive sequences (R341, R342) -/

/-- R342: of two crossing requests, the one of this side wins. On a Die Bridge the lower die ID wins, on the Pair Link role A, at the
semaphore the lower initiator ID. -/
def State.winsCrossing (s : State) (b : Nat) (w : Initiator) (x : Crossing) : Bool :=
  if b = 0 then decide (s.initId w < x.rank)
  else if b = 4 then (if w.kind = .pair then s.boot.strapRole else !s.boot.strapRole)
  else decide (startDie w < x.rank)

/-- A lock request of initiator `w` for the granule of `a` goes through bridge `b`; the partner's goes through the Pair Bridge to this device. -/
def lockWay (b : Nat) (w : Initiator) (a : Nat) : Bool :=
  if w.kind = .pair then b = 4 else (passes (startDie w) a).contains b

/-- The far side cannot be reached (R347). -/
def State.lockShut (s : State) (b : Nat) (w : Initiator) (a : Nat) : Bool :=
  if b = 4 then !s.pairAvail else !s.linkReady b (startDie w) a

/-- No window of the Pair Link admits the sequence: an inbound one needs READ_OK and WRITE_OK (R33, R347). -/
def State.lockWindow (s : State) (b : Nat) (w : Initiator) (a : Nat) : Bool :=
  b = 4 && (if w.kind = .pair then
      s.pairShut w.kind (s.sliceOf w) a 1 false || s.pairShut w.kind (s.sliceOf w) a 1 true
    else (s.outTarget (a - pairBase) 1).isNone)

/-- The bridge at the other end of the link that a lock request of `w` for the granule of `a` takes through bridge `b`. -/
def farBridge (b a : Nat) : Nat := if b = 0 || b = 4 then b else 1 + homeDie a

/-- The lock was taken against the direction of such a request: at the semaphore any lock of another initiator, on the Pair Link one of the other
device, on a Die Bridge one for a granule of the request's own die. -/
def State.against (s : State) (b : Nat) (w : Initiator) (l : BridgeLock) : Bool :=
  if b = 0 then l.holder ≠ s.initId w
  else if b = 4 then (if w.kind = .pair then l.holder ≠ s.initId w else l.holder = 0x6000)
  else homeDie (l.granule * 64) = startDie w

/-- The locks taken against the request's direction on its link. -/
def State.foes (s : State) (b : Nat) (w : Initiator) (a : Nat) : List BridgeLock := (s.bridge (farBridge b a)).locks.filter (s.against b w)

/-- The locks that a lock request crosses (R342): those taken against its direction at this very moment, and where the command says that the other
side's request crosses it, those of that side (log entry 31). -/
def State.crossers (s : State) (b : Nat) (w : Initiator) (a : Nat) (x : Option Crossing) : List BridgeLock :=
  (s.foes b w a).filter (fun l => l.since = s.clock.up || (match x with | some c => b ≠ 0 || l.holder = c.rank | none => false))

/-- R342: the request loses the crossing that it meets, if it meets one. -/
def State.losesCrossing (s : State) (b : Nat) (w : Initiator) (a : Nat) (x : Option Crossing) : Bool :=
  match x with
  | some c => !s.winsCrossing b w c
  | none => (s.crossers b w a none).any (fun l => !s.winsCrossing b w ⟨if b = 0 then l.holder else homeDie a⟩)

/-- R342: the locks that a request of initiator ID `i` has won against are released, and their requests wait for the end of its sequence; so do those
that lost to it before it came. -/
def State.giveWay (s : State) (b i : Nat) (w : Initiator) (a : Nat) (lost : List BridgeLock) : State :=
  let s1 := s.each lost (fun t l => t.freeLocks l.holder)
  let f := farBridge b a
  let x := s1.bridge f
  s1.setBridge f { x with
    retry := x.retry.map (fun p => if p.2.isNone && s.against b w p.1 then (p.1, some i) else p) ++ lost.map (fun l => (l, some i)) }

/-- R342: a request that has lost a crossing waits until the winner's sequence has ended: while the winner holds a lock, or where it is not known
yet, while a lock against its direction is held. -/
def State.retryWaits (s : State) (b : Nat) (w : Initiator) (a : Nat) : Bool :=
  (s.bridge b).retry.any (fun p => p.1.isOf (s.initId w) (granuleOf b a) && (match p.2 with
    | some j => (List.range 5).any (fun k => (s.bridge k).locks.any (fun l => l.holder = j))
    | none => !(s.foes b w a).isEmpty))

/-- BRIDGE_LOCK_REQUEST (R341, R342): granted; or waiting for the holder of the granule; or the loser of a crossing, which releases its
locks and retries when the winner's sequence has ended. A lock request needs a read tag (R337). -/
def execBridgeLockRequest (bridge : Fin 5) (who : Initiator) (addr : PAddr) (crossed : Option Crossing) (s : State) :
    Host.Outcome State Fault Refusal :=
  let b := bridge.val
  let a := addr.toNat
  let i := s.initId who
  let l : BridgeLock := ⟨i, granuleOf b a, s.clock.up⟩
  .next (s.live (
    if !lockWay b who a then s
    else if s.lockShut b who a then { s with bus := .error }
    else if s.lockWindow b who a then { s.logViol windowViol (s.ctx who) a true with bus := .error }
    else if (s.freeReadTag b (linkOf b a)).isNone then { s with bus := .wait 256 }
    else
      let met := s.crossers b who a crossed
      if s.losesCrossing b who a crossed then
        let t := s.freeLocks i
        let x := t.bridge b
        { t.setBridge b { x with retry := x.retry.filter (fun p => !p.1.isOf i l.granule) ++ [(l, met.head?.map (·.holder))] } with bus := .wait 256 }
      else
        let t := s.giveWay b i who a met
        let x := t.bridge b
        if t.retryWaits b who a || x.locks.any (fun h => h.holder ≠ i && h.granule = l.granule) then { t with bus := .wait 256 }
        else { t.setBridge b { x with
            locks := if x.locks.any (fun h => h.isOf i l.granule) then x.locks else x.locks ++ [l]
            retry := x.retry.filter (fun p => !p.1.isOf i l.granule)
            lapsed := x.lapsed.filter (fun h => !h.isOf i l.granule) } with bus := .done }))

/-- BRIDGE_LOCK_TIMEOUT (R341): the lock held longest, once it has been held for longer than the lock limit, is released and counted, its
sequence fails, and a reservation taken under it goes. -/
def execBridgeLockTimeout (bridge : Fin 5) (s : State) : Host.Outcome State Fault Refusal :=
  let b := bridge.val
  .next (s.live (
    let x := s.bridge b
    match x.locks with
    | [] => s
    | l :: rest =>
      if l.since + lockLimit b < s.clock.up then
        let t := (s.setBridge b { x with locks := rest, lapsed := x.lapsed.filter (fun h => !h.isOf l.holder l.granule) ++ [l] }).satAdd
          (BRG_STATUS.LOCK_TIMEOUTS b) 1
        { t with ecc := { t.ecc with resv := t.ecc.resv.filter (fun r => !(r.1 = l.holder && l.covers b (r.2 * 64) 64)) } }
      else s))

/-- An access fails at its far side: a plain write over a Die Bridge is posted (R337, R345); everything else gets an error response, and an exclusive
sequence has ended. -/
def State.accessFails (s : State) (w : Initiator) (a : Nat) (op : MemOp) (reason : Nat) : State :=
  match op with
  | .write bs => s.answerFailed (s.ctx w) a bs true reason
  | _ =>
    let t := if opWrites op && w.kind = .seat then s.crossFailed (s.ctx w) a (opData op) reason else s
    { (if opExclusive op then t.endSequence w a else t) with bus := .error }

/-- The outcome of an access that is a violation (R277). -/
def State.refusedOp (s : State) (w : Initiator) (v : Viol) (a : Nat) (op : MemOp) : State :=
  (s.logViol v (s.ctx w) a (opWrites op)).accessFails w a op v.reason

/-- An error response to a Seat's access outside memory halts the Seat with BUS_ERROR (R50). -/
def State.seatStops (s : State) (w : Initiator) : State :=
  if w.kind = .seat && s.bus = .error then s.haltSeat w.index 6 else s

/-- A reserved load leaves its reservation, one for each initiator (R341). -/
def State.reserve (s : State) (w : Initiator) (a : Nat) : State :=
  let i := s.initId w
  { s with ecc := { s.ecc with resv := s.ecc.resv.filter (fun r => r.1 ≠ i) ++ [(i, a / 64)] } }

/-- The reservation of `w` on the granule of `a` stands. -/
def State.reserved? (s : State) (w : Initiator) (a : Nat) : Bool := s.ecc.resv.contains (s.initId w, a / 64)

/-- R341: what an exclusive access across a bridge meets before it is made: a lapsed lock fails a conditional store (1 is the answer of a
failed one) and gives an atomic operation an error response; an access without the lock waits for BRIDGE_LOCK_REQUEST. -/
def State.exclusive (s : State) (w : Initiator) (a : Nat) (op : MemOp) (k : State → State) : State :=
  if !opExclusive op then k s
  else if s.lapsedAt w a && opWrites op then
    match op with
    | .storeCond _ => { s.endSequence w a with bus := .data 1 }
    | _ => { s.endSequence w a with bus := .error }
  else if !s.holdsLocks w a then { s with bus := .wait 256 }
  else k s

/-! ### Side-band signals (R343, R344) -/

/-- The far side's signals reach the initiating side. -/
def State.deliverSide (s : State) (b : Nat) (signals : Word) : State := s.setBridge b { s.bridge b with sideband := signals }

/-- BRIDGE_SIDEBAND_MESSAGE (R343). -/
def execBridgeSidebandMessage (bridge : Fin 5) (signals : Word) (s : State) : Host.Outcome State Fault Refusal :=
  .next (s.live (if s.msgMode bridge.val && s.bridgeOn bridge.val then s.deliverSide bridge.val signals else s))

/-- BRIDGE_SIDEBAND_POLL (R343). -/
def execBridgeSidebandPoll (bridge : Fin 5) (signals : Word) (s : State) : Host.Outcome State Fault Refusal :=
  .next (s.live (if s.msgMode bridge.val || !s.bridgeOn bridge.val then s else s.deliverSide bridge.val signals))

/-! ### Posted write errors (R345, R346) -/

/-- POSTED_WRITE_ERROR (R345): the message names an outstanding write of an initiator by its sequence tag; where the device knows the target and the
REASON of its failure, they are those. No error has REASON 0. Messages come in the order of their writes (R338): on a Die Bridge, where the device knows
which writes have failed, the first of a link comes first; elsewhere the writes before this one have been performed. -/
def execPostedWriteError (bridge : Fin 5) (who : Initiator) (addr : PAddr) (tag : Byte) (reason : Fin 10) (s : State) :
    Host.Outcome State Fault Refusal :=
  let b := bridge.val
  .next (s.live (
    let x := s.bridge b
    let i := s.initId who
    match x.posted.find? (fun p => p.init = i && p.num % 256 = tag.toNat && p.addr = addr.toNat) with
    | none => s
    | some p =>
      let why := if p.reason = 0 then reason.val else p.reason
      let outer := b = 0 || b = 4
      let first := fun (q : PostedWrite) => q.link = p.link && q.num < p.num
      if why = 0 || !s.bridgeOn b || (!outer && x.posted.any first) then s
      else (s.setBridge b { x with posted := x.posted.filter (fun q => q ≠ p && !(outer && first q)) }).postedFailed b i addr.toNat tag.toNat why))

/-- The far ends of a bridge's links, as `linkOf` counts. -/
def linksOf (b : Nat) : List Nat := if b = 0 || b = 4 then [0] else [0, 1, 2].filter (· ≠ b - 1)

/-- The barrier read of initiator `w` through bridge `b` waits, with a read tag on every link of the bridge (R337, R346). In the Pair Bridge of a
standalone device, which stays in reset, the register reads its reset value (R36). -/
def State.barrierStart (s : State) (b : Nat) (w : Initiator) : State :=
  let x := s.bridge b
  let i := s.initId w
  if !s.bridgeOn b then { s with bus := .data 0 }
  else if x.barriers.contains i then { s with bus := .wait 256 }
  else if (linksOf b).all (fun k => (s.freeReadTag b k).isSome) then
    let s1 := s.each (linksOf b) (fun t k =>
      match t.freeReadTag b k with
      | some g => t.holdTag b g w (BRG_BARRIER b).addr (BRG_BARRIER b).addr 8 .barrier
      | none => t)
    { s1.setBridge b { s1.bridge b with barriers := x.barriers ++ [i] } with bus := .wait 256 }
  else { s with bus := .wait 256 }

/-- BRG_BARRIER_READ (R346). -/
def execBrgBarrierRead (who : Initiator) (bridge : Fin 5) (s : State) : Host.Outcome State Fault Refusal :=
  let b := bridge.val
  .next (s.live (s.regAccess who .brg_barrier b 0 false (fun t => t.barrierStart b who)))

/-- The barrier read is one of initiator ID `i`. -/
def State.barrierOf (s : State) (i : Nat) (r : BridgeRead) : Bool := r.kind = .barrier && s.initId r.who = i

/-- The posted writes that went out through bridge `b` before the barrier read of initiator ID `i`. -/
def State.barrierAfter (s : State) (b i : Nat) : Nat :=
  match (s.bridge b).reads.find? (fun r => s.barrierOf i r && !r.timedOut && !r.squashed) with
  | some r => r.after
  | none => 0

/-- The posted write is one of those that the barrier read of initiator ID `i` waits for (R346). -/
def State.beforeBarrier (s : State) (b i : Nat) (p : PostedWrite) : Bool := p.init = i && p.num < s.barrierAfter b i

/-- R346: on a Die Bridge the write-error messages of the initiator's failed writes are still to come; the outcome of a write to the
peripheral bus or to the partner shows only in the completion itself. -/
def State.barrierHeld (s : State) (b i : Nat) : Bool := b ≠ 0 && b ≠ 4 && (s.bridge b).posted.any (s.beforeBarrier b i)

/-- BRG_BARRIER_COMPLETE (R346). That of a barrier read which has had its error response frees its tags (R339). -/
def execBrgBarrierComplete (who : Initiator) (bridge : Fin 5) (s : State) : Host.Outcome State Fault Refusal :=
  let b := bridge.val
  let i := s.initId who
  .next (s.live (
    let x := s.bridge b
    if !x.barriers.contains i then s.setBridge b { x with reads := x.reads.filter (fun r => !(s.barrierOf i r && (r.timedOut || r.squashed))) }
    else if s.barrierHeld b i then s
    else { s.setBridge b { x with
            posted := x.posted.filter (fun p => !s.beforeBarrier b i p)
            reads := x.reads.filter (fun r => !s.barrierOf i r)
            failed := x.failed.filter (· ≠ i)
            barriers := x.barriers.filter (· ≠ i) } with bus := .data (s.barrierWord b i) }))

/-- A write to BRG_PEL_STATUS (R345): CLEAR invalidates every entry. -/
def State.pelWrite (s : State) (b v : Nat) : State :=
  if bit v 0 then
    ((List.range 64).foldl (fun (u : State) e => u.wr (BRG_PEL_ADDR.VALID b e) 0) s).wr (BRG_BARRIER.ENTRIES b) 0
  else s

/-- PEL_CLEAR (R345). -/
def execPelClear (who : Initiator) (bridge : Fin 5) (data : Word) (s : State) : Host.Outcome State Fault Refusal :=
  .next (s.live (s.regWr who .brg_pel_status bridge.val 0 (fun t => t.pelWrite bridge.val data.toNat)))

/-- BRG_STATUS_READ (R14). -/
def execBrgStatusRead (who : Initiator) (bridge : Fin 5) (s : State) : Host.Outcome State Fault Refusal :=
  let b := bridge.val
  .next (s.live (s.regRd who .brg_status b 0 (fun t => t.brgStatusWord b)
    (fun t => t.readClear (BRG_STATUS b) (RegFam.fields .brg_status))))

/-- BRG_PEL_STATUS_READ (R14). -/
def execBrgPelStatusRead (who : Initiator) (bridge : Fin 5) (s : State) : Host.Outcome State Fault Refusal :=
  let b := bridge.val
  .next (s.live (s.regRd who .brg_pel_status b 0 (fun t => t.rd (BRG_PEL_STATUS.OVERFLOW b) * 2 ^ 48)
    (fun t => t.readClear (BRG_PEL_STATUS b) (RegFam.fields .brg_pel_status))))

/-! ### The Pair Link (R347, R348, R33-R37) -/

/-- R347: a write that sets ENABLE is taken: a size of 1 to 65,536 MiB, within its space, overlapping no other enabled window of its
direction. `mine` is the window as written, `space` the size of its space in bytes. -/
def windowOk (mine : Nat × Nat) (space : Nat) (others : List (Nat × Nat)) : Bool :=
  decide (0x100000 ≤ mine.2) && decide (mine.2 ≤ 65536 * 0x100000) && decide (mine.1 + mine.2 ≤ space)
    && others.all (fun o => !overlaps mine.1 mine.2 o.1 o.2)

/-- The other enabled windows of a direction. -/
def State.otherWindows (s : State) (w : Nat) (en : Nat → FRef) (win : Nat → Nat × Nat) : List (Nat × Nat) :=
  ((List.range 8).filter (fun i => i ≠ w && s.on (en i))).map win

/-- A write to a window register of the Pair Link (R347). The block of a standalone device stays in reset (R36). -/
def State.pairWinWrite (s : State) (r : PairWinReg) (v : Nat) : State :=
  if !s.boot.strapEn then s
  else
    match r with
    | .outCfg w =>
      let mine := (bits v 15 0 * 0x100000, bits v 32 16 * 0x100000)
      if bit v 63 && !windowOk mine 0x1000000000 (s.otherWindows w.val PAIR_OUT_CFG.ENABLE s.outRange) then s
      else s.plainWrite (PAIR_OUT_CFG w.val) (RegFam.fields .pair_out_cfg) false v (fun _ _ => true)
    | .outRemote w => s.plainWrite (PAIR_OUT_REMOTE w.val) (RegFam.fields .pair_out_remote) false v (fun _ _ => true)
    | .inBase w => s.plainWrite (PAIR_IN_BASE w.val) (RegFam.fields .pair_in_base) false v (fun _ _ => true)
    | .inCfg w =>
      let mine := (s.rd (PAIR_IN_BASE.BASE w.val) * 0x100000, bits v 16 0 * 0x100000)
      if bit v 63 && !windowOk mine (2 ^ 48) (s.otherWindows w.val PAIR_IN_CFG.ENABLE s.inRange) then s
      else s.plainWrite (PAIR_IN_CFG w.val) (RegFam.fields .pair_in_cfg) false v (fun _ _ => true)

/-- The family and index of a window register. -/
def pairWinFam : PairWinReg → RegFam × Nat
  | .outCfg w => (.pair_out_cfg, w.val)
  | .outRemote w => (.pair_out_remote, w.val)
  | .inBase w => (.pair_in_base, w.val)
  | .inCfg w => (.pair_in_cfg, w.val)

/-- PAIR_WINDOW_WRITE (R347). -/
def execPairWindowWrite (who : Initiator) (reg : PairWinReg) (data : Word) (s : State) : Host.Outcome State Fault Refusal :=
  .next (s.live (s.regWr who (pairWinFam reg).1 (pairWinFam reg).2 0 (fun t => t.pairWinWrite reg data.toNat)))

/-- An access goes out through bridge `b`, 0 to the peripheral bus or 4 to the partner, with its address there and its data. An atomic operation
of the peripheral bus is a read and a write under the semaphore; the partner performs its own as one (R341). The completion brings the old
value, and the sequence ends then. -/
def State.carry (s : State) (b : Nat) (w : Initiator) (a target : Nat) (op : MemOp) : State :=
  let c := s.ctx w
  let post := fun (t : State) (bs : List Byte) => (t.countCross c.die a).postWrite b c a target bs 0
  match op with
  | .write bs => { post s bs with bus := .done }
  | .read n _ => s.takeReadTag b w a target n
  | .loadReserved n =>
    let t := s.takeReadTag b w a target n
    if t.bus = .wait 256 then t else t.reserve w a
  | .storeCond bs =>
    if s.reserved? w a then { (post s bs).endSequence w a with bus := .data 0 } else { s.endSequence w a with bus := .data 1 }
  | .atomic f bs => s.takeReadTag b w a target bs.length (.atomic f bs)

/-- R33, R345, R347, R348: an access that the Pair Bridge carries. A posted write while the link is down fails at the bridge with LINK_DOWN, a read
gets an error response. Before the partner has authenticated the bridge carries the accesses to its SECMB channel 27 alone. -/
def State.pairCarry (s : State) (w : Initiator) (a target : Nat) (op : MemOp) : State :=
  let c := s.ctx w
  if s.pairCarries target then s.carry 4 w a target op
  else
    match op with
    | .write _ =>
      if s.boot.strapEn && !s.pair.trained then
        { ((s.countCross c.die a).countPosted 4).postedFailed 4 c.id a (s.bridge 4).sent 9 with bus := .done }
      else { s with bus := .error }
    | _ => { s with bus := .error }

/-- R33: an access in the Pair Link window. An offset that no enabled window covers is a violation with REASON WINDOW. -/
def State.pairOut (s : State) (w : Initiator) (a : Nat) (op : MemOp) : State :=
  let n := opBytes op
  let t :=
    if !s.arrives w.kind w.index a then { s with bus := .error }
    else if 0x3000000000 < a + n then s.refusedOp w (hubViol 1) a op
    else if s.pairShut w.kind (s.sliceOf w) a n (opWrites op) || (opExclusive op && s.pairShut w.kind (s.sliceOf w) a n (!opWrites op)) then
      s.refusedOp w windowViol a op
    else
      match s.outTarget (a - pairBase) n with
      | none => s.refusedOp w windowViol a op
      | some target =>
        let use := (dramBytes a n, linkBytes (startDie w) a n (opWrites op))
        if s.held w a n (opWrites op) || s.strictFirst (s.sliceOf w) use then { s with bus := .wait 256 }
        else s.exclusive w a op (fun t => (t.pairCarry w a target op).useQuota (s.sliceOf w) use.1 use.2)
  t.seatStops w

/-- PAIR_OUTBOUND_ACCESS (R33). -/
def execPairOutboundAccess (who : Initiator) (addr : PAddr) (op : MemOp) (s : State) : Host.Outcome State Fault Refusal :=
  .next (s.live (
    match placeOf s.pins.fittedMiB addr.toNat with
    | .pairWin _ => s.pairOut who addr.toNat op
    | _ => s))

/-- PAIR_LINK_UP (R348): training releases the tags of reads that had timed out (R339). -/
def execPairLinkUp (s : State) : Host.Outcome State Fault Refusal :=
  .next (s.live (
    if !s.boot.strapEn || s.pair.trained then s
    else
      let x := s.bridge 4
      let s1 := s.setBridge 4 { x with reads := x.reads.filter (fun r => !r.timedOut) }
      let s2 := ({ s1 with pair := { s1.pair with trained := true, everTrained := true } }.wr (BRG_STATUS.LINK_UP 4) 1).deassertSrc
        srcPairLinkDown
      s2.noteService))

/-- R348: what the loss of the Pair Link ends: outbound reads, with a barrier read of the bridge, get error responses, and their tags stay held until
the link retrains (R339); the inbound transfers outstanding are squashed (R333), and the partner's locks and reservation go. -/
def State.pairLost (s : State) : State :=
  let out := (s.bridge 4).reads.filter (fun r => !r.timedOut && !r.squashed)
  let s1 := s.each out (fun t r => let u := (t.endLegs r).1; match r.kind with | .atomic _ _ => u.endSequence r.who r.addr | _ => u)
  let x := s1.bridge 4
  let s2 := s1.setBridge 4 { x with reads := x.reads.map (fun r => { r with timedOut := true }), barriers := [] }
  let s3 := if out.isEmpty then s2 else { s2 with bus := .error }
  let p := s3.squashReads (fun r => r.who.kind = .pair)
  let dropped := (List.range 5).any (fun b => (p.1.bridge b).posted.any (fun q => q.init = 0x6000))
  let s4 := (p.1.mapBridges (fun x => { x with posted := x.posted.filter (fun q => q.init ≠ 0x6000) })).freeLocks 0x6000
  if p.2 = 0 && !dropped then s4 else s4.raise srcSliceSquash

/-- PAIR_LINK_DOWN (R348). -/
def execPairLinkDown (s : State) : Host.Outcome State Fault Refusal :=
  .next (s.live (
    if !s.pair.trained then s
    else
      let s2 := s.pairLost
      ({ s2 with pair := { s2.pair with trained := false } }.wr (BRG_STATUS.LINK_UP 4) 0).assertSrc srcPairLinkDown))

/-- PAIR_ALIVE_LOST asserts: LOST reads 1. -/
def State.aliveLost (s : State) : State := (s.wr PAIR_ALIVE.LOST 1).assertSrc srcPairAliveLost

/-- PAIR_START_ALLOWANCE_END (R37, R348), once START_10MS x 10 ms have passed since reset release. -/
def execPairStartAllowanceEnd (s : State) : Host.Outcome State Fault Refusal :=
  .next (s.live (
    if !s.boot.strapEn || s.pair.allowanceOver || !s.passed 0 (s.rd PAIR_ALIVE.START_10MS * 10000000) then s
    else
      let s1 := { s with pair := { s.pair with allowanceOver := true } }
      let s2 := if s1.pair.edgeSeen then s1 else s1.aliveLost
      if s2.pair.everTrained then s2 else s2.assertSrc srcPairLinkDown))

/-- ALIVE_IN_EDGE (R36, R348): PAIR_ALIVE_LOST clears at an edge that follows the one before it within TIMEOUT_US. -/
def execAliveInEdge (s : State) : Host.Outcome State Fault Refusal :=
  .next (s.live (
    if !s.boot.strapEn then s
    else
      let near := s.pair.edgeSeen && !s.passed s.pair.lastEdge (s.rd PAIR_ALIVE.TIMEOUT_US * 1000)
      let s1 := { s.wrapAdd PAIR_ALIVE.EDGES 1 with pair := { s.pair with edgeSeen := true, lastEdge := s.clock.up } }
      if near then (s1.wr PAIR_ALIVE.LOST 0).deassertSrc srcPairAliveLost else s1))

/-- ALIVE_IN_TIMEOUT (R348), once TIMEOUT_US has passed since the last edge. -/
def execAliveInTimeout (s : State) : Host.Outcome State Fault Refusal :=
  .next (s.live (
    if s.boot.strapEn && s.pair.edgeSeen && s.passed s.pair.lastEdge (s.rd PAIR_ALIVE.TIMEOUT_US * 1000) then s.aliveLost else s))

/-- PAIR_ALIVE accepts START_10MS other than 0 and TIMEOUT_US from 400 (R348). -/
def pairAliveOk (x : Fld) (n : Nat) : Bool := if x.lo = 24 then n ≠ 0 else if x.lo = 0 then decide (400 ≤ n) else true

/-- A write to PAIR_ALIVE (R348). -/
def State.pairAliveWrite (s : State) (v : Nat) : State :=
  if !s.boot.strapEn then s
  else s.plainWrite PAIR_ALIVE (RegFam.fields .pair_alive) (s.on PAIR_ALIVE.LOCK) v pairAliveOk

/-- A write to BRG_CTRL (R336): READ_TIMEOUT_US accepts 10 to 65,535. -/
def State.brgCtrlWrite (s : State) (b v : Nat) : State :=
  if b = 4 && !s.boot.strapEn then s
  else s.plainWrite (BRG_CTRL b) (RegFam.fields .brg_ctrl) false v (fun x n => x.lo ≠ 32 || decide (10 ≤ n))

/-! ### The die links (R18, R280, R344) -/

/-- The bit of a die link in `Pwr.linksUp`. -/
def dieLinkBit : DieLink → Nat
  | .compute => 0 | .hub0 => 1 | .hub1 => 2

/-- DIE_LINK_DOWN (R280): a Hub link that goes down powers down the compute die at its far end. -/
def execDieLinkDown (link : DieLink) (s : State) : Host.Outcome State Fault Refusal :=
  let k := dieLinkBit link
  .next (s.live (
    if !bit s.pwr.linksUp k then s
    else if k = 0 then (s.setLinks (clearBit s.pwr.linksUp 0)).assertSrc srcDieLinkDownC
    else s.loseDie (k - 1)))

/-- DIE_LINK_TRAINED (R344): the link is up, and the tags of reads over it that had timed out are free (R339). -/
def execDieLinkTrained (link : DieLink) (s : State) : Host.Outcome State Fault Refusal :=
  let k := dieLinkBit link
  .next (s.live (
    let up := if k = 0 then (s.die 0).powered && (s.die 1).powered else (s.die (k - 1)).powered
    if !up || bit s.pwr.linksUp k then s
    else (s.setLinks (setBit s.pwr.linksUp k)).deassertSrc (if k = 0 then srcDieLinkDownC else srcDieLinkDownH (k - 1))))

end Sys2Proof.Machine
end

