-- ==== Sys2Proof/Machine/Display.lean ====
section
/-! DEFINITION. The display pipes: enabling, posting, the latch, underruns and links, and the composition of a pixel
(09_raster_display R230-R232). -/

namespace Sys2Proof.Machine

/-- The pipe runs: its timing is on and the PMC has not gated it (R230, R292). -/
def State.pipeUp (s : State) (p : Nat) : Bool := s.on (DISP_PIPE_STATUS.ACTIVE p) && s.unitOn (7 + p)

/-- R230: every field and timing of the pipe is in range, DSC_BPP_X16 also while compression is off (log entry 29). -/
def State.pipeFieldsOk (s : State) (p : Nat) : Bool :=
  let k := s.rd (DISP_PIPE_CTRL.PCLK_KHZ p)
  25000 ≤ k && k ≤ 600000 && s.rd (DISP_PIPE_CTRL.LANES p) ≠ 3 && s.rd (DISP_PIPE_CTRL.RATE p) ≤ 3
    && 128 ≤ s.rd (DISP_PIPE_CTRL.DSC_BPP_X16 p) && s.rd (DISP_PIPE_CTRL.DSC_BPP_X16 p) ≤ 192
    && 1 ≤ s.rd (DISP_PIPE_TIMING_H.ACTIVE p) && s.rd (DISP_PIPE_TIMING_H.ACTIVE p) ≤ 3840
    && 1 ≤ s.rd (DISP_PIPE_TIMING_V.ACTIVE p) && s.rd (DISP_PIPE_TIMING_V.ACTIVE p) ≤ 2160
    && 1 ≤ s.rd (DISP_PIPE_TIMING_H.SYNC p) && 1 ≤ s.rd (DISP_PIPE_TIMING_H.FRONT p)
    && 1 ≤ s.rd (DISP_PIPE_TIMING_V.SYNC p) && 1 ≤ s.rd (DISP_PIPE_TIMING_V.FRONT p)

/-- The pipe starts; its first latch falls after the active lines (R231). -/
def State.startPipe (s : State) (p : Nat) : State :=
  let s1 := (s.wr (DISP_PIPE_CTRL.ENABLE p) 1).wr (DISP_PIPE_STATUS.ACTIVE p) 1
  let first := s1.clock.now + s1.pixelTime p (s1.timingTotal false p * s1.rd (DISP_PIPE_TIMING_V.ACTIVE p))
  { s1 with rast := { s1.rast with anchor := Table.set s1.rast.anchor 0 p first } }

/-- R230: a write to DISP_PIPEn_CTRL. Fields other than ENABLE change only while it is 0. -/
def State.pipeCtrlWrite (s : State) (p v : Nat) : State :=
  if s.on (DISP_PIPE_CTRL.ENABLE p) then
    if bit v 0 then s else (s.wr (DISP_PIPE_CTRL.ENABLE p) 0).wr (DISP_PIPE_STATUS.ACTIVE p) 0
  else
    let s1 := s.plainWrite (DISP_PIPE_CTRL p) (RegFam.fields .disp_pipe_ctrl) false v (fun x _ => x.lo ≠ 0)
    if bit v 0 && s1.pipeFieldsOk p then s1.startPipe p else s1

/-- R230: a write to a timing register, while ENABLE is 0. -/
def State.pipeTimingWrite (s : State) (f : RegFam) (p v : Nat) : State :=
  if s.on (DISP_PIPE_CTRL.ENABLE p) then s else s.plainWrite (f.reg p 0) f.fields false v (fun _ _ => true)

/-- R231: a write to DISP_PIPEn_PLANEp_ADDR: ADDR with bits [5:0] zero, and POST. -/
def State.planeAddrWrite (s : State) (p q v : Nat) : State :=
  let s1 := s.wr (DISP_PLANE_ADDR.ADDR p q) (bits v 47 6 * 64)
  if bit v 63 then s1.wr (DISP_PLANE_ADDR.POST p q) 1 else s1

/-- R231: the action of one enabled plane at the latch. -/
def State.latchPlane (s : State) (p q : Nat) : State :=
  if s.on (DISP_PLANE_ADDR.POST p q) then
    let s1 := (s.wr (DISP_PLANE_ADDR.POST p q) 0).wr (DISP_PLANE_ADDR.EXPECT p q) 0
    { s1 with rast := { s1.rast with shown := Table.set s1.rast.shown 0 (4 * p + q) (s.rd (DISP_PLANE_ADDR.ADDR p q)) } }
  else if s.on (DISP_PLANE_ADDR.EXPECT p q) then
    ((s.wr (DISP_PLANE_ADDR.EXPECT p q) 0).satAdd (DISP_PIPE_STATUS.REPEATS p) 1).raise srcFrameRepeat
  else s

/-- R231: CFG of a plane takes effect at the latch. -/
def State.latchCfg (s : State) (p q : Nat) : State :=
  { s with rast := { s.rast with
      cfgNow := Table.set s.rast.cfgNow 0#64 (4 * p + q) (BitVec.ofNat 64 (s.reg64 (DISP_PLANE_CFG p q))) } }

/-- R228, R229: what a latch of pipe `p` means for the pass: at its target latch it is abandoned, and before it EXPECT is set. -/
def State.latchPass (s : State) (p : Nat) : State :=
  match s.rast.pass with
  | none => s
  | some x =>
    if x.pipe ≠ p then s
    else
      match x.left with
      | none => s
      | some n =>
        if n ≤ 1 then s.dropPass
        else
          let s1 := s.setPass (some { x with left := some (n - 1) })
          if n = 2 then s1.wr (DISP_PLANE_ADDR.EXPECT p x.plane) 1 else s1

/-- R232: a new frame begins: no line of it has underrun. -/
def State.clearDark (s : State) (p : Nat) : State :=
  { s with rast := { s.rast with dark := s.rast.dark.filter (fun d => d.plane / 4 ≠ p) } }

/-- R231: the latch of a pipe. -/
def State.latch (s : State) (p : Nat) : State :=
  let s1 := (List.range 4).foldl (fun (t : State) q => t.latchCfg p q) s
  let s2 := (List.range 4).foldl (fun (t : State) q =>
    if t.on (DISP_PLANE_CFG.ENABLE p q) then t.latchPlane p q else t) s1
  let s3 := s2.wrapAdd (DISP_PIPE_STATUS.FRAMES p) 1
  let s4 := { s3 with rast := { s3.rast with anchor := Table.set s3.rast.anchor 0 p s3.clock.now } }
  (s4.clearDark p).latchPass p

/-! ### Composition (R232) -/

/-- CFG of plane `q` in force. -/
def State.planeCfg (s : State) (p q : Nat) : Nat := (Table.get s.rast.cfgNow 0#64 (4 * p + q)).toNat
/-- Bytes of a pixel of a plane with CFG `c`. -/
def cfgPixel (c : Nat) : Nat := if bit c 61 then 8 else 4
/-- The plane with CFG `c` covers (x, y) of the active area. -/
def cfgCovers (c x y : Nat) : Bool :=
  bit c 63 && bits c 47 36 ≤ x && x ≤ bits c 47 36 + bits c 23 12 && bits c 35 24 ≤ y && y ≤ bits c 35 24 + bits c 11 0
/-- Address of the first pixel of line `y` in the buffer that the plane shows. -/
def State.planeLine (s : State) (p q y : Nat) : Nat :=
  let c := s.planeCfg p q
  Table.get s.rast.shown 0 (4 * p + q) + (y - bits c 35 24) * bits c 60 48 * 64

/-- R232: a fetch of the plane has failed on line `y` at or before `x`: it came late, as one does that must wait, or receives an error response (R32, R99). -/
def State.planeDark (s : State) (p q x y : Nat) : Bool :=
  let c := s.planeCfg p q
  let a := s.planeLine p q y
  let n := (x + 1 - bits c 47 36) * cfgPixel c
  s.rast.dark.any (fun d => d.plane = 4 * p + q && d.line = y && d.from' ≤ x)
    || s.memCheck s.rastCtx a n false ≠ .ok || s.ecc.ue.any (hits a n)

/-- Components of plane `q`'s pixel at (x, y) of the active area, where the plane covers it; black, opaque, where its fetch failed
(R232, log entry 86). -/
def State.planePixel (s : State) (p q x y : Nat) : Option (List F32) :=
  let c := s.planeCfg p q
  if !cfgCovers c x y then none
  else if s.planeDark p q x y then some [0#32, 0#32, 0#32, f32One]
  else
    let v := pixelOf (cfgPixel c) (s.readLe (s.planeLine p q y + (x - bits c 47 36) * cfgPixel c) (cfgPixel c))
    some (if bit c 62 then v.take 3 ++ [f32One] else v)

/-- R232: the fetch of plane `q` for the pixel at (x, y) came late, or received an error response, whose violation is logged (R32): the
plane is black for the rest of that line. On a line that is black already no fetch is made. -/
def State.underrun (s : State) (p q x y : Nat) : State :=
  let c := s.planeCfg p q
  if !cfgCovers c x y || s.rast.dark.any (fun d => d.plane = 4 * p + q && d.line = y && d.from' ≤ x) then s
  else
    let a := s.planeLine p q y + (x - bits c 47 36) * cfgPixel c
    let r := s.ctxRead s.rastCtx a (cfgPixel c)
    let s1 := if r.2.isNone && !s.ctxWaits s.rastCtx a (cfgPixel c) false then r.1 else s
    let s2 := { s1 with rast := { s1.rast with dark := ⟨4 * p + q, y, x⟩ :: s1.rast.dark } }
    (s2.satAdd (DISP_PIPE_STATUS.UNDERRUNS p) 1).raise srcDispUnderrun

/-- R232: the pixel that pipe `p` drives at (x, y), as 8-bit R, G and B: plane 0 to plane 3 over opaque black. -/
def State.scanPixel (s : State) (p x y : Nat) : List Nat :=
  let d := (List.range 4).foldl (fun (d : List F32) q =>
    match s.planePixel p q x y with
    | none => d
    | some v => (List.range 3).map (fun c => ffma (d.getD c 0#32) (fsub f32One (v.getD 3 0#32)) (v.getD c 0#32)))
    [0#32, 0#32, 0#32]
  d.map toUnorm

/-! ### The commands -/

/-- DISP_PIPE_ENABLE (R230). -/
def execDispPipeEnable (who : Initiator) (pipe : Fin 4) (data : Word) (s : State) : Host.Outcome State Fault Refusal :=
  .next (s.live (s.regWr who .disp_pipe_ctrl pipe.val 0 (fun t => t.pipeCtrlWrite pipe.val data.toNat)))

/-- DISP_PLANE_POST (R231). -/
def execDispPlanePost (who : Initiator) (pipe plane : Fin 4) (data : Word) (s : State) : Host.Outcome State Fault Refusal :=
  .next (s.live (s.regWr who .disp_plane_addr pipe.val plane.val (fun t => t.planeAddrWrite pipe.val plane.val data.toNat)))

/-- DISP_LATCH (R231). -/
def execDispLatch (pipe : Fin 4) (s : State) : Host.Outcome State Fault Refusal :=
  .next (s.live (if s.pipeUp pipe.val then s.latch pipe.val else s))

/-- DISP_UNDERRUN (R232). -/
def execDispUnderrun (pipe : Fin 4) (fetch : PlaneFetch) (s : State) : Host.Outcome State Fault Refusal :=
  .next (s.live (if s.pipeUp pipe.val then s.underrun pipe.val fetch.plane.val fetch.x fetch.y else s))

/-- DISP_LINK_LOST (R232): the timing runs on. -/
def execDispLinkLost (pipe : Fin 4) (s : State) : Host.Outcome State Fault Refusal :=
  .next (s.live (
    if s.on (DISP_PIPE_STATUS.LINK_UP pipe.val) then (s.wr (DISP_PIPE_STATUS.LINK_UP pipe.val) 0).raise srcDispLinkLost else s))

/-- DISP_LINK_TRAINED (R232). -/
def execDispLinkTrained (pipe : Fin 4) (s : State) : Host.Outcome State Fault Refusal :=
  .next (s.live (s.wr (DISP_PIPE_STATUS.LINK_UP pipe.val) 1))

/-- DISP_PIPE_STATUS_READ (R14). -/
def execDispPipeStatusRead (who : Initiator) (pipe : Fin 4) (s : State) : Host.Outcome State Fault Refusal :=
  .next (s.live (s.regRd who .disp_pipe_status pipe.val 0 (fun t => t.reg64 (DISP_PIPE_STATUS pipe.val))
    (fun t => t.readClear (DISP_PIPE_STATUS pipe.val) (RegFam.fields .disp_pipe_status))))

end Sys2Proof.Machine
end

