-- ==== Sys2Proof/Machine/Qmgr.lean ====
section
/-! DEFINITION. The Queue Manager's registers and doorbell (16_gateway_time R352-R357, R359), and the accounting of the cell pool (R359, R360). -/

namespace Sys2Proof.Machine

/-- R360: GW_POOL_LOW is raised when the free shared cells fall below LOW_CELLS, and again only after they have risen above twice that. -/
def State.poolCheck (s : State) : State :=
  let free := s.sharedFree
  let low := s.rd QMGR_POOL.LOW_CELLS
  if !s.gw.poolLow && free < low then { s.raise srcGwPoolLow with gw := { (s.raise srcGwPoolLow).gw with poolLow := true } }
  else if s.gw.poolLow && 2 * low < free then { s with gw := { s.gw with poolLow := false } }
  else s

/-! ### The registers of a queue (R353, R354) -/

/-- The word with bits `hi` to `lo` replaced where `c` holds. -/
def setBitsIf (c : Bool) (w hi lo v : Nat) : Nat :=
  if c then w - bits w hi lo * 2 ^ lo + v % 2 ^ (hi + 1 - lo) * 2 ^ lo else w

/-- The writer may write every field of the queue registers. -/
def fullQueueRights (w : Initiator) : Bool := isRegistrar w || isSecCore w

/-- R359: the queue with word `c` may be enabled: it is no network queue, or the reservations fit the pool. -/
def State.cellsFit (s : State) (n : Nat) (q : QRec) (c : Nat) : Bool :=
  !isNetQueue n ||
    decide (s.reservedBut n 14 + q.minCells
      + (if isHostQueue n && bit c 3 && s.hostSum n = 0 then hostCells else 0) ≤ 65536)

/-- A queue starts empty (R353, R354): nobody has sent what its ring held, and nothing of it is in hand. -/
def State.qRestart (s : State) (n : Nat) : State :=
  let s1 := { s with gw := { s.gw with txWait := Table.del s.gw.txWait n } }
  let i := (n - 57344) / 2
  if isMladnel n && n % 2 = 0 then s1.setMb i { s1.mb i with senders := [] } else s1

/-- A write to QMGR_QCFG of queue `n` (R353, R354, R359). -/
def State.qcfgWrite (s : State) (w : Initiator) (n v : Nat) : State :=
  let q := s.queue n
  let full := fullQueueRights w
  let lg := bits v 12 8
  let c1 := setBitsIf true q.c 35 24 (bits v 35 24)
  let c2 := setBitsIf full c1 22 16 (bits v 22 16)
  let c3 := setBitsIf full c2 14 13 (bits v 14 13)
  let c4 := setBitsIf ((isMladnel n || !q.enabled) && 4 ≤ lg && lg ≤ 16) c3 12 8 lg
  let c5 := setBitsIf (full && bits v 7 4 ≤ 6) c4 7 4 (bits v 7 4)
  let c6 := setBitsIf full c5 3 3 (bits v 3 3)
  let turnOn := bit v 15 && !q.enabled && s.cellsFit n q c6
  let c7 := setBitsIf (!bit v 15 || turnOn) c6 15 15 (bits v 15 15)
  let s1 := s.setQueue n { q with
    cfg := BitVec.ofNat 64 c7
    prod := if turnOn then 0 else q.prod
    cons := if turnOn then 0 else q.cons }
  (s1.when turnOn (fun t => t.qRestart n)).poolCheck

/-- A write to QMGR_QBASE of queue `n` (R354): of a Mladnel queue while its mailbox is not negotiated, of any other while it is
disabled. -/
def State.qbaseWrite (s : State) (n v : Nat) : State :=
  let q := s.queue n
  let b := bits v 47 6 * 64
  if isMladnel n then
    if s.on (MLMB_MB_STATUS.NEGOTIATED ((n - 57344) / 2)) then s
    else (s.setQueue n { q with base := b, prod := 0, cons := 0 }).qRestart n
  else if q.enabled then s
  else s.setQueue n { q with base := b }

/-- A write to QMGR_QCELLS of queue `n` (R354). -/
def State.qcellsWrite (s : State) (w : Initiator) (n v : Nat) : State :=
  if isNetQueue n && fullQueueRights w then
    let s1 := s.setQueue n { s.queue n with maxCells := bits v 31 16, minCells := bits v 15 0 }
    s1.poolCheck
  else s

/-- QMGR_QCFG_WRITE (R353). -/
def execQmgrQcfgWrite (who : Initiator) (data : Word) (s : State) : Host.Outcome State Fault Refusal :=
  .next (s.live (s.regWr who .qmgr_qcfg 0 0 (fun t => t.qcfgWrite who (t.qSelected who) data.toNat)))

/-- QMGR_QCFG_READ (R14). -/
def execQmgrQcfgRead (who : Initiator) (s : State) : Host.Outcome State Fault Refusal :=
  .next (s.live (s.regRd who .qmgr_qcfg 0 0 (fun t => (t.queue (t.qSelected who)).c) (fun t => t.qcfgClear (t.qSelected who))))

/-! ### The doorbell (R310, R355-R357) -/

/-- The device moves PROD (side 0) or CONS (side 1) of queue `n` itself. -/
def State.deviceMoves (s : State) (n : Nat) (cons : Bool) : Bool :=
  if isWorkQueue n then cons
  else if isHostQueue n then (if (s.queue n).hostTx then cons else !cons)
  else if isNetQueue n then true
  else if isMladnel n then (if n % 2 = 0 then cons else !cons)
  else !cons

/-- The initiator may use mailbox `i` (R310). -/
def State.mailboxParty (s : State) (w : Initiator) (i : Nat) : Bool :=
  if i < 64 then s.sliceOf w = some i else s.isSecure w || s.ownerMatch (MLMB_PRIV_OWNER (i - 64)) (s.initId w)

/-- R310, R355: why a doorbell is refused, as the REASON of its violation. -/
def State.bellRefused (s : State) (w : Initiator) (n : Nat) (cons : Bool) (count : Nat) : Option Nat :=
  let q := s.queue n
  let delta := (count + 2 ^ 32 - (if cons then q.cons else q.prod)) % 2 ^ 32
  if isMladnel n && !s.mailboxParty w ((n - 57344) / 2) then some 3
  else if !isMladnel n && !s.ownsQueue (s.ctx w) n then some 5
  else if !q.enabled || s.deviceMoves n cons || q.size n < delta then some 5
  else if (if cons then q.occupancy < delta else q.size n < q.occupancy + delta) then some 5
  else none

/-- An accepted doorbell: the count is applied, the senders of new requests are noted, and room in a reply queue lets held replies in. -/
def State.bellApply (s : State) (w : Initiator) (n : Nat) (cons arm : Bool) (count : Nat) : State :=
  let q := s.queue n
  let delta := (count + 2 ^ 32 - (if cons then q.cons else q.prod)) % 2 ^ 32
  let i := (n - 57344) / 2
  let q1 := if cons then { q with cons := count } else { q with prod := count }
  let s1 := s.setQueue n { q1 with cfg := BitVec.ofNat 64 (if arm then setBit q.c 23 else q.c) }
  let s2 := if arm && cons && (s1.queue n).occupancy ≠ 0 then s1.qIrq n else s1
  if !isMladnel n then s2
  else if n % 2 = 0 then s2.setMb i { s2.mb i with senders := (s2.mb i).senders ++ List.replicate delta w }
  else s2.flushReplies i 64

/-- A write to QMGR_DOORBELL (R355). While the Queue Manager does not work, no queue accepts (R21): an error response (log entry 24). -/
def State.doorbell (s : State) (w : Initiator) (v : Nat) : State :=
  let n := bits v 47 32
  if !s.qmgrUp then { s with bus := .error }
  else match s.bellRefused w n (bit v 63) (bits v 31 0) with
  | some r => s.refused w (hubViol r) QMGR_DOORBELL.addr true
  | none => { s.bellApply w n (bit v 63) (bit v 62) (bits v 31 0) with bus := .done }

/-- QMGR_DOORBELL (R355). -/
def execQmgrDoorbell (who : Initiator) (data : Word) (s : State) : Host.Outcome State Fault Refusal :=
  .next (s.live (s.regAccess who .qmgr_doorbell 0 0 true (fun t => t.doorbell who data.toNat)))

end Sys2Proof.Machine
end

