-- ==== Sys2Proof/Machine/Gct.lean ====
section
/-! DEFINITION. The Gateway Classification Table and the gateway's settings (16_gateway_time R359, R363-R367). -/

namespace Sys2Proof.Machine

/-! ### Entries and keys (R364, R365) -/

/-- Fields of an entry. -/
def eAt (e : List Byte) (o n : Nat) : Nat := leAt e o n
def eKeyType (e : List Byte) : Nat := bits (eAt e 0 1) 2 1
def eEthMask (e : List Byte) : Nat := eAt e 12 2
def eCanMask (e : List Byte) : Nat := eAt e 14 2
def eHostQueue (e : List Byte) : Nat := eAt e 16 2
def eClass (e : List Byte) : Nat := bits (eAt e 18 1) 2 0
def eAction (e : List Byte) : Nat := bits (eAt e 18 1) 5 3
def eFlag (e : List Byte) (k : Nat) : Bool := bit (eAt e 19 1) k
def eFilter (e : List Byte) : Nat := eAt e 20 2
def eStream (e : List Byte) : Nat := eAt e 22 2
def eTemplate (e : List Byte) : Nat := eAt e 24 2
def eNewVid (e : List Byte) : Nat := eAt e 26 2
def eNewId (e : List Byte) : Nat := eAt e 28 4

/-- A port number of R349. -/
def isPort (p : Nat) : Bool := p < 14 || (16 ≤ p && p ≤ 32)

/-- R364: no field is out of range, and the masks fit the kind of key. -/
def entryOk (e : List Byte) : Bool :=
  bits (eAt e 0 1) 7 3 = 0 && eKeyType e < 2 && (isPort (eAt e 1 1) || eAt e 1 1 = 0xFF)
    && (if eKeyType e = 0 then eAt e 2 2 < 4096 else eAt e 2 2 < 8 && eAt e 4 4 < 2 ^ 29 && eAt e 8 2 = 0)
    && eAt e 10 2 = 0 && eEthMask e < 2 ^ 14 && (eHostQueue e = 0 || (256 ≤ eHostQueue e && eHostQueue e < 24576))
    && eAction e < 4 && bits (eAt e 18 1) 7 6 = 0 && bits (eAt e 19 1) 7 4 = 0
    && (eFilter e < 4096 || eFilter e = 0xFFFF) && (eStream e < 2048 || eStream e = 0xFFFF) && eTemplate e < 256
    && eNewVid e < 4096 && eNewId e < 2 ^ 29 && (eCanMask e = 0 || eClass e < 4)
    && !(eKeyType e = 1 && eEthMask e ≠ 0 && eAction e ≠ 2) && !(eKeyType e = 0 && eCanMask e ≠ 0 && eAction e ≠ 3)

/-- The key of an entry: bytes 0 to 9, with bit 0 of byte 0 taken as 0 (R365). -/
def keyOf (e : List Byte) : List Byte := leBytes 1 (eAt e 0 1 / 2 * 2) ++ (e.drop 1).take 9

/-- The bucket of a key (R365). -/
def bucketOf (key : List Byte) : Nat := crc32c key % 16384

/-- An entry as the table holds it: VALID set. -/
def validEntry (e : List Byte) : List Byte := leBytes 1 (eAt e 0 1 / 2 * 2 + 1) ++ (e.drop 1).take 31

/-! ### The banks -/

/-- The active bank. -/
def State.activeBank (s : State) : Nat := s.rd GW_GCT_CTRL.ACTIVE
def State.bank (s : State) (b : Nat) : Table (List Byte) := if b = 0 then s.gw.bank0 else s.gw.bank1
def State.setBank (s : State) (b : Nat) (t : Table (List Byte)) : State :=
  if b = 0 then { s with gw := { s.gw with bank0 := t } } else { s with gw := { s.gw with bank1 := t } }

/-- A way whose word is uncorrectable (R366). -/
def State.wayBad (s : State) (b i : Nat) : Bool := s.gw.badWays.contains (b * 65536 + i)

/-- The way is rewritten: its mark goes. -/
def State.wayClean (s : State) (b i : Nat) : State :=
  { s with gw := { s.gw with badWays := s.gw.badWays.filter (· ≠ b * 65536 + i) } }

/-- The index that holds a key in bank `b`. -/
def State.keyIndex (s : State) (b : Nat) (key : List Byte) : Option Nat :=
  ((List.range 4).map (fun w => 4 * bucketOf key + w)).find? (fun i =>
    !s.wayBad b i && (match Table.find (s.bank b) i with | some e => keyOf e = key | none => false))

/-- The lowest free way of a key's bucket. -/
def State.freeWay (s : State) (b : Nat) (key : List Byte) : Option Nat :=
  ((List.range 4).map (fun w => 4 * bucketOf key + w)).find? (fun i => (Table.find (s.bank b) i).isNone)

/-- ENTRIES: the valid entries of the inactive bank. -/
def State.countEntries (s : State) : State := s.wr GW_GCT_CTRL.ENTRIES (s.bank (1 - s.activeBank)).length

/-- R365: insert an entry into bank `b`: RESULT and the index placed. -/
def State.gctPlace (s : State) (b : Nat) (e : List Byte) : State × Nat × Option Nat :=
  if !entryOk e then (s, 4, none)
  else if (s.keyIndex b (keyOf e)).isSome then (s, 2, none)
  else
    match s.freeWay b (keyOf e) with
    | none => (s, 1, none)
    | some i => ((s.setBank b (Table.put (s.bank b) i (validEntry e))).wayClean b i, 0, some i)

/-- The entry in GW_GCT_DATA0-3. -/
def State.gctData (s : State) : List Byte := (List.range 4).flatMap (fun k => leBytes 8 (s.reg64 (GW_GCT_DATA k)))

/-- OP INSERT. -/
def State.gctInsertOp (s : State) : State :=
  let p := s.gctPlace (1 - s.activeBank) s.gctData
  let s1 := p.1.wr GW_GCT_CTRL.RESULT p.2.1
  let s2 := match p.2.2 with | some i => s1.wr GW_GCT_CTRL.INDEX i | none => s1
  s2.countEntries

/-- OP DELETE. -/
def State.gctDeleteOp (s : State) : State :=
  let b := 1 - s.activeBank
  match s.keyIndex b (keyOf s.gctData) with
  | none => s.wr GW_GCT_CTRL.RESULT 3
  | some i => ((s.setBank b (Table.del (s.bank b) i)).wr GW_GCT_CTRL.RESULT 0).countEntries

/-- OP READ: an index that holds no entry returns zeros. -/
def State.gctReadOp (s : State) : State :=
  let e := (Table.find (s.bank (s.rd GW_GCT_CTRL.READ_BANK)) (s.rd GW_GCT_CTRL.INDEX)).getD (List.replicate 32 0#8)
  ((List.range 4).foldl (fun (u : State) k => u.setReg64 (GW_GCT_DATA k) (leAt e (8 * k) 8)) s).wr GW_GCT_CTRL.RESULT 0

/-- OP COPY starts: GO reads 1 until it ends. -/
def State.gctCopyOp (s : State) : State :=
  let t := s.wr GW_GCT_CTRL.GO 1
  { t with gw := { t.gw with copyBusy := true } }

/-- OP SWITCH. -/
def State.gctSwitchOp (s : State) : State :=
  ((s.wr GW_GCT_CTRL.ACTIVE (1 - s.activeBank)).wr GW_GCT_CTRL.RESULT 0).countEntries

/-- A write to GW_GCT_CTRL (R366): a GO while busy has no effect; operations 5 to 7 are not used and do nothing. -/
def State.gctCtrlWrite (s : State) (v : Nat) : State :=
  let s1 := ((s.wr GW_GCT_CTRL.OP (bits v 62 60)).wr GW_GCT_CTRL.READ_BANK (bits v 16 16)).wr GW_GCT_CTRL.INDEX (bits v 15 0)
  if !bit v 63 || s.gw.copyBusy then s1
  else
    match bits v 62 60 with
    | 0 => s1.gctInsertOp
    | 1 => s1.gctDeleteOp
    | 2 => s1.gctReadOp
    | 3 => s1.gctCopyOp
    | 4 => s1.gctSwitchOp
    | _ => s1

/-- A write of GW_GCT_CTRL that starts operation `op`. -/
def State.gctCommand (s : State) (w : Initiator) (op v : Nat) : State :=
  if bit v 63 && bits v 62 60 = op then s.regWr w .gw_gct_ctrl 0 0 (fun t => t.gctCtrlWrite v) else s

/-- GCT_INSERT (R365). -/
def execGctInsert (who : Initiator) (data : Word) (s : State) : Host.Outcome State Fault Refusal :=
  .next (s.live (s.gctCommand who 0 data.toNat))

/-- GCT_DELETE (R366). -/
def execGctDelete (who : Initiator) (data : Word) (s : State) : Host.Outcome State Fault Refusal :=
  .next (s.live (s.gctCommand who 1 data.toNat))

/-- GCT_READ (R366). -/
def execGctRead (who : Initiator) (data : Word) (s : State) : Host.Outcome State Fault Refusal :=
  .next (s.live (s.gctCommand who 2 data.toNat))

/-- GCT_COPY (R366). -/
def execGctCopy (who : Initiator) (data : Word) (s : State) : Host.Outcome State Fault Refusal :=
  .next (s.live (s.gctCommand who 3 data.toNat))

/-- GCT_SWITCH (R366). -/
def execGctSwitch (who : Initiator) (data : Word) (s : State) : Host.Outcome State Fault Refusal :=
  .next (s.live (s.gctCommand who 4 data.toNat))

/-- GCT_COPY_END (R366): the inactive bank holds what the active bank holds; a way that is uncorrectable there is copied as empty. -/
def execGctCopyEnd (s : State) : Host.Outcome State Fault Refusal :=
  .next (s.live (
    if !s.gw.copyBusy then s
    else
      let a := s.activeBank
      let b := 1 - a
      let s1 := s.setBank b ((s.bank a).filter (fun p => !s.wayBad a p.1))
      let s2 := { s1 with gw := { s1.gw with
        copyBusy := false
        badWays := s1.gw.badWays.filter (fun i => i / 65536 ≠ b) } }
      ((s2.wr GW_GCT_CTRL.GO 0).wr GW_GCT_CTRL.RESULT 0).countEntries))

/-! ### Ports (R359, R367) -/

/-- GW_PORT_DOWN asserts while some port is enabled and its link is down. -/
def State.portDownCheck (s : State) : State :=
  s.levelSrc srcGwPortDown ((List.range 14).any (fun p => s.on (GW_PORT_CFG.ENABLE p) && !s.on (GW_PORT_CFG.LINK p)))

/-- MTU accepts 64 to 9,216. -/
def portCfgOk (x : Fld) (n : Nat) : Bool := if x.lo = 36 then decide (64 ≤ n) && decide (n ≤ 9216) else x.lo ≠ 0

/-- A write to GW_PORTp_CFG: ENABLE is left at 0 where the reservations would not fit the pool (R359). -/
def State.portCfgWrite (s : State) (p v : Nat) : State :=
  let s1 := s.plainWrite (GW_PORT_CFG p) (RegFam.fields .gw_port_cfg) false v portCfgOk
  let fits := decide (s1.reservedBut 65536 p + mtuCells (s1.rd (GW_PORT_CFG.MTU p)) ≤ 65536)
  let s2 :=
    if !bit v 0 then s1.wr (GW_PORT_CFG.ENABLE p) 0
    else if s.on (GW_PORT_CFG.ENABLE p) then s1
    else s1.wr (GW_PORT_CFG.ENABLE p) (b2n fits)
  s2.portDownCheck.poolCheck

/-- GW_PORT_CFG_WRITE (R359, R367). -/
def execGwPortCfgWrite (who : Initiator) (port : Fin 14) (data : Word) (s : State) : Host.Outcome State Fault Refusal :=
  .next (s.live (s.regWr who .gw_port_cfg port.val 0 (fun t => t.portCfgWrite port.val data.toNat)))

/-- A managed object (R366): the value of GW_OBJ_VALUE under the code and instance of GW_OBJ_SEL. A write of a counter has no effect. -/
def State.objWrite (s : State) (v : Nat) : State :=
  if (Table.find s.gw.mibObjs (s.reg64 GW_OBJ_SEL)).isSome then s
  else { s with gw := { s.gw with objects := Table.set s.gw.objects 0#64 (s.reg64 GW_OBJ_SEL) (BitVec.ofNat 64 v) } }

/-! ### The gateway image (R363) -/

/-- A network queue as the image sets it. -/
def State.loadGwQueue (s : State) (g : GwQueue) : State :=
  if isNetQueue g.queue then
    let s1 := s.setQueue g.queue { s.queue g.queue with minCells := g.minCells % 65536, maxCells := g.maxCells % 65536 }
    let q := s1.queue g.queue
    s1.qcfgWrite secCore g.queue (setBitsIf true q.c 15 15 (b2n g.enable))
  else s

/-- A CAN controller enabled by the image, if its reserve fits the pool (R359, R360). -/
def State.enableCan (s : State) (k : Nat) : State :=
  if s.gw.canOn.contains k || 65536 < s.reserved + canCells then s
  else { s with gw := { s.gw with canOn := s.gw.canOn ++ [k] } }

/-- An entry of the image, inserted into bank 0 or counted as skipped (R365). -/
def State.loadEntry (s : State) (e : List Byte) : State :=
  let p := s.gctPlace 0 e
  if p.2.1 = 0 then p.1 else p.1.satAdd GW_GCT_CTRL.SKIPPED 1

/-- R350: 1 to 256 entries of 1 to 10^9 ns, and a cycle of at most 1 s. -/
def gateListOk (l : GateList) : Bool :=
  !l.entries.isEmpty && l.entries.length ≤ 256 && l.entries.all (fun e => 1 ≤ e.2 && e.2 ≤ 1000000000) && 1 ≤ l.cycle && l.cycle ≤ 1000000000

/-- The next cycle of a list that begins at or after `t`. -/
def gateBegins (l : GateList) (t : Nat) : Nat := if t ≤ l.base then l.base else l.base + ceilDiv (t - l.base) l.cycle * l.cycle

def mibCode : MibKind → Nat
  | .rxFrames => 0 | .rxOctets => 1 | .rxBadFcs => 2 | .txFrames => 3 | .txOctets => 4 | .txBadFcs => 5

/-- The objects of the image on which the device acts: gate control lists within the limits of R350, shapers, counters. -/
def State.loadObjects (s : State) (o : GatewayObjects) : State :=
  { s with gw := { s.gw with
    gates := (o.gates.filter (fun p => gateListOk p.2)).foldl (fun t p => Table.put t p.1.val ⟨p.2, gateBegins p.2 s.clock.now, none⟩) s.gw.gates
    shapers := o.slopes.foldl (fun t p => Table.put t p.1 ⟨p.2, 0, s.clock.now, 0⟩) s.gw.shapers
    mibObjs := o.counters.foldl (fun t p => Table.put t (p.1 % 2 ^ 32) (8 * p.2.1 + mibCode p.2.2)) s.gw.mibObjs } }

/-- The time settings of the image: SYNC_EN, the PHY delays, and STATE GRANDMASTER where the configuration makes the device the grandmaster (R350, R370,
R371). -/
def State.loadTime (s : State) (t : TimeSettings) : State :=
  let s1 := { s with gw := { s.gw with phy := t.phyDelays.foldl (fun (u : Table Nat) (p : Fin 14 × Nat) => Table.set u 0 p.1.val p.2) s.gw.phy } }
  (s1.wr TIME_CTRL.SYNC_EN (b2n t.syncEn)).when (t.syncEn && t.master) (fun u => u.wr TIME_STATUS.STATE 4)

/-- A good gateway image: its entries in image order, its queues, ports and controllers, its templates and objects, its time settings. -/
def State.loadGateway (s : State) (c : GatewayContent) : State :=
  let s1 := s.each c.entries State.loadEntry
  let s2 := s1.each c.queues State.loadGwQueue
  let s3 := s2.each c.ports (fun u p => u.portCfgWrite p.1.val p.2.toNat)
  let s4 := s3.each c.canPorts (fun u k => u.enableCan k.val)
  let s5 := { s4 with gw := { s4.gw with
    templates := c.templates.foldl (fun (t : Table Template) (p : Nat × Template) => Table.put t (p.1 % 256) p.2) s4.gw.templates
    objects := c.objects.foldl (fun (t : Table Word) (p : Nat × Word) => Table.set t 0#64 (p.1 % 2 ^ 32) p.2) s4.gw.objects } }
  ((s5.loadObjects c.acts).loadTime c.time).poolCheck

/-- GATEWAY_IMAGE_LOAD (R363, R395): an image from a root that Lessons may not chain to fails verification. -/
def execGatewayImageLoad (image : GatewayImage) (s : State) : Host.Outcome State Fault Refusal :=
  .next (s.live (
    if !s.scRunning || s.boot.gwDone then s
    else
      let s1 := { s with boot := { s.boot with gwDone := true } }
      match image with
      | .absent => s1.noteService
      | .invalid => (s1.raise srcFwAuthFail).noteService
      | .good root c => if s1.rootOk root then (s1.loadGateway c).noteService else (s1.raise srcFwAuthFail).noteService))

end Sys2Proof.Machine
end

