-- ==== Sys2Proof/Machine/Egress.lean ====
section
/-! DEFINITION. When an Ethernet port may start a frame: line times, gate control lists, credit-based shapers and strict priority
(16_gateway_time R350, R368); the frame counters (18_long_run R401). -/

namespace Sys2Proof.Machine

/-! ### Frames in queues -/

/-- The frames that queue `q` holds, in order. -/
def State.heldBy (s : State) (q : Nat) : List Nat := Table.get s.gw.held [] q
def State.frame? (s : State) (i : Nat) : Option GwFrame := Table.find s.gw.frames i

/-- The egress port and the class of an Ethernet queue. -/
def portOf (q : Nat) : Nat := (q - 32768) / 8
def classOf (q : Nat) : Nat := q % 8

/-! ### Line times (R349; log entry 93) -/

/-- The line rate of an Ethernet port in Mb/s (R349). -/
def State.portRate (s : State) (p : Nat) : Nat :=
  if p < 2 then 25000 else if p < 10 then 10000 else if s.rd (GW_PORT_CFG.SPEED p) = 1 then 100 else 1000

/-- The time in ns that `n` bytes and the preamble take at port `p`, rounded up. -/
def State.lineTime (s : State) (p n : Nat) : Nat := ceilDiv ((n + 8) * 8000) (s.portRate p)

/-- Port `p` is transmitting. -/
def State.portBusy (s : State) (p : Nat) : Bool := decide (s.clock.now < Table.get s.gw.busy 0 p)

/-! ### IEEE 802.1Qbv (R350) -/

/-- The gate of a class is open in entry `k` of the list. -/
def gateOpenIn (l : GateList) (k c : Nat) : Bool := bit (l.entries.getD k (0#8, 0)).1.toNat c

/-- The entry after entry `k`: its number, and when it ends, where entry `k` ends at `t` and the cycle that holds it began at `start`. The last entry lasts
to the end of its cycle, and no entry goes beyond it. -/
def gateAfter (l : GateList) (start t k : Nat) : Nat × Nat × Nat :=
  let last := fun j => l.entries.length ≤ j + 1
  let stop := fun (from' s j : Nat) => if last j then s + l.cycle else min (from' + (l.entries.getD j (0#8, 1)).2) (s + l.cycle)
  if last k || start + l.cycle ≤ t then (0, start + l.cycle, stop (start + l.cycle) (start + l.cycle) 0)
  else (k + 1, start, stop t start (k + 1))

/-- The gate of class `c` stays open up to time `until'`, from entry `k`, which ends at `t`, through at most `n` further entries. -/
def gateStaysFrom (l : GateList) (c until' : Nat) : Nat → Nat → Nat → Nat → Bool
  | 0, _, _, _ => true
  | n + 1, start, t, k =>
    gateOpenIn l k c && (decide (until' ≤ t) || (let x := gateAfter l start t k; gateStaysFrom l c until' n x.2.1 x.2.2 x.1))

/-- The gate of class `c` of port `p` is open and stays open for `d` ns. A port without a list, and one whose list has not started, has every gate open. -/
def State.gateStays (s : State) (p c d : Nat) : Bool :=
  match Table.find s.gw.gates p with
  | none => true
  | some g =>
    match g.place with
    | none => true
    | some (k, start, stop) => gateStaysFrom g.list c (s.clock.now + d) (g.list.entries.length + 1) start stop k

/-- The list of port `p` moves on once its present entry has ended, or starts once the cycle for which it waits begins (ConfigChange). -/
def GateRun.next (g : GateRun) (now : Nat) : GateRun :=
  match g.place with
  | none =>
    if now < g.starts then g
    else { g with place := some (0, g.starts,
            if g.list.entries.length ≤ 1 then g.starts + g.list.cycle
            else min (g.starts + (g.list.entries.getD 0 (0#8, 1)).2) (g.starts + g.list.cycle)) }
  | some (k, start, stop) =>
    if now < stop then g else let x := gateAfter g.list start stop k; { g with place := some (x.1, x.2.1, x.2.2) }

/-! ### IEEE 802.1Qav (R350; log entry 93) -/

/-- The credit of a shaper `t` ns into its time: it falls by the difference of slope and line rate while the class sends, rises by the slope while
the class has frames waiting or is below 0, and goes to 0 when it is above 0 with none waiting. -/
def Shaper.creditAt (h : Shaper) (rate now : Nat) (waiting : Bool) : Int :=
  let sent : Nat := min now h.sendEnd - h.since
  let idle : Nat := now - max h.since h.sendEnd
  let c := h.credit + ((h.slope : Int) - (rate * 1000 : Nat)) * sent
  if waiting then c + h.slope * idle else if c < 0 then min 0 (c + h.slope * idle) else if now < h.sendEnd then c else 0

/-- The credit of queue `q` now, in millionths of a bit. -/
def State.creditOf (s : State) (q : Nat) (h : Shaper) : Int :=
  h.creditAt (s.portRate (portOf q)) s.clock.now (!(s.heldBy q).isEmpty)

/-- The class of queue `q` has no shaper, or a credit of at least 0. -/
def State.creditOk (s : State) (q : Nat) : Bool :=
  match Table.find s.gw.shapers q with
  | none => true
  | some h => decide (0 ≤ s.creditOf q h)

/-- The shaper of queue `q` is brought up to now, and sends until `stop`. -/
def State.settleCredit (s : State) (q : Nat) (stop : Option Nat) : State :=
  match Table.find s.gw.shapers q with
  | none => s
  | some h =>
    { s with gw := { s.gw with
      shapers := Table.put s.gw.shapers q { h with credit := s.creditOf q h, since := s.clock.now, sendEnd := stop.getD h.sendEnd } } }

/-- The frames of queue `q` become `l`. -/
def State.setHeld (s : State) (q : Nat) (l : List Nat) : State :=
  let s1 := s.settleCredit q none
  { s1 with gw := { s1.gw with held := Table.set s1.gw.held [] q l } }

/-! ### Strict priority (R350, R368) -/

/-- R350: the head of class queue `q` can start now: its gate stays open to its end, and its shaper allows it. -/
def State.canStart (s : State) (q : Nat) : Bool :=
  match s.heldBy q with
  | [] => false
  | i :: _ =>
    (match s.frame? i with | some f => s.gateStays (portOf q) (classOf q) (s.lineTime (portOf q) (f.bytes.length + 4)) | none => true)
      && s.creditOk q

/-- R350: port `p` starts a frame of class `c` now: it sends nothing, the class can start, and no higher class can. -/
def State.classTurn (s : State) (p c : Nat) : Bool :=
  !s.portBusy p && s.canStart (ethQueue p c) && (List.range 8).all (fun k => k ≤ c || !s.canStart (ethQueue p k))

/-- R368: a frame from port `a` may go cut-through to port `b`, as far as ports and settings decide it. -/
def State.cutPorts (s : State) (a b : Nat) : Bool :=
  a < 10 && b < 10 && s.on (GW_PORT_CFG.CUT_THROUGH a) && decide (s.portRate b ≤ s.portRate a)

/-- R368: a frame from port `a` goes cut-through to class queue `q`. -/
def State.cutNow (s : State) (a q : Nat) : Bool :=
  let p := portOf q
  s.cutPorts a p && (s.heldBy q).isEmpty && !s.portBusy p
    && s.gateStays p (classOf q) (s.lineTime p (s.rd (GW_PORT_CFG.MTU p))) && s.creditOk q

/-! ### Counters (R368, R401; log entry 94) -/

/-- Counter `k` of port `p` (R349) grows by `n`. -/
def State.mibAdd (s : State) (p : Nat) (k : MibKind) (n : Nat) : State :=
  { s with gw := { s.gw with mib := Table.set s.gw.mib 0 (8 * p + mibCode k) ((Table.get s.gw.mib 0 (8 * p + mibCode k) + n) % 2 ^ 64) } }

/-- A frame of `n` octets has been received or sent at port `p`, with a bad FCS or a good one. -/
def State.mibRx (s : State) (p n : Nat) (bad : Bool) : State :=
  (((s.mibAdd p .rxFrames 1).mibAdd p .rxOctets n)).when bad (fun t => t.mibAdd p .rxBadFcs 1)
def State.mibTx (s : State) (p n : Nat) (bad : Bool) : State :=
  (((s.mibAdd p .txFrames 1).mibAdd p .txOctets n)).when bad (fun t => t.mibAdd p .txBadFcs 1)

end Sys2Proof.Machine
end

