-- ==== Sys2Proof/Machine/Gateway.lean ====
section
/-! DEFINITION. Frames through the gateway (16_gateway_time R349-R351, R356, R359-R362, R364, R366, R368, R370, R418). -/

namespace Sys2Proof.Machine

/-! ### What the gateway needs (R21, R389) -/

/-- The switch works: the Hub fabric, the time unit, the Queue Manager and the gateway's own domain run. -/
def State.gwUp (s : State) : Bool := [2, 6, 16, 17].all s.domainOn
/-- Ethernet port `p`, or a CAN controller, takes part in forwarding. -/
def State.ethUp (s : State) (p : Nat) : Bool := s.gwUp && s.domainOn (if p < 2 then 18 else if p < 10 then 19 else 20)
def State.canUp (s : State) : Bool := s.gwUp && s.domainOn 21

/-! ### The pool (R359, R360) -/

/-- Cells of a frame: an Ethernet frame counts with its FCS, a CAN frame with 16 bytes of fields beside its data (log entry 32). -/
def ethCells (bytes : List Byte) : Nat := ceilDiv (bytes.length + 4) 256
def canFrameCells (f : CanFrame) : Nat := ceilDiv (f.data.length + 16) 256

/-- A frame of `c` cells is admitted to queue `q` within its minimum, or from the shared remainder. -/
def State.inMin (s : State) (q c : Nat) : Bool := decide ((s.queue q).used + c ≤ (s.queue q).minCells)
def State.admits (s : State) (q c : Nat) : Bool :=
  (s.queue q).enabled && (s.inMin q c || (decide ((s.queue q).used + c ≤ (s.queue q).maxCells) && decide (c ≤ s.sharedFree)))

/-- USED of queue `q` grows or shrinks. -/
def State.charge (s : State) (q c : Nat) : State := s.setQueue q { s.queue q with used := (s.queue q).used + c }
def State.uncharge (s : State) (q c : Nat) : State := s.setQueue q { s.queue q with used := (s.queue q).used - c }

/-! ### Transmit entries that wait for their timestamp (R362) -/

/-- CONS passes the entries at the front that are done. -/
def State.txPass (s : State) (q : Nat) : List Nat → State
  | 0 :: t => State.txPass (s.qConsume q) q t
  | l => { s with gw := { s.gw with txWait := Table.set s.gw.txWait [] q l } }

/-- Entry `i` of the ring is done. -/
def State.txDone (s : State) (q i : Nat) : State :=
  let k := (i + 2 ^ 32 - (s.queue q).cons) % 2 ^ 32
  s.txPass q ((Table.get s.gw.txWait [] q).set k 0)

/-- The timestamp of the entry is written back, and the entry is done. -/
def State.stampBack (s : State) (ts : Option (Nat × Nat)) : State :=
  match ts with
  | none => s
  | some (q, i) =>
    let r := s.queue q
    ((s.ctxWrite r.devCtx (r.entryAddr q i + 24) (leBytes 8 s.clock.now)).1).txDone q i

/-- An entry whose frame goes nowhere has no egress and gets no timestamp. -/
def State.txAbandon (s : State) (ts : Option (Nat × Nat)) : State :=
  match ts with
  | none => s
  | some (q, i) => s.txDone q i

/-! ### Storing and freeing frames -/

/-- Queue `q` gives up its copy of frame `i`; the cells are free when the last copy has gone. -/
def State.dropCopy (s : State) (q i : Nat) : State :=
  match s.frame? i with
  | none => s
  | some f =>
    let s1 := (s.uncharge q f.cells).setHeld q ((s.heldBy q).filter (· ≠ i))
    let rest := f.copies.filter (· ≠ q)
    if rest.isEmpty then
      let s2 := { s1 with gw := { s1.gw with frames := Table.del s1.gw.frames i } }
      (s2.txAbandon f.tsBack).poolCheck
    else { s1 with gw := { s1.gw with frames := Table.put s1.gw.frames i { f with copies := rest } } }

/-- Every copy of frame `i` goes. -/
def State.dropFrame (s : State) (i : Nat) : State :=
  match s.frame? i with
  | none => s
  | some f => s.each f.copies (fun u q => u.dropCopy q i)

/-- R361: the receive descriptor of a frame. -/
def rxDescriptor (f : GwFrame) : List Byte :=
  match f.can with
  | some c =>
    leBytes 2 c.data.length ++ leBytes 1 f.port ++ leBytes 1 (b2n f.isDefault * 2 + b2n c.fdf * 4 + b2n c.brs * 8 + b2n c.xlf * 16 + b2n c.ide * 32)
      ++ leBytes 4 c.ident ++ leBytes 8 f.stamp ++ [c.sdt, c.vcid, 0#8, 0#8] ++ leBytes 4 c.af.toNat ++ leBytes 8 0
  | none =>
    let tagged := leAt f.bytes 12 2 = 0x0081
    leBytes 2 f.bytes.length ++ leBytes 1 f.port ++ leBytes 1 (b2n tagged + b2n f.isDefault * 2)
      ++ (if tagged then [f.bytes.getD 15 0#8, f.bytes.getD 14 0#8, 0#8, 0#8] else leBytes 4 0)
      ++ leBytes 8 f.stamp ++ leBytes 16 0

/-- The bytes of a frame as a slot holds them. -/
def GwFrame.payload (f : GwFrame) : List Byte := match f.can with | some c => c.data | none => f.bytes

/-- R358, R361, R418: a host receive queue takes a frame: the slot, then the descriptor; otherwise the frame is dropped for it. -/
def State.deliver (s : State) (q : Nat) (f : GwFrame) : State :=
  let r := s.queue q
  let slot := 2 ^ (bits r.c 7 4 + 8)
  if !s.qFits q 32 || r.hostTx || s.qFull q || slot < f.payload.length then s.qDrop q
  else
    let p := s.ctxWrite r.devCtx (r.base + 32 * r.size q + (r.prod + s.qLate q) % r.size q * slot) f.payload
    if p.2 then p.1.qWrite q (rxDescriptor f) else p.1.qDrop q

/-- R359, R360: a frame bound for queues `qs`: each admits it at `c` cells, or drops its copy; it is stored once
and charged to each queue that holds it; host queues are served at once. A frame that no queue holds leaves nothing. -/
def State.store (s : State) (f : GwFrame) (qs : List Nat) (c : Nat) : State :=
  let ok := qs.filter (fun q => s.admits q c)
  let s1 := s.each (qs.filter (fun q => !s.admits q c)) State.qDrop
  match ok with
  | [] => s1.txAbandon f.tsBack
  | _ =>
    let i := s1.gw.nextFrame
    let g := { f with copies := ok, charged := ok.find? (fun q => s.inMin q c) }
    let s2 := { s1 with gw := { s1.gw with nextFrame := i + 1, frames := Table.put s1.gw.frames i g } }
    let s3 := s2.each ok (fun u q => (u.charge q f.cells).setHeld q (u.heldBy q ++ [i]))
    (s3.poolCheck).each (ok.filter isHostQueue) (fun u q => (u.deliver q f).dropCopy q i)

/-! ### Lookup (R364-R366) -/

/-- Look a key up in the ways of its bucket, the lower way first: an uncorrectable way is a miss and raises GW_TABLE_UE. -/
def State.searchWays (s : State) (b : Nat) (key : List Byte) : List Nat → State × Option (List Byte)
  | [] => (s, none)
  | i :: t =>
    if s.wayBad b i then State.searchWays (s.raise srcGwTableUe) b key t
    else
      match Table.find (s.bank b) i with
      | some e => if keyOf e = key then (s, some e) else State.searchWays s b key t
      | none => State.searchWays s b key t

/-- R366: ways of the active bank whose words a lookup finds uncorrectable stay marked. -/
def State.markWays (s : State) (ways : List Nat) : State :=
  let b := s.activeBank
  let new := (ways.map (fun i => b * 65536 + i % 65536)).filter (fun m => !s.gw.badWays.contains m)
  { s with gw := { s.gw with badWays := s.gw.badWays ++ new } }

/-- The key of a frame with ingress port `port` (R364). -/
def ethKey (port : Nat) (bytes : List Byte) (vid : Nat) : List Byte := leBytes 1 0 ++ leBytes 1 port ++ leBytes 2 vid ++ bytes.take 6
def canKey (port : Nat) (f : CanFrame) : List Byte :=
  leBytes 1 2 ++ leBytes 1 port ++ leBytes 2 (b2n f.ide + b2n f.fdf * 2 + b2n f.xlf * 4) ++ leBytes 4 (f.ident % 2 ^ 29) ++ leBytes 2 0

/-- R366: the ingress port's key first, then that of any port, in the active bank. -/
def State.lookup (s : State) (key : Nat → List Byte) (port : Nat) : State × Option (List Byte) :=
  let b := s.activeBank
  let ways := fun (k : List Byte) => (List.range 4).map (fun w => 4 * bucketOf k + w)
  let p := s.searchWays b (key port) (ways (key port))
  match p.2 with
  | some e => (p.1, some e)
  | none => p.1.searchWays b (key 0xFF) (ways (key 0xFF))

/-! ### Ethernet frames (R350) -/

/-- The frame carries a C-VLAN tag; its tag control information, and the VID of the key, 0 for untagged. -/
def isTagged (b : List Byte) : Bool := leAt b 12 2 = 0x0081
def tciOf (b : List Byte) : Nat := (b.getD 14 0#8).toNat * 256 + (b.getD 15 0#8).toNat
def vidOf (b : List Byte) : Nat := if isTagged b then tciOf b % 4096 else 0

/-- Bytes in network order. -/
def beBytes (n v : Nat) : List Byte := (leBytes n v).reverse

/-- VID_REWRITE: the tag carries the new VID; an untagged frame gets a tag with its class. -/
def rewriteVid (b : List Byte) (cls vid : Nat) : List Byte :=
  if isTagged b then b.take 14 ++ beBytes 2 (tciOf b / 4096 * 4096 + vid) ++ b.drop 16
  else b.take 12 ++ [0x81#8, 0x00#8] ++ beBytes 2 (cls * 8192 + vid) ++ b.drop 12

/-- 802.1CB sequence generation: the redundancy tag behind the addresses and the C-VLAN tag (log entry 20). -/
def addRtag (b : List Byte) (seq : Nat) : List Byte :=
  let n := if isTagged b then 16 else 12
  b.take n ++ [0xF1#8, 0xC1#8, 0x00#8, 0x00#8] ++ beBytes 2 seq ++ b.drop n

/-- The next sequence number of a stream or template. -/
def State.nextSeq (s : State) (key m : Nat) : State × Nat :=
  let n := Table.get s.gw.seqNo 0 key
  ({ s with gw := { s.gw with seqNo := Table.set s.gw.seqNo 0 key ((n + 1) % m) } }, n)

/-! ### IEEE 1722 (R350, R364; log entry 20) -/

/-- ENCAP: a CAN frame as an NTSCF Ethernet frame with one ACF CAN message. -/
def encap (t : Template) (f : CanFrame) (stamp seq : Nat) : List Byte :=
  let pad := (4 - f.data.length % 4) % 4
  let quads := 4 + (f.data.length + pad) / 4
  let msg := beBytes 2 (1 * 512 + quads)
    ++ leBytes 1 (pad * 64 + 32 + b2n f.ide * 8 + b2n f.brs * 4 + b2n f.fdf * 2) ++ leBytes 1 (t.busId.toNat % 32)
    ++ beBytes 8 stamp ++ beBytes 4 (f.ident % 2 ^ 29) ++ f.data ++ List.replicate pad 0#8
  t.dst ++ t.src ++ [0x81#8, 0x00#8] ++ beBytes 2 t.tci.toNat ++ [0x22#8, 0xF0#8]
    ++ [0x82#8] ++ beBytes 2 (0x8000 + msg.length % 2048) ++ leBytes 1 seq ++ beBytes 8 t.streamId.toNat ++ msg

/-- The CAN frames of the ACF messages in a payload: types 1 (ACF CAN) and 2 (ACF CAN Brief). -/
def acfFrames : Nat → List Byte → List CanFrame
  | 0, _ => []
  | n + 1, b =>
    let w := (b.getD 0 0#8).toNat * 256 + (b.getD 1 0#8).toNat
    let ty := w / 512
    let len := w % 512 * 4
    if len = 0 ∨ b.length < len then []
    else
      let fl := (b.getD 2 0#8).toNat
      let hd := if ty = 1 then 12 else 4
      let rest := acfFrames n (b.drop len)
      if (ty = 1 ∨ ty = 2) ∧ hd + 4 + fl / 64 ≤ len then
        let ident := leNat ((b.drop hd).take 4).reverse % 2 ^ 29
        let data := (b.drop (hd + 4)).take (len - hd - 4 - fl / 64)
        ⟨ident, bit fl 3, bit fl 1, bit fl 2, false, 0#8, 0#8, 0#32, data⟩ :: rest
      else rest

/-- DECAP: the CAN frames that an IEEE 1722 frame carries. -/
def decap (b : List Byte) : List CanFrame :=
  let p := b.drop (if isTagged b then 16 else 12)
  if p.take 2 ≠ [0x22#8, 0xF0#8] then []
  else
    let a := p.drop 2
    match (a.getD 0 0#8).toNat with
    | 0x82 => acfFrames a.length (a.drop 12)
    | 0x05 => acfFrames a.length (a.drop 24)
    | _ => []

/-! ### Forwarding (R359, R364, R366, R368) -/

/-- R359: a frame for a port that is disabled or whose link is down is refused; its queue drops the copy. -/
def State.portTakes (s : State) (p : Nat) : Bool := s.on (GW_PORT_CFG.ENABLE p) && s.on (GW_PORT_CFG.LINK p)

/-- The Ethernet queues of class `cls` for the ports of a mask. -/
def ethQueues (mask cls : Nat) : List Nat := ((List.range 14).filter (bit mask)).map (fun p => ethQueue p cls)

/-- The CAN queues for the controllers of a mask. -/
def canQueues (mask j : Nat) : List Nat := ((List.range 16).filter (bit mask)).map (fun k => canQueue k j)

/-- The host receive queue of an entry: global number, none for 0. -/
def hostQueues (local_ : Nat) : List Nat := if local_ = 0 then [] else [32768 + local_]

/-- Forward an Ethernet frame to queues; a frame with a bad FCS or an uncorrectable cell goes only where it goes cut-through (R360, R368). -/
def State.forwardEth (s : State) (f : GwFrame) (qs : List Nat) (c : Nat) : State :=
  let dead := fun q => !isHostQueue q && !s.portTakes (portOf q)
  let s1 := s.each (qs.filter dead) State.qDrop
  let cut := qs.filter (fun q => !isHostQueue q && !dead q && s.cutNow f.port q)
  s1.store { f with cut := cut } (qs.filter (fun q => !dead q && (f.fcsOk || cut.contains q))) c

/-- Forward a CAN frame to queues; a controller that is not enabled takes none. -/
def State.forwardCan (s : State) (f : GwFrame) (qs : List Nat) (c : Nat) : State :=
  let dead := fun q => !isHostQueue q && !s.gw.canOn.contains ((q - 32880) / 4)
  (s.each (qs.filter dead) State.qDrop).store f (qs.filter (fun q => !dead q)) c

/-- A stored Ethernet frame. -/
def ethFrame (bytes : List Byte) (port stamp : Nat) (isDefault fcsOk : Bool) (ts : Option (Nat × Nat)) : GwFrame :=
  ⟨bytes, none, port, stamp, isDefault, ethCells bytes, none, [], ts, fcsOk, []⟩

/-- A stored CAN frame. -/
def canFrame (f : CanFrame) (port stamp : Nat) (isDefault : Bool) (ts : Option (Nat × Nat)) : GwFrame :=
  ⟨[], some f, port, stamp, isDefault, canFrameCells f, none, [], ts, true, []⟩

/-- R350: what filtering and recovery leave of a frame with entry `e`: whether it goes on. -/
def State.policed (s : State) (e : List Byte) (v : StdVerdict) : State × Bool :=
  if eFilter e ≠ 0xFFFF && !v.qciPass then (s.raise srcGwFilterDrop, false)
  else if eFlag e 1 && eStream e ≠ 0xFFFF then
    (s.when v.frerLoss (fun t => t.raise srcGwFrerLoss), !v.frerDiscard)
  else (s, true)

/-- An Ethernet frame with its entry (R364). `cls` is its traffic class, `c` the cells at which queues judge it. The messages that DECAP takes from it go
with their own identifiers. -/
def State.actEth (s : State) (e bytes : List Byte) (port cls stamp c : Nat) (fcsOk : Bool) (v : StdVerdict) (ts : Option (Nat × Nat)) :
    State :=
  let p := s.policed e v
  if !p.2 || eAction e = 1 then p.1.txAbandon ts
  else
    let b1 := if eFlag e 2 then rewriteVid bytes cls (eNewVid e) else bytes
    let n := p.1.nextSeq (eStream e) 65536
    let gen := eFlag e 0 && eStream e ≠ 0xFFFF
    let b2 := if gen then addRtag b1 n.2 else b1
    let s1 := if gen then n.1 else p.1
    let s2 := s1.forwardEth (ethFrame b2 port stamp false fcsOk ts) (ethQueues (eEthMask e) cls ++ hostQueues (eHostQueue e)) c
    if eAction e = 3 && fcsOk then
      s2.each (decap bytes) (fun u f =>
        u.forwardCan (canFrame f port stamp false none) (canQueues (eCanMask e) (eClass e)) c)
    else s2

/-- A CAN frame with its entry (R364). CAN XL frames are bridged only to CAN and to host queues (R351). -/
def State.actCan (s : State) (e : List Byte) (f : CanFrame) (port stamp c : Nat) (v : StdVerdict) (ts : Option (Nat × Nat)) : State :=
  let p := s.policed e v
  if !p.2 || eAction e = 1 then p.1.txAbandon ts
  else
    let g := if eFlag e 3 then { f with ident := eNewId e } else f
    let s1 := p.1.forwardCan (canFrame g port stamp false ts) (canQueues (eCanMask e) (eClass e) ++ hostQueues (eHostQueue e)) c
    if eAction e = 2 && !f.xlf then
      match Table.find s1.gw.templates (eTemplate e) with
      | none => s1
      | some t =>
        let n := s1.nextSeq (65536 + eTemplate e) 256
        n.1.forwardEth (ethFrame (encap t g stamp n.2) port stamp false true none) (ethQueues (eEthMask e) (eClass e)) c
    else s1

/-- An Ethernet frame that misses both keys follows its port's DEFAULT (R366). -/
def State.missEth (s : State) (bytes : List Byte) (port stamp c : Nat) (fcsOk : Bool) : State :=
  if port < 14 && s.rd (GW_PORT_CFG.DEFAULT port) = 1 && fcsOk then
    s.store (ethFrame bytes port stamp true true none) (hostQueues (s.rd (GW_PORT_CFG.DEFAULT_QUEUE port))) c
  else s

/-- The cells at which the queues of a frame of `n` bytes from port `p` judge it (R360): its true count where it has ended by the time that it is
classified, 300 ns after its first 128 bytes (R368), and the port's ingress reserve before. -/
def State.judgedCells (s : State) (p n : Nat) : Nat :=
  if (n + 4) * 8000 ≤ 128 * 8000 + 300 * s.portRate p then ceilDiv (n + 4) 256 else mtuCells (s.rd (GW_PORT_CFG.MTU p))

/-- ETH_FRAME_RECEIVE (R366): timestamped, looked up, filtered and admitted, or dropped. A frame with an uncorrectable cell goes on only where it is
forwarded cut-through (R360). -/
def execEthFrameReceive (port : Fin 14) (frame : EthFrame) (verdict : StdVerdict) (s : State) : Host.Outcome State Fault Refusal :=
  let p := port.val
  let b := frame.bytes
  .next (s.live (
    if !s.ethUp p || !s.portTakes p || b.length < 14 || s.rd (GW_PORT_CFG.MTU p) < b.length + 4 then s
    else
      let c := s.judgedCells p b.length
      let cls := if isTagged b then tciOf b / 8192 else s.rd (GW_PORT_CFG.UNTAGGED_PCP p)
      let good := frame.fcsOk && !verdict.cellUe
      let s1 := (s.mibRx p (b.length + 4) !frame.fcsOk).when verdict.cellUe (fun t => t.raise srcGwBufUe)
      let l := (s1.markWays verdict.wayUe).lookup (fun x => ethKey x b (vidOf b)) p
      match l.2 with
      | some e => l.1.actEth e b p cls s.clock.now c good verdict none
      | none => l.1.missEth b p s.clock.now c good))

/-- CAN_FRAME_RECEIVE (R366): a frame that misses is dropped. -/
def execCanFrameReceive (ctl : Fin 16) (frame : CanFrame) (verdict : StdVerdict) (s : State) : Host.Outcome State Fault Refusal :=
  let k := ctl.val
  .next (s.live (
    if !s.canUp || !s.gw.canOn.contains k || s.gw.busOff.contains k then s
    else if verdict.cellUe then (s.mibRx (16 + k) frame.data.length false).raise srcGwBufUe
    else
      let l := ((s.mibRx (16 + k) frame.data.length false).markWays verdict.wayUe).lookup (fun x => canKey x frame) (16 + k)
      match l.2 with
      | some e => l.1.actCan e frame (16 + k) s.clock.now canCells verdict none
      | none => l.1))

/-! ### Sending (R351, R360, R362, R368) -/

/-- Frame `i` leaves through port `p` from queue `q`, with its FCS or with an inverted one (R360, R368). -/
def State.sendFrame (s : State) (q p i : Nat) (f : GwFrame) (inverted : Bool) : State :=
  let s1 := { s with gw := { s.gw with
    sent := some ⟨p, f.payload, inverted⟩
    frames := Table.put s.gw.frames i { f with tsBack := none } } }
  ((s1.mibTx p (if f.can.isSome then f.payload.length else f.payload.length + 4) inverted).stampBack f.tsBack).dropCopy q i

/-- Ethernet port `p` transmits for the time that `n` bytes take, and the shaper of queue `q` counts it (R350). -/
def State.occupy (s : State) (p q n : Nat) : State :=
  let stop := s.clock.now + s.lineTime p n
  let s1 := s.settleCredit q (some stop)
  { s1 with gw := { s1.gw with busy := Table.set s1.gw.busy 0 p stop } }

/-- ETH_FRAME_TRANSMIT (R350, R368): the head of the class queue, when it is the turn of the class. A frame with a bad FCS stands only where it goes
cut-through, and is sent with an inverted FCS. Of one with an uncorrectable cell only a copy that goes cut-through is sent, with an inverted FCS, and every
other copy is dropped (R360). -/
def execEthFrameTransmit (port : Fin 14) (cls : Fin 8) (end_ : TxEnd) (s : State) : Host.Outcome State Fault Refusal :=
  let q := ethQueue port.val cls.val
  .next (s.live (
    if !s.ethUp port.val || !s.portTakes port.val || !s.classTurn port.val cls.val then s
    else
      match s.heldBy q with
      | [] => s
      | i :: _ =>
        match s.frame? i with
        | none => s
        | some f =>
          let t := s.occupy port.val q (f.bytes.length + 4)
          if end_.cellUe then
            (if f.cut.contains q then (t.raise srcGwBufUe).sendFrame q port.val i f true else s.raise srcGwBufUe).dropFrame i
          else t.sendFrame q port.val i f !f.fcsOk))

/-- The queue of controller `k` whose head has the lowest identifier, the lower queue on a tie (R351). -/
def State.canHead (s : State) (k : Nat) : Option (Nat × Nat × Nat) :=
  (List.range 4).foldl (fun best j =>
    match s.heldBy (canQueue k j) with
    | [] => best
    | i :: _ =>
      match s.frame? i with
      | none => best
      | some f =>
        let n := match f.can with | some c => c.ident | none => 0
        match best with
        | some (m, b) => if n < m then some (n, canQueue k j, i) else some (m, b)
        | none => some (n, canQueue k j, i)) none

/-- CAN_FRAME_TRANSMIT (R351). A frame with an uncorrectable cell is dropped (R360). -/
def execCanFrameTransmit (send : CanSend) (s : State) : Host.Outcome State Fault Refusal :=
  let k := send.ctl.val
  .next (s.live (
    if !s.canUp || !s.gw.canOn.contains k || s.gw.busOff.contains k then s
    else
      match s.canHead k with
      | none => s
      | some (_, q, i) =>
        match s.frame? i with
        | none => s
        | some f => if send.cellUe then (s.raise srcGwBufUe).dropFrame i else s.sendFrame q (16 + k) i f false))

/-- CAN_BUS_OFF (R351). -/
def execCanBusOff (ctl : Fin 16) (s : State) : Host.Outcome State Fault Refusal :=
  let k := ctl.val
  .next (s.live (
    if !s.gw.canOn.contains k || s.gw.busOff.contains k then s
    else { s with gw := { s.gw with busOff := s.gw.busOff ++ [k] } }.raise srcCanBusOff))

/-- CAN_BUS_OFF_RECOVERY (R351). -/
def execCanBusOffRecovery (ctl : Fin 16) (s : State) : Host.Outcome State Fault Refusal :=
  .next (s.live { s with gw := { s.gw with busOff := s.gw.busOff.filter (· ≠ ctl.val) } })

/-! ### Links (R359, R367) -/

/-- ETH_LINK_DOWN: the frames queued on the port are freed. -/
def execEthLinkDown (port : Fin 14) (s : State) : Host.Outcome State Fault Refusal :=
  let p := port.val
  .next (s.live (
    let s1 := s.wr (GW_PORT_CFG.LINK p) 0
    let s2 := s1.each (List.range 8) (fun u c =>
      let q := ethQueue p c
      (u.each (u.heldBy q) (fun t i => t.dropCopy q i)).setHeld q [])
    s2.portDownCheck))

/-- ETH_LINK_UP. -/
def execEthLinkUp (port : Fin 14) (s : State) : Host.Outcome State Fault Refusal :=
  .next (s.live ((s.wr (GW_PORT_CFG.LINK port.val) 1).portDownCheck))

/-- QBV_GATE_CHANGE (R350): the gate control list of the port starts, at its ConfigChange, or moves to its next entry once the present one has ended. -/
def execQbvGateChange (port : Fin 14) (s : State) : Host.Outcome State Fault Refusal :=
  let p := port.val
  .next (s.live (
    match Table.find s.gw.gates p with
    | none => s
    | some g => { s with gw := { s.gw with gates := Table.put s.gw.gates p (g.next s.clock.now) } }))

/-! ### Host transmit queues (R362, R418) -/

/-- A transmit entry is for a CAN frame: a CAN egress port, or without DIRECT an identifier or a CAN flag (log entry 32). -/
def txIsCan (e : List Byte) : Bool :=
  let fl := leAt e 12 1
  if bit fl 0 then decide (16 ≤ leAt e 10 1) else decide (leAt e 16 4 ≠ 0) || bits fl 5 2 ≠ 0

/-- R362: no field of a transmit entry is out of range. -/
def txEntryOk (e : List Byte) : Bool :=
  let fl := leAt e 12 1
  let n := leAt e 8 2
  bits fl 7 6 = 0 && leAt e 13 3 = 0 && leAt e 20 4 = 0
    && (!bit fl 0 || (leAt e 10 1 < 14 && leAt e 11 1 < 8) || (16 ≤ leAt e 10 1 && leAt e 10 1 < 32 && leAt e 11 1 < 4))
    && (if txIsCan e then
          (leAt e 16 4 < (if bit fl 5 then 2 ^ 29 else 2 ^ 11)) && n ≤ (if bit fl 4 then 2048 else if bit fl 2 then 64 else 8)
        else 14 ≤ n && n + 4 ≤ 9216)

/-- The CAN frame of a transmit entry with its data. -/
def txCan (e data : List Byte) : CanFrame :=
  let fl := leAt e 12 1
  ⟨leAt e 16 4, bit fl 5, bit fl 2, bit fl 3, bit fl 4, 0#8, 0#8, 0#32, data⟩

/-- The frame of a transmit entry is sent: straight to its queue with DIRECT, otherwise classified as one that arrived on port 32. -/
def State.txSend (s : State) (e data : List Byte) (v : StdVerdict) (ts : Option (Nat × Nat)) : State :=
  let port := leAt e 10 1
  let now := s.clock.now
  if v.cellUe then (s.raise srcGwBufUe).txAbandon ts
  else if bit (leAt e 12 1) 0 then
    if txIsCan e then s.forwardCan (canFrame (txCan e data) 32 now false ts) [canQueue (port - 16) (leAt e 11 1)] hostCells
    else s.forwardEth (ethFrame data 32 now false true ts) [ethQueue port (leAt e 11 1)] hostCells
  else if txIsCan e then
    let l := (s.markWays v.wayUe).lookup (fun x => canKey x (txCan e data)) 32
    match l.2 with
    | some g => l.1.actCan g (txCan e data) 32 now hostCells v ts
    | none => l.1.txAbandon ts
  else
    let l := (s.markWays v.wayUe).lookup (fun x => ethKey x data (vidOf data)) 32
    match l.2 with
    | some g => l.1.actEth g data 32 (if isTagged data then tciOf data / 8192 else eClass g) now hostCells true v ts
    | none => l.1.txAbandon ts

/-- HOST_TX_CONSUME (R362, R418): the next entry in ring order that the device has not read. -/
def execHostTxConsume (queue : Fin 24576) (verdict : StdVerdict) (s : State) : Host.Outcome State Fault Refusal :=
  let q := 32768 + queue.val
  .next (s.live (
    let r := s.queue q
    let wait := Table.get s.gw.txWait [] q
    let i := (r.cons + wait.length) % 2 ^ 32
    if !s.gwUp || !isHostQueue q || !r.enabled || !r.hostTx || r.occupancy ≤ wait.length || s.qReadWaits q i then s
    else
      let p := s.qRead q i
      let bad := fun (u : State) => (u.qDrop q).txPass q (wait ++ [0])
      match p.2 with
      | none => bad p.1
      | some e =>
        if !txEntryOk e then bad p.1
        else
          let d := p.1.ctxRead r.devCtx (leAt e 0 8) (leAt e 8 2)
          if p.1.ctxWaits r.devCtx (leAt e 0 8) (leAt e 8 2) false then s
          else match d.2 with
          | none => bad d.1
          | some data =>
            let ts := bit (leAt e 12 1) 1
            (d.1.txPass q (wait ++ [b2n ts])).txSend e data verdict (if ts then some (q, i) else none)))

end Sys2Proof.Machine
end

