-- ==== Sys2Proof/Machine/TimeUnit.lean ====
section
/-! DEFINITION. The time unit: the servo of Vehicle Time and the time-triggered outputs (16_gateway_time R369-R373). -/

namespace Sys2Proof.Machine

/-! TIME_STATUS.STATE. -/
def tsUnsynced : Nat := 0
def tsLocked : Nat := 1
def tsHoldover : Nat := 2
def tsCatchup : Nat := 3
def tsGrandmaster : Nat := 4

/-- A signed value in an `n`-bit field. -/
def fieldOf (n : Nat) (v : Int) : Nat := (v % (2 ^ n : Int)).toNat

/-- OFFSET_NS saturates. -/
def State.setOffset (s : State) (v : Int) : State :=
  s.wr TIME_STATUS.OFFSET_NS (fieldOf 32 (max (-2147483648) (min v 2147483647)))

def State.setRate (s : State) (v : Int) : State := s.wr TIME_STATUS.RATE_PPB (fieldOf 21 v)

/-- The rate at which CATCHUP moves towards the grandmaster. -/
def catchRate (offset : Int) : Int := if 0 ≤ offset then 500000 else -500000

/-- What the servo makes of a measurement within the threshold: the spec bounds the rate and gives no law (log entry 9). -/
def State.discipline (s : State) : State :=
  let n := s.draw
  n.2.setRate ((Config.freeWord n.1).toNat % 1000001 - 500000 : Int)

/-- STATE becomes LOCKED, and TIME_HOLDOVER no longer asserts. -/
def State.timeLocked (s : State) : State := (s.wr TIME_STATUS.STATE tsLocked).deassertSrc srcTimeHoldover

/-- STATE becomes HOLDOVER: the rate is frozen and TIME_HOLDOVER asserts. -/
def State.timeHoldover (s : State) : State := (s.wr TIME_STATUS.STATE tsHoldover).assertSrc srcTimeHoldover

/-! ### Time-triggered outputs (R373) -/

/-- The first START + k x PERIOD_NS that is at or after `t`. -/
def nextPulse (start period t : Nat) : Nat :=
  if t ≤ start then start else start + ceilDiv (t - start) period * period

def State.setPulse (s : State) (n : Nat) (t : Option Nat) : State :=
  { s with time := { s.time with next := (match t with | some v => Table.put s.time.next n v | none => Table.del s.time.next n) } }

/-- R372: the pulses of output `n` that a forward step to `t` skips are not produced, and each raises TTO_MISSED. -/
def State.skipPulses (s : State) (t n : Nat) : State :=
  match Table.find s.time.next n with
  | none => s
  | some e =>
    if t ≤ e then s
    else
      let per := s.rd (TIME_TTO_CFG.PERIOD_NS n)
      if per = 0 then ((s.raise srcTtoMissed).setPulse n none).wr (TIME_TTO_CFG.ENABLE n) 0
      else (s.each (List.range (ceilDiv (t - e) per)) (fun u _ => u.raise srcTtoMissed)).setPulse n (some (nextPulse e per t))

/-- R372: the single forward step. The latches of the pipes and the frames that ports send, which other clocks time, keep their distance from now. -/
def State.stepTime (s : State) (offset : Nat) : State :=
  let t := s.clock.now + offset
  let s0 := { s with clock := { s.clock with now := t }, time := { s.time with stepped := some (s.clock.now, t) } }
  let s1 := s0.wr TIME_CTRL.INIT_STEP 0
  let s2 := { s1 with
    gw := { s1.gw with busy := List.map (fun (p : Nat × Nat) => (p.1, p.2 + offset)) s1.gw.busy }
    rast := { s1.rast with anchor := List.map (fun (p : Nat × Nat) => (p.1, p.2 + offset)) s1.rast.anchor } }
  (s2.each (List.range 8) (fun u n => u.skipPulses t n)).timeLocked

/-- R397: the Sync with sequenceId `n` comes after the last one, or is the first of its grandmaster. -/
def State.syncNew (s : State) (n : BitVec 16) (newMaster : Bool) : Bool :=
  newMaster || (match s.time.seq with | some k => decide (0 < wrapDiff 16 n.toNat k.toNat) | none => true)

/-- R370: the offset with the PHY delay of the port in the path delay. -/
def State.measured (s : State) (m : SyncMeasure) : Int := m.offset + (Table.get s.gw.phy 0 m.port.val : Nat)

/-- GPTP_SYNC (R370-R372, R397). A Sync that does not come after the last one gives no measurement (log entry 95). -/
def execGptpSync (measure : SyncMeasure) (newMaster : Bool) (s : State) : Host.Outcome State Fault Refusal :=
  .next (s.live (
    let st := s.rd TIME_STATUS.STATE
    let offset := s.measured measure
    if !s.on TIME_CTRL.SYNC_EN || st = tsGrandmaster || !s.syncNew measure.seq newMaster then s
    else
      let s0 := { s with time := { s.time with seq := some measure.seq } }
      let s1 := (s0.setOffset offset).when newMaster (fun t => t.raise srcTimeGm)
      let first := st = tsUnsynced && s1.on TIME_CTRL.INIT_STEP
      if first && decide (0 < offset) then s1.stepTime offset.toNat
      else if first && decide (offset < 0) then (s1.raise srcTimeJump).timeHoldover
      else if offset.natAbs ≤ s1.rd TIME_CTRL.JUMP_THR_US * 1000 then s1.timeLocked.discipline
      else if st = tsCatchup then s1.setRate (catchRate offset)
      else (s1.raise srcTimeJump).timeHoldover))

/-- GPTP_SYNC_TIMEOUT (R371): the Sync that follows is the first again. -/
def execGptpSyncTimeout (s : State) : Host.Outcome State Fault Refusal :=
  .next (s.live (
    if !s.on TIME_CTRL.SYNC_EN || s.rd TIME_STATUS.STATE = tsGrandmaster then s
    else { s with time := { s.time with seq := none } }.timeHoldover))

/-- JUMP_THR_US accepts 10 to 65,535; ACCEPT reads 0. -/
def timeCtrlOk (x : Fld) (n : Nat) : Bool := if x.lo = 32 then decide (10 ≤ n) else x.lo ≠ 1

/-- A write to TIME_CTRL (R371): ACCEPT in HOLDOVER enters CATCHUP. -/
def State.timeCtrlWrite (s : State) (v : Nat) : State :=
  let s1 := s.plainWrite TIME_CTRL (RegFam.fields .time_ctrl) false v timeCtrlOk
  if bit v 1 && s1.rd TIME_STATUS.STATE = tsHoldover then
    (s1.wr TIME_STATUS.STATE tsCatchup).setRate (catchRate (signedOf 32 (s1.rd TIME_STATUS.OFFSET_NS)))
  else s1

/-- TIME_ACCEPT (R371). -/
def execTimeAccept (who : Initiator) (data : Word) (s : State) : Host.Outcome State Fault Refusal :=
  .next (s.live (
    if bit data.toNat 1 then s.regWr who .time_ctrl 0 0 (fun t => t.timeCtrlWrite data.toNat) else s))

/-- A write to TIME_TTOn_START: only while ENABLE is 0. -/
def State.ttoStartWrite (s : State) (n v : Nat) : State :=
  if s.on (TIME_TTO_CFG.ENABLE n) then s else s.setReg64 (TIME_TTO_START n) v

/-- ENABLE is set with the settings in force (R373): START less than 1 us ahead raises TTO_MISSED. -/
def State.ttoArm (s : State) (n : Nat) : State :=
  let start := s.rd (TIME_TTO_START.START n)
  let per := s.rd (TIME_TTO_CFG.PERIOD_NS n)
  let soon := s.clock.now + 1000
  let width := s.rd (TIME_TTO_CFG.WIDTH_NS n)
  if width = 0 || (per ≠ 0 && per ≤ width) then s
  else if soon ≤ start then (s.wr (TIME_TTO_CFG.ENABLE n) 1).setPulse n (some start)
  else
    let s1 := s.raise srcTtoMissed
    if per = 0 then s1 else (s1.wr (TIME_TTO_CFG.ENABLE n) 1).setPulse n (some (nextPulse start per soon))

/-- A write to TIME_TTOn_CFG (R373). -/
def State.ttoCfgWrite (s : State) (n v : Nat) : State :=
  if s.on (TIME_TTO_CFG.ENABLE n) then
    if bit v 0 then s else (s.wr (TIME_TTO_CFG.ENABLE n) 0).setPulse n none
  else
    let s1 := s.plainWrite (TIME_TTO_CFG n) (RegFam.fields .time_tto_cfg) false v (fun x k => if x.lo = 4 then k ≠ 0 else x.lo ≠ 0)
    if bit v 0 then s1.ttoArm n else s1

/-- TTO_ENABLE (R373). -/
def execTtoEnable (who : Initiator) (output : Fin 8) (data : Word) (s : State) : Host.Outcome State Fault Refusal :=
  .next (s.live (s.regWr who .time_tto_cfg output.val 0 (fun t => t.ttoCfgWrite output.val data.toNat)))

/-- R373: output `n` is at its active level: its last pulse has not ended. -/
def State.ttoActive (s : State) (n : Nat) : Bool :=
  match Table.find s.time.pulse n with
  | some (edge, width) => decide (s.clock.now < edge + width)
  | none => false

/-- The level of output `n`: high while active, or with POLARITY set low while active. -/
def State.ttoLevel (s : State) (n : Nat) : Bool := s.ttoActive n != s.on (TIME_TTO_CFG.POLARITY n)

/-- TTO_PULSE (R373): at the pulse's Vehicle Time. -/
def execTtoPulse (output : Fin 8) (s : State) : Host.Outcome State Fault Refusal :=
  let n := output.val
  .next (s.live (
    match Table.find s.time.next n with
    | none => s
    | some e =>
      let per := s.rd (TIME_TTO_CFG.PERIOD_NS n)
      let s1 := { s with time := { s.time with pulse := Table.put s.time.pulse n (e, s.rd (TIME_TTO_CFG.WIDTH_NS n)) } }
      if s.clock.now < e then s
      else if per = 0 then (s1.setPulse n none).wr (TIME_TTO_CFG.ENABLE n) 0 else s1.setPulse n (some (e + per))))

end Sys2Proof.Machine
end

