-- ==== Sys2Proof/Machine/Rubrics.lean ====
section
/-! DEFINITION. Rubrics (10_safety_mechanisms R256-R260): their records, their loading, the values that signals take, and the checks. -/

namespace Sys2Proof.Machine

/-! ### Records (R257, R258) -/

def sgSource (r : List Byte) : Nat := leAt r 0 1
def sgFmt (r : List Byte) : Nat := leAt r 1 1
def sgCount (r : List Byte) : Nat := leAt r 2 2
def sgBind (r : List Byte) : Nat := leAt r 8 8
def sgAddr (r : List Byte) : Nat := leAt r 0x10 8
def ckKind (r : List Byte) : Nat := leAt r 0 1
def ckSigA (r : List Byte) : Nat := leAt r 1 1
def ckSigB (r : List Byte) : Nat := leAt r 2 1
def ckFault (r : List Byte) : Nat := leAt r 3 1
def ckElemA (r : List Byte) : Nat := leAt r 4 2
def ckElemB (r : List Byte) : Nat := leAt r 6 2
def ckP0 (r : List Byte) : Nat := leAt r 8 8
def ckP1 (r : List Byte) : Nat := leAt r 0x10 8
def ckP2 (r : List Byte) : Nat := leAt r 0x18 8

/-- The format of a signal's elements, where the record names one that it may. -/
def sgFormat (r : List Byte) : Option Fmt :=
  match sgSource r with
  | 0 => (Fmt.ofCode (sgFmt r)).filter (fun f => !f.isMx && f ≠ .carry)
  | 1 => if sgFmt r = 0x10 then some .int32 else none
  | _ => if sgFmt r = 0 then some .uint8 else none

/-- A signal record within the table of R257. -/
def signalOk (r : List Byte) : Bool :=
  r.length = 32 && sgSource r < 3 && (sgFormat r).isSome && 1 ≤ sgCount r && sgCount r ≤ 1024 && leAt r 4 4 = 0 && leAt r 0x18 8 = 0
    && (sgSource r = 0 || sgBind r < 16) && (sgSource r ≠ 2 || (sgAddr r = 0 && sgCount r = 1))

/-- A check record within the table of R258. -/
def checkOk (sigs : List (List Byte)) (r : List Byte) : Bool :=
  let elemOk := fun (s e : Nat) => match sigs[s]? with | some g => decide (e < sgCount g) | none => false
  r.length = 32 && ckKind r < 3 && ckFault r < 4 && elemOk (ckSigA r) (ckElemA r)
    && (ckKind r ≠ 2 || elemOk (ckSigB r) (ckElemB r))

/-- R256: a Rubric within the limits and the tables. -/
def rubricOk (c : RubricContent) : Bool :=
  c.signals.length ≤ 64 && c.checks.length ≤ 256 && c.signals.all signalOk && c.checks.all (checkOk c.signals)

/-! ### Loading (R256) -/

/-- PROC_STATUS.RUBRICS and FULL. -/
def State.countRubrics (s : State) : State :=
  let n := s.proc.rubrics.length
  (s.wr PROC_STATUS.RUBRICS (min n 15)).wr PROC_STATUS.FULL (b2n (n = 16))

/-- The lowest free Rubric index. -/
def State.freeRubric (s : State) : Option Nat := (List.range 16).find? (fun i => (Table.find s.proc.rubrics i).isNone)

/-- A Rubric from an accepted root is loaded with its verdict queue: STATUS, and the index. -/
def State.loadRubric (s : State) (root : SigRoot) (c : RubricContent) (queue : Nat) : State × Nat × Nat :=
  if !s.rootOk root then (s, msDenied, 0)
  else if !rubricOk c || 8192 ≤ queue then (s, msBadarg, 0)
  else
    match s.freeRubric with
    | none => (s, msNofit, 0)
    | some i =>
      if !c.fits then (s, msNofit, 0)
      else
        let p := s.proc
        let s1 := { s with proc := { p with rubrics := Table.put p.rubrics i ⟨c.signals, c.checks, 57344 + queue, []⟩ } }
        (s1.countRubrics, msOk, i)

/-- RUBRIC_LOAD (R149, R256, R317): the image is read through the requester's checks, and the Security Core verifies it (R294, R295). What its bytes
are found to be stays so (log entry 90). -/
def State.rubricLoadRun (s : State) (r : Req) (bs : List Byte) (root : SigRoot) (c : RubricContent) : Answer :=
  if leAt bs 14 2 ≠ 0 then s.answer msBadarg
  else
    match s.secAway with
    | some st => s.answer st
    | none =>
      let d := s.ctxRead (s.ctx r.who) (leAt bs 0 8) (leAt bs 8 4)
      match d.2 with
      | none => d.1.answer msBadarg
      | some m =>
        let f := d.1.findImage m root (some c)
        let p := f.1.loadRubric f.2.root (f.2.rubric.getD c) (leAt bs 12 2)
        ⟨p.1, p.2.1, p.2.2, [], false⟩

/-- RUBRIC_LOAD: one whose image cannot be read yet waits. -/
def execRubricLoad (mb : Fin 68) (root : SigRoot) (content : RubricContent) (s : State) : Host.Outcome State Fault Refusal :=
  .next (s.live (
    if s.imageWaits mb.val 0x0300 then s
    else s.serve mb.val 0x0300 (fun t r bs => t.rubricLoadRun r bs root content)))

/-- RUBRIC_UNLOAD (R256). -/
def State.rubricUnloadRun (s : State) (r : Req) : Answer :=
  let i := hArg r.header
  if (Table.find s.proc.rubrics i).isNone then s.answer msBadarg
  else
    let s1 := { s with proc := { s.proc with rubrics := Table.del s.proc.rubrics i } }
    s1.countRubrics.answer msOk

/-- RUBRIC_UNLOAD. -/
def execRubricUnload (mb : Fin 68) (s : State) : Host.Outcome State Fault Refusal :=
  .next (s.live (s.serve mb.val 0x0301 (fun t r _ => t.rubricUnloadRun r)))

/-! ### Checks (R258-R260) -/

/-- FP64 arithmetic, each operation rounded once. -/
def f64 (w : Nat) : Num := fp64.decode w
def r64 (x : Num) : Num := fp64.round x
def absNum : Num → Num
  | .fin _ m e => .fin false m e
  | .inf _ => .inf false
  | .nan => .nan

/-- x ≤ y; false where either is NaN. -/
def leNum (x y : Num) : Bool := !x.isNan && !y.isNan && !y.lt x

/-- A difference of Vehicle Times in seconds. -/
def seconds (ns : Nat) : Num := r64 ((numOfInt ns).div 53 (numOfInt 1000000000))

/-- Whether a check passes on values `a` and `b` (for RATE the previous value of a, `dt` ns earlier). -/
def checkPasses (r : List Byte) (a b : Num) (dt : Nat) : Bool :=
  let p0 := f64 (ckP0 r)
  let p1 := f64 (ckP1 r)
  if a.isNan then false
  else
    match ckKind r with
    | 0 => leNum p0 a && leNum a p1
    | 1 => !b.isNan && leNum (absNum (r64 (a.add b.negate))) (r64 (p0.mul (seconds dt)))
    | _ => !b.isNan && leNum (absNum (r64 ((r64 (p0.mul a)).add (r64 (p1.mul b)).negate))) (f64 (ckP2 r))

/-- The values that a check tests, a and b as FP64 words, with the time between two values for RATE; `none` where one has no value yet. -/
def Rubric.operands (x : Rubric) (r : List Byte) : Option (Nat × Nat × Nat) :=
  match Table.find x.vals (ckSigA r) with
  | none => none
  | some va =>
    let a := va.vals.getD (ckElemA r) 0
    match ckKind r with
    | 0 => some (a, 0, 0)
    | 1 => match va.prev with
      | none => none
      | some p => some (a, p.2.getD (ckElemA r) 0, va.time - p.1)
    | _ => match Table.find x.vals (ckSigB r) with
      | none => none
      | some vb => some (a, vb.vals.getD (ckElemB r) 0, 0)

/-- The verdict record (R260); b is zero unless the check is a CROSS. -/
def verdict (rub n : Nat) (r : List Byte) (ref a b time : Nat) : List Byte :=
  leBytes 1 rub ++ leBytes 1 (ckKind r) ++ leBytes 2 n ++ leBytes 4 ref ++ leBytes 8 a ++ leBytes 8 (if ckKind r = 2 then b else 0)
    ++ leBytes 8 time

/-- Check `n` of Rubric `rub` is evaluated: a failure raises its source and writes a verdict. -/
def State.runCheck (s : State) (rub : Nat) (x : Rubric) (ref : Nat) (n : Nat) (r : List Byte) : State :=
  match x.operands r with
  | none => s
  | some (a, b, dt) =>
    if checkPasses r (f64 a) (f64 b) dt then s
    else (s.raise (srcRubric (ckFault r))).qNotice x.queue (verdict rub n r ref a b s.clock.now)

/-- A check names signal `i`. -/
def names (r : List Byte) (i : Nat) : Bool := ckSigA r = i || (ckKind r = 2 && ckSigB r = i)

/-- Signal `i` of Rubric `rub` takes a value, and every check that names it is evaluated. -/
def State.takeValue (s : State) (rub i ref : Nat) (vals : List Nat) : State :=
  match Table.find s.proc.rubrics rub with
  | none => s
  | some x =>
    let prev := (Table.find x.vals i).map (fun v => (v.time, v.vals))
    let y := { x with vals := Table.put x.vals i ⟨s.clock.now, vals, prev⟩ }
    let s1 := { s with proc := { s.proc with rubrics := Table.put s.proc.rubrics rub y } }
    ((indexed 0 y.checks).filter (fun p => names p.2 i)).foldl (fun (u : State) p => u.runCheck rub y ref p.1 p.2) s1

/-- The elements of a signal as FP64 words, from the bytes that hold them. -/
def signalVals (f : Fmt) (n : Nat) (bs : List Byte) : List Nat :=
  let v := leNat bs
  (List.range n).map (fun i => fp64.encode (f.decode (v / 2 ^ (i * f.bits) % 2 ^ f.bits)))

/-- Proctor reads a signal's elements at `a` for slice `owner`: a refused read raises PROC_SIGNAL_ERROR and leaves the value (R259). -/
def State.readSignal (s : State) (rub i ref : Nat) (owner : Option Nat) (g : List Byte) (a : Nat) : State :=
  match sgFormat g with
  | none => s
  | some f =>
    let p := s.ctxRead (devCtx owner 0x3003) a (f.span (sgCount g))
    match p.2 with
    | none => p.1.raise srcProcSignal
    | some bs => p.1.takeValue rub i ref (signalVals f (sgCount g) bs)

/-- The read of a signal's elements at `a` for slice `owner` must wait for its memory. -/
def State.signalWaits (s : State) (owner : Option Nat) (g : List Byte) (a : Nat) : Bool :=
  match sgFormat g with
  | none => false
  | some f => s.ctxWaits (devCtx owner 0x3003) a (f.span (sgCount g)) false

/-- The signals of every Rubric with a source and a binding, as (Rubric, signal, record). -/
def State.signalsOf (s : State) (source bind : Nat) : List (Nat × Nat × List Byte) :=
  s.proc.rubrics.flatMap (fun p =>
    ((indexed 0 p.2.signals).filter (fun q => sgSource q.2 = source && sgBind q.2 = bind)).map (fun q => (p.1, q.1, q.2)))

/-- R259, SOURCE 0: a job of Lesson `lesson` in slice `i` is COMMITTING. -/
def State.takeLesson (s : State) (i lesson handle : Nat) : State :=
  if !s.procRunning then s
  else (s.signalsOf 0 lesson).foldl (fun (u : State) p => u.readSignal p.1 p.2.1 handle (some i) p.2.2 (sgAddr p.2.2)) s

/-- Proctor's reads at the commit of a job of Lesson `lesson` in slice `i` must wait. -/
def State.lessonWaits (s : State) (i lesson : Nat) : Bool :=
  s.procRunning && (s.signalsOf 0 lesson).any (fun p => s.signalWaits (some i) p.2.2 (sgAddr p.2.2))

/-- R259, SOURCE 1: a privileged channel has written an output record at `out`. -/
def State.takePlan (s : State) (ch out cycle : Nat) : State :=
  if !s.procRunning then s
  else (s.signalsOf 1 ch).foldl (fun (u : State) p => u.readSignal p.1 p.2.1 cycle none p.2.2 (out + sgAddr p.2.2)) s

/-- Proctor's reads of an output record at `out` must wait. -/
def State.planWaits (s : State) (ch out : Nat) : Bool :=
  s.procRunning && (s.signalsOf 1 ch).any (fun p => s.signalWaits none p.2.2 (out + sgAddr p.2.2))

/-- R259, SOURCE 2: a stream's frame has ended; the value is FROZEN x 2 + STALE. -/
def State.takeStream (s : State) (n : Nat) : State :=
  if !s.procRunning then s
  else
    let v := s.rd (ROLL_STR_STATUS.FROZEN n) * 2 + s.rd (ROLL_STR_STATUS.STALE n)
    (s.signalsOf 2 n).foldl (fun (u : State) p => u.takeValue p.1 p.2.1 n [fp64.encode (numOfInt v)]) s

end Sys2Proof.Machine
end

