-- ==== Sys2Proof/Machine/PlanEval.lean ====
section
/-! DEFINITION. The Occupancy Store and the evaluation of a planning cycle (08_motion_planner R191-R196, R199, R200, R207-R213). -/

namespace Sys2Proof.Machine

/-! ### Cosine and sine (R192) -/

/-- The table from index 0. -/
def cosTab0 : List Nat := [16384, 16384, 16383, 16381, 16379, 16376, 16373, 16369, 16364, 16359, 16353, 16347, 16340, 16332, 16324, 16315, 16305, 
16295, 16284, 16273, 16261, 16248, 16235, 16221, 16207, 16192, 16176, 16160, 16143, 16125, 16107, 16088, 16069, 16049, 16029, 16008, 15986, 15964, 
15941, 15917, 15893, 15868, 15843, 15817, 15791, 15763, 15736, 15707, 15679, 15649, 15619, 15588, 15557, 15525, 15493, 15460, 15426, 15392, 15357, 
15322, 15286, 15250, 15213, 15175]
/-- The table from index 64. -/
def cosTab1 : List Nat := [15137, 15098, 15059, 15019, 14978, 14937, 14896, 14854, 14811, 14768, 14724, 14680, 14635, 14589, 14543, 14497, 14449, 
14402, 14354, 14305, 14256, 14206, 14155, 14104, 14053, 14001, 13949, 13896, 13842, 13788, 13733, 13678, 13623, 13567, 13510, 13453, 13395, 13337, 
13279, 13219, 13160, 13100, 13039, 12978, 12916, 12854, 12792, 12729, 12665, 12601, 12537, 12472, 12406, 12340, 12274, 12207, 12140, 12072, 12004, 
11935, 11866, 11797, 11727, 11656]
/-- The table from index 128. -/
def cosTab2 : List Nat := [11585, 11514, 11442, 11370, 11297, 11224, 11151, 11077, 11003, 10928, 10853, 10778, 10702, 10625, 10549, 10471, 10394, 
10316, 10238, 10159, 10080, 10001, 9921, 9841, 9760, 9679, 9598, 9516, 9434, 9352, 9269, 9186, 9102, 9019, 8935, 8850, 8765, 8680, 8595, 8509, 8423, 
8337, 8250, 8163, 8076, 7988, 7900, 7812, 7723, 7635, 7545, 7456, 7366, 7276, 7186, 7096, 7005, 6914, 6823, 6731, 6639, 6547, 6455, 6363]
/-- The table from index 192. -/
def cosTab3 : List Nat := [6270, 6177, 6084, 5990, 5897, 5803, 5708, 5614, 5520, 5425, 5330, 5235, 5139, 5044, 4948, 4852, 4756, 4660, 4563, 4467, 
4370, 4273, 4176, 4078, 3981, 3883, 3786, 3688, 3590, 3492, 3393, 3295, 3196, 3098, 2999, 2900, 2801, 2702, 2603, 2503, 2404, 2305, 2205, 2105, 2006, 
1906, 1806, 1706, 1606, 1506, 1406, 1306, 1205, 1105, 1005, 904, 804, 704, 603, 503, 402, 302, 201, 101]
/-- The table from index 256. -/
def cosTab4 : List Nat := [0]

/-- COSTAB[n] for n from 0 to 256: the first quadrant. -/
def cosQuarter (n : Nat) : Nat :=
  match n / 64 with
  | 0 => cosTab0.getD (n % 64) 0
  | 1 => cosTab1.getD (n % 64) 0
  | 2 => cosTab2.getD (n % 64) 0
  | 3 => cosTab3.getD (n % 64) 0
  | _ => cosTab4.getD (n % 64) 0

/-- COSTAB[n] for n from 0 to 1,023. -/
def cosTab (n : Nat) : Int :=
  if n ≤ 256 then cosQuarter n
  else if n ≤ 512 then -(cosQuarter (512 - n) : Int)
  else if n ≤ 768 then -(cosQuarter (n - 512) : Int)
  else cosQuarter (1024 - n)

def cosOf (h : Nat) : Int := cosTab (h % 65536 / 64)
def sinOf (h : Nat) : Int := cosOf (h % 65536 + 65536 - 16384)

/-! ### The tree (R193-R196) -/

/-- What a record puts into a cell: one value for every leaf, or the 16 leaves of a brick. -/
inductive OccNew where
  | fill (v : Nat)
  | brick (leaves : List Nat)
  deriving DecidableEq, Repr

/-- The value of a cell that is uniform. -/
def OccCell.value {α : Type} : OccCell α → Option Nat
  | .uni v => some v
  | .split _ => none

/-- The `n` children of a cell, where `u v` is the uniform child of value `v`. -/
def OccCell.kids {α : Type} (n : Nat) (u : Nat → α) : OccCell α → List α
  | .uni v => List.replicate n (u v)
  | .split l => l

/-- A cell of these children in canonical form: uniform where they all are, at one value. -/
def joinCells {α : Type} (val : α → Option Nat) (l : List α) : OccCell α :=
  match l with
  | [] => .uni 0
  | x :: t =>
    match val x with
    | some v => if t.all (fun y => val y = some v) then .uni v else .split l
    | none => .split l

/-- Child `i` of a cell replaced by `f` of it. -/
def OccCell.onKid {α : Type} (n : Nat) (u : Nat → α) (val : α → Option Nat) (i : Nat) (f : α → α) (c : OccCell α) : OccCell α :=
  joinCells val ((indexed 0 (c.kids n u)).map (fun p => if p.1 = i then f p.2 else p.2))

def set5 (new : OccNew) (_ : List Nat) (_ : Occ5) : Occ5 :=
  match new with
  | .fill v => .uni v
  | .brick l => joinCells some l

/-- A record applied below a cell, by the path of child numbers: an empty path sets the cell itself. -/
def setIn {α : Type} (n : Nat) (u : Nat → α) (val : α → Option Nat) (below : List Nat → α → α) (new : OccNew) (path : List Nat)
    (c : OccCell α) : OccCell α :=
  match path, new with
  | [], .fill v => .uni v
  | [], .brick _ => c
  | i :: t, _ => c.onKid n u val i (below t)

def set4 (new : OccNew) : List Nat → Occ4 → Occ4 := setIn 32 .uni OccCell.value (set5 new) new
def set3 (new : OccNew) : List Nat → Occ3 → Occ3 := setIn 32 .uni OccCell.value (set4 new) new
def set2 (new : OccNew) : List Nat → Occ2 → Occ2 := setIn 32 .uni OccCell.value (set3 new) new
def set1 (new : OccNew) : List Nat → Occ1 → Occ1 := setIn 32 .uni OccCell.value (set2 new) new
def set0 (new : OccNew) : List Nat → Occ0 → Occ0 := setIn 20 .uni OccCell.value (set1 new) new

/-- Cells per axis at a level (x, y, t), and the split of a cell of it (R193). -/
def levelCells (l : Nat) : Nat × Nat × Nat :=
  match l with
  | 0 => (1, 1, 1) | 1 => (2, 2, 5) | 2 => (8, 8, 10) | 3 => (32, 32, 20) | 4 => (128, 128, 40) | _ => (512, 512, 80)
def levelSplit (l : Nat) : Nat × Nat × Nat := if l = 0 then (2, 2, 5) else (4, 4, 2)

/-- The path of child numbers to the cell (x, y, t) at a level. -/
def cellPath : Nat → Nat → Nat → Nat → List Nat
  | 0, _, _, _ => []
  | l + 1, x, y, t =>
    let d := levelSplit l
    cellPath l (x / d.1) (y / d.2.1) (t / d.2.2) ++ [x % d.1 + d.1 * (y % d.2.1 + d.2.1 * (t % d.2.2))]

/-- The value of the leaf at the end of a path of child numbers. -/
def leafOf {α : Type} (below : List Nat → α → Nat) (path : List Nat) (c : OccCell α) : Nat :=
  match c, path with
  | .uni v, _ => v
  | .split l, i :: t => match l[i]? with | some k => below t k | none => 0
  | .split _, [] => 0

def leaf5 : List Nat → Occ5 → Nat := leafOf (fun _ v => v)
def leaf4 : List Nat → Occ4 → Nat := leafOf leaf5
def leaf3 : List Nat → Occ3 → Nat := leafOf leaf4
def leaf2 : List Nat → Occ2 → Nat := leafOf leaf3
def leaf1 : List Nat → Occ1 → Nat := leafOf leaf2
def leaf0 : List Nat → Occ0 → Nat := leafOf leaf1

/-- The value of leaf (i, j) in time slice `s`: (BANDS << 8) | OCC (R194). -/
def Occ0.leaf (c : Occ0) (i j s : Nat) : Nat := leaf0 (cellPath 5 (i / 4) (j / 4) s ++ [i % 4 + 4 * (j % 4)]) c

/-! ### Counting nodes (R195, R196) -/

/-- The value that most of `vs` share, the lower on a tie. -/
def mostShared (vs : List Nat) : Option Nat :=
  (vs.foldl (fun (best : Option (Nat × Nat)) v =>
    let n := vs.count v
    match best with
    | none => some (n, v)
    | some (m, w) => if m < n ∨ (m = n ∧ v < w) then some (n, v) else best) none).map (·.2)

/-- FILL_A and FILL_B of a node with these children. -/
def fills {α : Type} (val : α → Option Nat) (l : List α) : List Nat :=
  let vs := l.filterMap val
  match mostShared vs with
  | none => []
  | some a =>
    match mostShared (vs.filter (· ≠ a)) with
    | none => [a]
    | some b => [a, b]

/-- A child is present unless it is uniform at a FILL of its parent. -/
def present {α : Type} (val : α → Option Nat) (fs : List Nat) (k : α) : Bool :=
  match val k with
  | some v => !fs.contains v
  | none => true

/-- The nodes of a present cell that are not shared: `olds` is what the derived epochs hold at the same cell, `none` where they hold no node
there. A node is shared when its whole cell is unchanged (log entry 22). -/
def nodesIn {α : Type} [DecidableEq α] (n : Nat) (u : Nat → α) (val : α → Option Nat) (below : List (Option α) → α → Nat)
    (olds : List (Option (OccCell α))) (c : OccCell α) : Nat :=
  if !olds.isEmpty && olds.all (fun o => o = some c) then 0
  else
    let ks := c.kids n u
    let fs := fills val ks
    let under := fun (o : Option (OccCell α)) (i : Nat) =>
      match o with
      | none => none
      | some d =>
        let ls := d.kids n u
        (ls[i]?).filter (present val (fills val ls))
    1 + ((indexed 0 ks).map (fun p => if present val fs p.2 then below (olds.map (fun o => under o p.1)) p.2 else 0)).sum

def nodes5 (olds : List (Option Occ5)) (c : Occ5) : Nat := if !olds.isEmpty && olds.all (fun o => o = some c) then 0 else 1
def nodes4 : List (Option Occ4) → Occ4 → Nat := nodesIn 32 .uni OccCell.value nodes5
def nodes3 : List (Option Occ3) → Occ3 → Nat := nodesIn 32 .uni OccCell.value nodes4
def nodes2 : List (Option Occ2) → Occ2 → Nat := nodesIn 32 .uni OccCell.value nodes3
def nodes1 : List (Option Occ1) → Occ1 → Nat := nodesIn 32 .uni OccCell.value nodes2
def nodes0 : List (Option Occ0) → Occ0 → Nat := nodesIn 20 .uni OccCell.value nodes1

/-! ### The formats of the nodes (R195) -/

/-- The largest OCC of a cell, at the end of a path of child numbers. -/
def occIn {α : Type} (below : List Nat → α → Nat) (path : List Nat) (c : OccCell α) : Nat :=
  match c, path with
  | .uni v, _ => v % 256
  | .split l, i :: t => match l[i]? with | some k => below t k | none => 0
  | .split l, [] => l.foldl (fun m k => max m (below [] k)) 0

def occ5 : List Nat → Occ5 → Nat := occIn (fun _ v => v % 256)
def occ4 : List Nat → Occ4 → Nat := occIn occ5
def occ3 : List Nat → Occ3 → Nat := occIn occ4
def occ2 : List Nat → Occ2 → Nat := occIn occ3
def occ1 : List Nat → Occ1 → Nat := occIn occ2
def occ0 : List Nat → Occ0 → Nat := occIn occ1

/-- MAXQ of a present child whose largest OCC is `occ`. -/
def maxQ (occ : Nat) : Nat := ceilDiv occ 17

/-- KIND of a child: uniform at FILL_A, uniform at FILL_B, present. -/
def kindOf {α : Type} (val : α → Option Nat) (fs : List Nat) (k : α) : Nat :=
  if present val fs k then 2 else if val k = fs.head? then 0 else 1

/-- The 32 bytes of the node of a present cell of `n` children at levels 0 to 4: `base` is the index that the store gives to the first present
child, and `top` the largest OCC of a child. -/
def nodeBytes {α : Type} (level n base : Nat) (u : Nat → α) (val : α → Option Nat) (top : α → Nat) (c : OccCell α) : List Byte :=
  let ks := c.kids n u
  let fs := fills val ks
  leBytes 1 level ++ leBytes 3 (base % 2 ^ 18) ++ leBytes 2 (fs.getD 0 0) ++ leBytes 2 (fs.getD 1 0)
    ++ leBytes 8 ((indexed 0 ks).map (fun p => kindOf val fs p.2 * 4 ^ p.1)).sum
    ++ leBytes 16 ((indexed 0 ks).map (fun p => (if present val fs p.2 then maxQ (top p.2) else 0) * 16 ^ p.1)).sum

/-- The index of child `i` of such a node: the present children lie at consecutive indices in child order. -/
def childIndex {α : Type} (n base : Nat) (u : Nat → α) (val : α → Option Nat) (c : OccCell α) (i : Nat) : Nat :=
  let ks := c.kids n u
  base + ((ks.take i).filter (present val (fills val ks))).length

/-- The 32 bytes of a brick. -/
def brickBytes (c : Occ5) : List Byte :=
  let ls := c.kids 16 (fun v => v)
  leBytes 1 5 ++ leBytes 7 0 ++ ls.flatMap (fun v => leBytes 1 (v % 256))
    ++ leBytes 6 ((indexed 0 ls).map (fun p => p.2 / 256 * 8 ^ p.1)).sum ++ leBytes 2 0

/-! ### Batches (R199, R200) -/

/-- The leaf value of OCC and BANDS. -/
def leafWord (occ bands : Nat) : Nat := bands * 256 + occ

/-- A record within R200, as its level, cell (x, y, t) and contents. -/
def batchRecord (r : List Byte) : Option (Nat × Nat × Nat × Nat × OccNew) :=
  let op := leAt r 0 1
  let l := leAt r 1 1
  let t := leAt r 2 2
  let x := leAt r 4 2
  let y := leAt r 6 2
  let d := levelCells l
  if 1 < op ∨ 5 < l ∨ d.1 ≤ x ∨ d.2.1 ≤ y ∨ d.2.2 ≤ t ∨ leAt r 30 2 ≠ 0 then none
  else if op = 0 then
    if l ≠ 5 then none
    else some (l, x, y, t, .brick ((List.range 16).map (fun n => leafWord (leAt r (8 + n) 1) (bits (leAt r 24 6) (3 * n + 2) (3 * n)))))
  else if leAt r 9 15 ≠ 0 ∨ 8 ≤ leAt r 24 6 then none
  else some (l, x, y, t, .fill (leafWord (leAt r 8 1) (leAt r 24 1)))

/-- The 32-byte records of a batch body. -/
def chunks32 : Nat → List Byte → List (List Byte)
  | 0, _ => []
  | n + 1, b => b.take 32 :: chunks32 n (b.drop 32)

/-- Every record of a batch, or none where one lies outside R200. -/
def batchRecords (b : List Byte) : Option (List (Nat × Nat × Nat × Nat × OccNew)) :=
  (chunks32 (leAt b 0x18 4) (b.drop 64)).foldr (fun r acc =>
    match batchRecord r, acc with
    | some x, some l => some (x :: l)
    | _, _ => none) (some [])

/-- The records applied in order. -/
def applyRecords (c : Occ0) (l : List (Nat × Nat × Nat × Nat × OccNew)) : Occ0 :=
  l.foldl (fun t r => set0 r.2.2.2.2 (cellPath r.1 r.2.1 r.2.2.1 r.2.2.2.1) t) c

/-- The cell (x, y, t) at level `l`, as a number. -/
def cellIndex (l x y t : Nat) : Nat := let d := levelCells l; x + d.1 * (y + d.2.1 * t)

/-- The extent of a cell along an axis in cells of level 5: `n` cells at its level, `i` its index, `total` cells at level 5. -/
def spanAt (n i total : Nat) : Nat × Nat := (i * (total / n), (i + 1) * (total / n))

/-- The cell (x, y, t) of an index at level `l`. -/
def cellOf (l k : Nat) : Nat × Nat × Nat := let d := levelCells l; (k % d.1, k / d.1 % d.2.1, k / d.1 / d.2.1)

/-- The store holds a node at the end of a path of child numbers: every child on the way is present (R195). -/
def nodeAt {α : Type} (n : Nat) (u : Nat → α) (val : α → Option Nat) (below : List Nat → α → Bool) (path : List Nat) (c : OccCell α) : Bool :=
  match path with
  | [] => true
  | i :: t =>
    let ks := c.kids n u
    match ks[i]? with
    | some k => present val (fills val ks) k && below t k
    | none => false

def nodeAt5 (path : List Nat) (_ : Occ5) : Bool := path.isEmpty
def nodeAt4 : List Nat → Occ4 → Bool := nodeAt 32 .uni OccCell.value nodeAt5
def nodeAt3 : List Nat → Occ3 → Bool := nodeAt 32 .uni OccCell.value nodeAt4
def nodeAt2 : List Nat → Occ2 → Bool := nodeAt 32 .uni OccCell.value nodeAt3
def nodeAt1 : List Nat → Occ1 → Bool := nodeAt 32 .uni OccCell.value nodeAt2
def nodeAt0 : List Nat → Occ0 → Bool := nodeAt 20 .uni OccCell.value nodeAt1

/-- The cells of two trees at the end of a path are the same. -/
def sameAt {α : Type} [DecidableEq α] (n : Nat) (u : Nat → α) (below : List Nat → α → α → Bool) (path : List Nat) (c d : OccCell α) : Bool :=
  match path with
  | [] => c = d
  | i :: t =>
    match (c.kids n u)[i]?, (d.kids n u)[i]? with
    | some x, some y => below t x y
    | _, _ => false

def sameAt5 (path : List Nat) (c d : Occ5) : Bool := path.isEmpty && c = d
def sameAt4 : List Nat → Occ4 → Occ4 → Bool := sameAt 32 .uni sameAt5
def sameAt3 : List Nat → Occ3 → Occ3 → Bool := sameAt 32 .uni sameAt4
def sameAt2 : List Nat → Occ2 → Occ2 → Bool := sameAt 32 .uni sameAt3
def sameAt1 : List Nat → Occ1 → Occ1 → Bool := sameAt 32 .uni sameAt2
def sameAt0 : List Nat → Occ0 → Occ0 → Bool := sameAt 20 .uni sameAt1

/-- The store of an epoch holds a node for cell number `k` of level `l`. -/
def hasNode (tree : Occ0) (l k : Nat) : Bool := let c := cellOf l k; nodeAt0 (cellPath l c.1 c.2.1 c.2.2) tree

/-- An epoch shares the node with the one that it derives from: both hold it, and its cell is unchanged (R196, log entry 22). -/
def sharedNode (old new : Occ0) (l k : Nat) : Bool :=
  let c := cellOf l k
  hasNode old l k && hasNode new l k && sameAt0 (cellPath l c.1 c.2.1 c.2.2) old new

/-- R218: a node stays marked until an update replaces it: the marks of the nodes that the new epoch shares. -/
def keepMarks (ue : List (Nat × Nat)) (old new : Occ0) : List (Nat × Nat) := ue.filter (fun m => sharedNode old new m.1 m.2)

/-! ### The records of a cycle (R204) -/

/-- `n` bytes at offset `o` of the configuration record or the start record. -/
def wordsAt (ws : List Nat) (o n : Nat) : Nat := leAt (ws.flatMap (leBytes 8)) o n
def PlanCycle.c (q : PlanCycle) (o n : Nat) : Nat := wordsAt q.cfg o n
def PlanCycle.i16 (q : PlanCycle) (o : Nat) : Int := signedOf 16 (q.c o 2)
def PlanCycle.st (q : PlanCycle) (o n : Nat) : Nat := wordsAt q.start o n
def PlanCycle.px (q : PlanCycle) : Int := signedOf 32 (q.st 0 4)
def PlanCycle.py (q : PlanCycle) : Int := signedOf 32 (q.st 4 4)
def PlanCycle.theta0 (q : PlanCycle) : Nat := q.st 8 2
def PlanCycle.v0 (q : PlanCycle) : Nat := q.st 0xA 2
def PlanCycle.kappa0 (q : PlanCycle) : Int := signedOf 16 (q.st 0xC 2)
def PlanCycle.gx (q : PlanCycle) : Int := signedOf 32 (q.st 0x10 4)
def PlanCycle.gy (q : PlanCycle) : Int := signedOf 32 (q.st 0x14 4)
def PlanCycle.tStart (q : PlanCycle) : Nat := q.st 0x18 8
def PlanCycle.softCands (q : PlanCycle) : Bool := bit q.ctrl 4
def PlanCycle.deadline (q : PlanCycle) : Nat := q.release + q.c 0 4 * 1000

/-- R204: every field lies in its range, for a channel that is privileged or not, with the settings of its CTRL. -/
def planCfgOk (cfg : List Nat) (priv : Bool) (ctrl : Nat) : Bool :=
  let c := fun (o n : Nat) => wordsAt cfg o n
  let periodic := bits ctrl 3 2 = 1
  let limit := if priv then 504 else 4088
  let kTop : Int := signedOf 16 (c 0x4C 2) + ((c 0x50 2 - 1 : Nat) : Int) * (c 0x4E 2 : Int)
  100 ≤ c 0 4 && c 0 4 ≤ 1000000
    && (!periodic || (c 0 4 ≤ c 4 4 && 1000 ≤ c 4 4 && c 4 4 ≤ 1000000 && c 8 4 < c 4 4 && (!priv || 10000 ≤ c 4 4)))
    && c 0xC 1 ≤ 40 && 1 ≤ c 0xD 1 && c 0xD 1 ≤ 7 && 1 ≤ c 0xE 1
    && (List.range 4).all (fun k => let r := c (0x14 + 8 * k) 2; 1 ≤ r && r + c 0xF 1 ≤ 320)
    && (List.range 8).all (fun k => 1 ≤ c (0x40 + k) 1)
    && 1 ≤ c 0x4A 1 && c 0x4A 1 ≤ 8 && 1 ≤ c 0x50 2 && c 0x50 2 ≤ 511 && decide (kTop ≤ 32767)
    && (if bit ctrl 4 then c 0x54 2 ≤ limit else c 0x4A 1 * c 0x50 2 ≤ limit)
    && c 0x56 2 ≤ 8191 && c 0x58 8 % 64 = 0 && c 0x58 8 < 2 ^ 48 && c 0x60 8 % 64 = 0 && c 0x60 8 < 2 ^ 48

/-! ### Candidates (R207-R209) -/

/-- R208: `n` further steps from `s`. -/
def integrate (acc kappa vmax : Int) : Nat → PlanStep → List PlanStep
  | 0, s => [s]
  | n + 1, s =>
    let v : Int := max 0 (min ((s.v : Int) + acc) vmax)
    let d : Int := ((s.v : Int) + v) / 20
    let th := bitsOfInt 16 ((s.th : Int) + kappa * d / 256)
    let go := fun (p c : Int) => max (-32768) (min (p + d * c / 16384) 32767)
    s :: integrate acc kappa vmax n ⟨go s.dx (cosOf th), go s.dy (sinOf th), th, v.toNat⟩

/-- The trajectory of an acceleration and a curvature from the cycle's start. -/
def PlanCycle.path (q : PlanCycle) (acc kappa vmax : Int) : List PlanStep := integrate acc kappa vmax 79 ⟨0, 0, q.theta0, q.v0⟩

/-- Number of candidates below the stop profiles, and the index of the first stop profile. -/
def PlanCycle.count (q : PlanCycle) : Nat :=
  if q.candErr then 0 else if q.softCands then q.c 0x54 2 else q.c 0x4A 1 * q.c 0x50 2
def PlanCycle.stopBase (q : PlanCycle) : Nat := if q.priv then 504 else 4088

/-- A step record (R207). -/
def stepOf (b : List Byte) : PlanStep := ⟨signedOf 16 (leAt b 0 2), signedOf 16 (leAt b 2 2), leAt b 4 2, leAt b 6 2⟩

/-- The trajectory of index `i`: software, lattice or stop profile. -/
def PlanCycle.cand (q : PlanCycle) (i : Nat) : List PlanStep :=
  if q.stopBase ≤ i then q.path (-(q.c (0x40 + (i - q.stopBase)) 1 : Int)) q.kappa0 65535
  else if q.softCands then (List.range 80).map (fun k => stepOf ((q.cands.drop (640 * i + 8 * k)).take 8))
  else
    let n := q.c 0x50 2
    q.path (signedOf 8 (q.c 0x48 1) + ((i / n * q.c 0x49 1 : Nat) : Int)) (q.i16 0x4C + ((i % n * q.c 0x4E 2 : Nat) : Int))
      ((q.c 0x3C 2 : Nat) : Int)

/-- Every index of the cycle: the candidates, then the eight stop profiles. -/
def PlanCycle.indices (q : PlanCycle) : List Nat := List.range q.count ++ (List.range 8).map (q.stopBase + ·)

/-! ### The check (R210) -/

/-- Time slice of step `k` in epoch `e`, clamped; a privileged channel reads the present one for every step. -/
def PlanCycle.slice (q : PlanCycle) (e : PlanEpoch) (k : Nat) : Nat :=
  let t : Int := (q.tStart : Int) + (if q.priv then 0 else (k : Int) * 100000000) - (e.t0 : Int)
  (max 0 (min (t / 100000000) 79)).toNat

/-- Centre of circle `n` at a step. -/
def PlanCycle.centre (q : PlanCycle) (s : PlanStep) (n : Nat) : Int × Int :=
  let a := q.i16 (0x10 + 8 * n)
  let b := q.i16 (0x12 + 8 * n)
  (q.px + s.dx + (a * cosOf s.th - b * sinOf s.th) / 16384, q.py + s.dy + (a * sinOf s.th + b * cosOf s.th) / 16384)

/-- Distance along one axis from `c` to the closed interval from `l` of length `n`. -/
def axisGap (c l n : Int) : Int := max (max (l - c) 0) (c - l - n)

/-- The leaf indices along one axis that a radius can reach: from `w`, the epoch's corner. -/
def reach (c w : Int) (r : Nat) : List Nat :=
  let lo := (max 0 ((c - w - r) / 10 - 1)).toNat
  let hi := (min 2047 ((c - w + r) / 10 + 1)).toNat
  if c - w + r < -20 then [] else (List.range (hi + 1 - lo)).map (· + lo)

/-- The check reads the node of cell (x, y, t) of level `l`: its MAXQ is not 0, so that it can change a result (R210, log entry 22). -/
def nodeRead (e : PlanEpoch) (l x y t : Nat) : Bool := l = 0 || 0 < maxQ (occ0 (cellPath l x y t) e.tree)

/-- The circle reaches a cell whose node is marked uncorrectable and is read, in time slice `t`. -/
def marked (e : PlanEpoch) (cx cy : Int) (r t : Nat) : Bool :=
  e.ue.any (fun m =>
    let c := cellOf m.1 m.2
    let d := levelCells m.1
    let span := spanAt d.2.2 c.2.2 80
    let w : Int := (20480 / d.1 : Nat)
    let ex := axisGap cx (e.wx0 + w * (c.1 : Int)) w
    let ey := axisGap cy (e.wy0 + w * (c.2.1 : Int)) w
    decide (span.1 ≤ t) && decide (t < span.2) && nodeRead e m.1 c.1 c.2.1 c.2.2 && decide (ex * ex + ey * ey < (r * r : Nat)))

/-- Circle `n` at a step in time slice `t` of epoch `e`: it collides, its clearance value, and it met an uncorrectable node. -/
def PlanCycle.circle (q : PlanCycle) (e : PlanEpoch) (s : PlanStep) (t n : Nat) : Bool × Nat × Bool :=
  let rad := q.c (0x14 + 8 * n) 2
  let far := rad + q.c 0xF 1
  let p := q.centre s n
  let near := (reach p.1 e.wx0 far).flatMap (fun i =>
    (reach p.2 e.wy0 far).filterMap (fun j =>
      let v := e.tree.leaf i j t
      let ex := axisGap p.1 (e.wx0 + 10 * (i : Int)) 10
      let ey := axisGap p.2 (e.wy0 + 10 * (j : Int)) 10
      if (v / 256 &&& q.c 0xD 1) ≠ 0 && decide (ex * ex + ey * ey < (far * far : Nat)) then some (v % 256, ex * ex + ey * ey) else none))
  let outside := decide (p.1 - rad < e.wx0) || decide (e.wx0 + 20480 < p.1 + rad) || decide (p.2 - rad < e.wy0)
    || decide (e.wy0 + 20480 < p.2 + rad)
  let ue := marked e p.1 p.2 far t
  (outside || ue || near.any (fun v => q.c 0xE 1 ≤ v.1 && decide (v.2 < (rad * rad : Nat))), near.foldl (fun m v => max m v.1) 0, ue)

/-- What the evaluation of one trajectory gives: the first step at which it collides, its summed clearance, an uncorrectable node met. -/
structure PlanCheck where
  contact : Option Nat
  clear : Nat
  ue : Bool
  deriving DecidableEq, Repr

/-- A trajectory checked against epoch `e` (R210). -/
def PlanCycle.check (q : PlanCycle) (e : PlanEpoch) (steps : List PlanStep) : PlanCheck :=
  (indexed 0 steps).foldl (fun (a : PlanCheck) p =>
    (List.range 4).foldl (fun (b : PlanCheck) n =>
      let r := q.circle e p.2 (q.slice e p.1) n
      ⟨if b.contact.isNone && r.1 then some p.1 else b.contact, b.clear + r.2.1, b.ue || r.2.2⟩) a) ⟨none, 0, false⟩

/-! ### The cost (R211) -/

/-- Consecutive pairs. -/
def pairs {α : Type} (l : List α) : List (α × α) := l.zip (l.drop 1)

/-- The cost of a trajectory with its summed clearance. -/
def PlanCycle.cost (q : PlanCycle) (steps : List PlanStep) (clear : Nat) : Nat :=
  let w := fun (k : Nat) => q.c (0x30 + 2 * k) 2
  let long := ((pairs steps).map (fun p => ((p.2.v : Int) - (p.1.v : Int)).natAbs ^ 2)).sum
  let lat := ((pairs steps).map (fun p => ((p.2.v : Int) * signedOf 16 (bitsOfInt 16 ((p.2.th : Int) - (p.1.th : Int))) / 4096).natAbs ^ 2)).sum
  let last := steps.getLastD ⟨0, 0, 0, 0⟩
  let prog := (q.px + last.dx - q.gx).natAbs + (q.py + last.dy - q.gy).natAbs
  let rule := (steps.map (fun s => s.v - q.c 0x3A 2)).sum
  min (w 0 * long + w 1 * lat + w 2 * prog + w 3 * clear + w 4 * rule) (2 ^ 64 - 1)

/-- A candidate evaluated against an epoch: index, check and cost. -/
structure PlanEvalr where
  index : Nat
  check : PlanCheck
  cost : Nat
  deriving DecidableEq, Repr

def PlanCycle.eval (q : PlanCycle) (e : PlanEpoch) (i : Nat) : PlanEvalr :=
  let steps := q.cand i
  let k := q.check e steps
  ⟨i, k, q.cost steps k.clear⟩

/-- Lower cost first, then lower index. -/
def PlanEvalr.before (a b : PlanEvalr) : Bool := a.cost < b.cost || (a.cost = b.cost && a.index < b.index)

/-- Insert in order. -/
def insertEval (x : PlanEvalr) : List PlanEvalr → List PlanEvalr
  | [] => [x]
  | y :: t => if x.before y then x :: y :: t else y :: insertEval x t

/-- The best eight of the evaluated candidates (R211). -/
def bestEight (l : List PlanEvalr) : List PlanEvalr :=
  ((l.filter (fun x => x.check.contact.isNone)).foldl (fun a x => insertEval x a) []).take 8

/-- The least cost of a list. -/
def leastCost (l : List PlanEvalr) : Option PlanEvalr := (l.foldl (fun a x => insertEval x a) []).head?

end Sys2Proof.Machine
end

