-- ==== Sys2Proof/Machine/Planner.lean ====
section
/-! DEFINITION. The planning engine's rows (08_motion_planner R190, R196-R206, R213-R218; 10_safety_mechanisms R261). -/

namespace Sys2Proof.Machine

/-! ### Channels and epochs -/

def PlanChan.zero : PlanChan := ⟨none, none⟩
def State.chan (s : State) (ch : Nat) : PlanChan := Table.get s.plan.chans PlanChan.zero ch
def State.setChan (s : State) (ch : Nat) (x : PlanChan) : State :=
  { s with plan := { s.plan with chans := Table.set s.plan.chans PlanChan.zero ch x } }

/-- PLAN_CHn_STATUS.STATE: 0 IDLE, 1 PENDING, 2 RUNNING, 3 SUSPENDED. -/
def State.setPlanState (s : State) (ch v : Nat) : State := s.wr (PLAN_CH_STATUS.STATE ch) v

/-- The engine has clock and power (R292), and the Hub fabric and the time unit that it needs run (R21). -/
def State.planOn (s : State) : Bool := s.unitOn 11 && s.domainOn 6 && s.domainOn 2

/-- The epochs that cycles use. -/
def State.snaps (s : State) : List Nat := s.plan.chans.filterMap (fun p => p.2.cycle.bind (fun q => q.snap))

/-- The newest epoch. -/
def State.newest (s : State) : Option PlanEpoch := s.plan.epochs.head?

/-- The epoch of a serial number. -/
def State.epoch? (s : State) (n : Nat) : Option PlanEpoch := s.plan.epochs.find? (fun e => e.serial = n)

/-- R196: the nodes of the live epochs of a list, newest first, each shared node once. `chain` is what lies between the nearest newer live
epoch and this one, `none` where nothing is shared with it. -/
def liveNodes (live : Nat → Bool) : Option (List Occ0) → List PlanEpoch → Nat
  | _, [] => 0
  | chain, e :: t =>
    let own := if live e.serial then nodes0 ((chain.getD []).map some) e.tree else 0
    let next := if e.full then none else if live e.serial then some [e.tree] else chain.map (fun l => e.tree :: l)
    own + liveNodes live next t

/-- The epochs in use: the newest, and those of cycles. -/
def State.isLive (s : State) (n : Nat) : Bool := s.newest.any (fun e => e.serial = n) || s.snaps.contains n

/-- R196: epochs that no cycle uses any longer are released; one that lies between live ones is kept for the count of shared nodes. -/
def State.planRelease (s : State) : State :=
  let l := (s.plan.epochs.reverse.dropWhile (fun e => !s.isLive e.serial)).reverse
  let s1 := { s with plan := { s.plan with epochs := l } }
  let n := (l.filter (fun e => s1.isLive e.serial)).length
  (s1.wr PLAN_STORE_STATUS.LIVE_EPOCHS n).wr PLAN_STORE_STATUS.LIVE_NODES (liveNodes s1.isLive none l)

/-! ### Updating the store (R197-R202) -/

/-- Another source than `n` is bound to a Lesson of a slice. -/
def State.boundTwice (s : State) (n lesson slice : Nat) : Bool :=
  lesson ≠ 0 && (List.range 8).any (fun k => k ≠ n && s.reg64 (PLAN_SRC_LESSON k) = lesson && s.rd (PLAN_SRC_ADDR.SLICE k) = slice)

/-- R197: a write that would bind a Lesson to a second source leaves the register unchanged. -/
def State.planSrcWrite (s : State) (n v : Nat) : State :=
  if s.boundTwice n v (s.rd (PLAN_SRC_ADDR.SLICE n)) then s else s.setReg64 (PLAN_SRC_LESSON n) v

/-- R197: the same for the slice in PLAN_SRCn_ADDR. -/
def State.planSrcAddrWrite (s : State) (n v : Nat) : State :=
  if s.boundTwice n (s.reg64 (PLAN_SRC_LESSON n)) (bits v 61 56) then s
  else s.plainWrite (PLAN_SRC_ADDR n) (RegFam.fields .plan_src_addr) false (v - bits v 5 0) (fun _ _ => true)

/-- PLAN_SRC_BIND (R197). -/
def execPlanSrcBind (who : Initiator) (source : Fin 8) (data : Word) (s : State) : Host.Outcome State Fault Refusal :=
  .next (s.live (s.regWr who .plan_src_lesson source.val 0 (fun t => t.planSrcWrite source.val data.toNat)))

/-- The enabled source that is bound to a Lesson of a slice. -/
def State.planSource (s : State) (slice lesson : Nat) : Option Nat :=
  (List.range 8).find? (fun k =>
    lesson ≠ 0 && s.reg64 (PLAN_SRC_LESSON k) = lesson && s.on (PLAN_SRC_ADDR.ENABLE k) && s.rd (PLAN_SRC_ADDR.SLICE k) = slice)

/-- The context of the engine's accesses: the owning slice of the source or channel. -/
def planCtx (slice : Option Nat) : Ctx := devCtx slice 0x5001

/-- R198: the copy of the batch at source `k`: its header, and its records unless RECORDS is too large; none where a read is refused. -/
def State.readBatch (s : State) (k : Nat) : State × Option (List Byte) :=
  let c := planCtx (some (s.rd (PLAN_SRC_ADDR.SLICE k)))
  let a := s.rd (PLAN_SRC_ADDR.ADDR k) / 64 * 64
  let h := s.ctxRead c a 64
  match h.2 with
  | none => (h.1, none)
  | some bs =>
    let n := leAt bs 0x18 4
    if 65534 < n then (h.1, some bs)
    else
      let r := h.1.ctxRead c (a + 64) (32 * n)
      match r.2 with
      | none => (r.1, none)
      | some rs => (r.1, some (bs ++ rs))

/-- The copy of the batch at source `k` must wait for its memory. -/
def State.batchWaits (s : State) (k : Nat) : Bool :=
  let c := planCtx (some (s.rd (PLAN_SRC_ADDR.SLICE k)))
  let a := s.rd (PLAN_SRC_ADDR.ADDR k) / 64 * 64
  s.ctxWaits c a 64 false ||
    (match (s.ctxRead c a 64).2 with
     | some h => leAt h 0x18 4 ≤ 65534 && s.ctxWaits c (a + 64) (32 * leAt h 0x18 4) false
     | none => false)

/-- The Lesson that a job committed with. -/
def Job.committed (j : Job) : Nat :=
  if j.usedFallback then (match j.fb with | some f => f.lesson | none => j.lesson) else j.lesson

/-- PLAN_BATCH_COPY (R198): while staging is free and the batch can be read. A source that is no longer bound gives no batch. -/
def execPlanBatchCopy (tag : Fin 1024) (s : State) : Host.Outcome State Fault Refusal :=
  let t := tag.val
  .next (s.live (
    if !s.planOn || !s.plan.copies.contains t || s.plan.staging.isSome then s
    else
      let copies := s.plan.copies.filter (· ≠ t)
      match (s.job? t).bind (fun j => s.planSource j.slice (j.committed % 2 ^ 64)) with
      | none => { s with plan := { s.plan with copies := copies } }
      | some k =>
        if s.batchWaits k then s
        else
          let p := s.readBatch k
          { p.1 with plan := { p.1.plan with copies := copies, staging := some p.2 } }))

/-- R199: the reserved fields of a header are zero and its fields in range. -/
def batchHeaderOk (b : List Byte) : Bool :=
  leAt b 0 4 ≠ 0 && leAt b 4 4 < 2 && signedOf 32 (leAt b 0x10 4) % 10 = 0 && signedOf 32 (leAt b 0x14 4) % 10 = 0
    && leAt b 0x18 4 ≤ 65534 && leAt b 0x1C 36 = 0

/-- The epoch that a batch asks for from the newest one. -/
def State.buildEpoch (s : State) (b : List Byte) (l : List (Nat × Nat × Nat × Nat × OccNew)) : PlanEpoch :=
  let full := bit (leAt b 4 4) 0
  let base : Occ0 := match s.newest with | some e => if full then .uni 0 else e.tree | none => .uni 0
  let tree := applyRecords base l
  let marks := match s.newest with | some e => if full then [] else keepMarks e.ue e.tree tree | none => []
  ⟨s.plan.nextSerial, leAt b 0 4, full, leAt b 8 8, signedOf 32 (leAt b 0x10 4), signedOf 32 (leAt b 0x14 4), tree, marks⟩

/-- R201: the outcome of a batch: the new epoch, or the source of its refusal. -/
def State.judgeBatch (s : State) (b : List Byte) : Except Nat PlanEpoch :=
  let stale := s.on PLAN_STORE_STATUS.WORLD && leAt b 0 4 ≤ s.rd PLAN_STORE_STATUS.NEWEST_EPOCH
  let delta := !bit (leAt b 4 4) 0
  let fits := match s.newest with
    | some e => e.t0 = leAt b 8 8 && e.wx0 = signedOf 32 (leAt b 0x10 4) && e.wy0 = signedOf 32 (leAt b 0x14 4)
    | none => false
  if stale then .error srcPlanEpochStale
  else if delta && !fits then .error srcPlanBatchRefused
  else if !batchHeaderOk b then .error srcPlanBatchRefused
  else
    match batchRecords b with
    | none => .error srcPlanBatchRefused
    | some l =>
      let e := s.buildEpoch b l
      if 262144 < liveNodes (fun n => n = e.serial || s.isLive n) none (e :: s.plan.epochs) then .error srcPlanStoreFull
      else .ok e

/-- PLAN_BATCH_APPLY (R201). -/
def execPlanBatchApply (s : State) : Host.Outcome State Fault Refusal :=
  .next (s.live (
    if !s.planOn || s.plan.built.isSome then s
    else
      match s.plan.staging with
      | none => s
      | some copy =>
        let s1 := { s with plan := { s.plan with staging := none } }
        match copy with
        | none => s1.raise srcPlanBatchRefused
        | some b =>
          match s1.judgeBatch b with
          | .error src => s1.raise src
          | .ok e => { s1 with plan := { s1.plan with built := some e, nextSerial := e.serial + 1 } }))

/-! ### Outputs (R212-R216) -/

/-- An output before it is written: STATUS, FLAGS without LATE and CAND_ERROR, EPOCH, CANDIDATE, RANK, the contact step, COST, the steps, the best
eight indices. -/
structure PlanOut where
  status : Nat
  flags : Nat
  epoch : Nat
  candidate : Nat
  rank : Nat
  contact : Option Nat
  cost : Nat
  steps : List PlanStep
  best : List Nat
  deriving DecidableEq, Repr

/-- A step record (R207). -/
def stepBytes (p : PlanStep) : List Byte := leBytes 2 (bitsOfInt 16 p.dx) ++ leBytes 2 (bitsOfInt 16 p.dy) ++ leBytes 2 p.th ++ leBytes 2 p.v

/-- The output record (R216); NO_WORLD gives no trajectory. -/
def PlanOut.bytes (o : PlanOut) (ch flags cycle tStart release : Nat) : List Byte :=
  leBytes 1 ch ++ leBytes 1 o.status ++ leBytes 2 flags ++ leBytes 4 o.epoch ++ leBytes 4 cycle ++ leBytes 2 o.candidate ++ leBytes 1 o.rank
    ++ leBytes 1 (o.contact.getD 0xFF) ++ leBytes 8 o.cost ++ leBytes 8 tStart
    ++ leBytes 8 (match o.contact with | some k => tStart + k * 100000000 | none => 0) ++ leBytes 8 release
    ++ (List.range 8).flatMap (fun k => leBytes 2 (o.best.getD k 0xFFFF)) ++ o.steps.flatMap stepBytes

/-- Proctor's condition of R261 ends for channel `ch`. -/
def State.planFresh (s : State) (ch : Nat) : State :=
  let l := s.proc.planStale.filter (· ≠ ch)
  let s1 := { s with proc := { s.proc with planStale := l, planOut := Table.put s.proc.planOut ch s.clock.up } }
  s1.levelSrc srcProcPlanStale (!l.isEmpty)

/-- R216: the output of cycle `q` is written, its notice pushed, and the cycle ends. -/
def State.planEmit (s : State) (ch : Nat) (q : PlanCycle) (o : PlanOut) : State :=
  let flags := o.flags + b2n q.candErr * 8 + b2n (q.deadline < s.clock.now) * 32
  let s1 := (s.wrapAdd (PLAN_CH_STATUS.CYCLES ch) 1).wr (PLAN_CH_STATUS.LAST_STATUS ch) o.status
  let cyc := s1.rd (PLAN_CH_STATUS.CYCLES ch)
  let out := q.c 0x60 8
  let ctx := planCtx (if q.priv then none else some (bits q.ctrl 13 8))
  let s2 := (s1.ctxWrite ctx out (o.bytes ch flags cyc q.tStart q.release)).1
  let s3 := s2.qNotice (57344 + q.c 0x56 2) (leBytes 1 ch ++ leBytes 1 o.status ++ leBytes 2 flags ++ leBytes 4 cyc)
  let s4 := s3.when (bit o.flags 0) (fun t => t.raise srcPlanUnavoidable)
  let s5 := s4.when (bit o.flags 4) (fun t => t.raise srcPlanSramUe)
  let prev : Option PlanPrev := if o.status ≤ 2 then some ⟨q.px, q.py, q.tStart, o.steps⟩ else (s5.chan ch).prev
  let s6 := (s5.setChan ch ⟨none, prev⟩).setPlanState ch 0
  let s7 := { s6 with plan := { s6.plan with running := if s6.plan.running = some ch then none else s6.plan.running } }
  let s8 := s7.planRelease
  if q.priv then (s8.planFresh ch).takePlan ch out cyc else s8

/-- The output record of cycle `q` cannot be written yet, or Proctor's read of it must wait. -/
def State.emitWaits (s : State) (ch : Nat) (q : PlanCycle) : Bool :=
  let out := q.c 0x60 8
  s.ctxWaits (planCtx (if q.priv then none else some (bits q.ctrl 13 8))) out 704 true || (q.priv && s.planWaits ch out)

/-- The output of a release while no epoch exists (R205). -/
def noWorld : PlanOut := ⟨3, 0, 0, 0xFFFF, 0xFF, none, 0, [], []⟩

/-- R213: the previous output shifted to the cycle's start, where it reaches so far. -/
def PlanCycle.shifted (q : PlanCycle) (p : PlanPrev) : Option (List PlanStep) :=
  if q.tStart < p.tStart then none
  else
    let n := (q.tStart - p.tStart) / 100000000
    if q.c 0xC 1 < n then none
    else
      some ((List.range 80).map (fun k =>
        let s := p.steps.getD (min (k + n) 79) ⟨0, 0, 0, 0⟩
        ⟨s.dx + p.px - q.px, s.dy + p.py - q.py, s.th, if 79 < k + n then 0 else s.v⟩))

/-- The output of an evaluated candidate. -/
def PlanCycle.outOf (q : PlanCycle) (e : PlanEpoch) (x : PlanEvalr) (flags rank : Nat) (best : List Nat) : PlanOut :=
  let hit := x.check.contact.isSome
  ⟨if x.index < q.stopBase then 0 else 2, flags + b2n hit, e.number, x.index, rank, x.check.contact, x.cost, q.cand x.index, best⟩

/-- R213: the fallback choice against epoch `e`. -/
def PlanCycle.fallback (q : PlanCycle) (prev : Option PlanPrev) (e : PlanEpoch) (flags : Nat) (best : List Nat) : PlanOut :=
  let stops := (List.range 8).map (fun n => q.eval e (q.stopBase + n))
  let ue := stops.any (fun x => x.check.ue)
  let stop := fun (u : Bool) =>
    match (leastCost (stops.filter (fun x => x.check.contact.isNone))).or (leastCost stops) with
    | some x => q.outOf e x (flags ||| (b2n (u || ue) * 16)) 0xFF best
    | none => noWorld
  match prev.bind q.shifted with
  | none => stop false
  | some l =>
    let k := q.check e l
    if k.contact.isNone then ⟨1, flags ||| (b2n k.ue * 16), e.number, 0xFFFF, 0xFF, none, q.cost l k.clear, l, best⟩
    else stop k.ue

/-- R214: the re-check of the best eight against the newest epoch: the first that is free of collision, its rank, an uncorrectable node met. -/
def PlanCycle.recheck (q : PlanCycle) (e : PlanEpoch) : Nat → List PlanEvalr → Option (PlanEvalr × Nat) × Bool
  | _, [] => (none, false)
  | r, x :: t =>
    let k := q.check e (q.cand x.index)
    if k.contact.isNone then (some (x, r), k.ue)
    else
      let m := PlanCycle.recheck q e (r + 1) t
      (m.1, m.2 || k.ue)

/-- R214: the selection of a cycle evaluated against `e`, with `n` the newest epoch at the output latch. -/
def PlanCycle.select (q : PlanCycle) (prev : Option PlanPrev) (e n : PlanEpoch) : PlanOut :=
  let all := q.indices.map (q.eval e)
  let ue := b2n (all.any (fun x => x.check.ue)) * 16
  let best := bestEight all
  let ids := best.map (fun x => x.index)
  match best with
  | [] =>
    match leastCost (all.filter (fun x => q.stopBase ≤ x.index)) with
    | some x => q.outOf e x ue 0xFF ids
    | none => noWorld
  | x :: _ =>
    if e.serial = n.serial then q.outOf e x ue 0 ids
    else
      let r := q.recheck n 0 best
      let fl := 2 ||| ue ||| (b2n r.2 * 16)
      match r.1 with
      | some (y, k) => { q.outOf n y fl k ids with flags := fl, contact := none }
      | none => q.fallback prev n fl ids

/-! ### Releases (R203-R205) -/

/-- The words of a record as they stand. -/
def State.planCfg (s : State) (ch : Nat) : List Nat := (List.range 16).map (fun k => s.reg64 (PLAN_CH_CFG ch k))
def State.planStart (s : State) (ch : Nat) : List Nat := (List.range 8).map (fun k => s.reg64 (PLAN_CH_START ch k))

/-- R209: the software candidates, fetched at release for the channel's slice; a fetch that must wait for its memory is made when the engine would
start the cycle (log entry 64). -/
def State.fetchCands (s : State) (q : PlanCycle) : State × PlanCycle :=
  if q.softCands && q.c 0x54 2 ≠ 0 then
    let c := planCtx (if q.priv then none else some (bits q.ctrl 13 8))
    if s.ctxWaits c (q.c 0x58 8) (640 * q.c 0x54 2) false then (s, { q with owed := true })
    else
      let p := s.ctxRead c (q.c 0x58 8) (640 * q.c 0x54 2)
      match p.2 with
      | some b => (p.1, { q with cands := b, owed := false })
      | none => (p.1, { q with candErr := true, owed := false })
  else (s, q)

/-- R204, R205: a release of channel `ch`: refused, dropped, answered NO_WORLD, or pending. -/
def State.planRel (s : State) (ch : Nat) : State :=
  let ctrl := s.reg64 (PLAN_CH_CTRL ch)
  let priv := s.planPriv ch
  let cfg := s.planCfg ch
  if !planCfgOk cfg priv ctrl || (priv && bits ctrl 3 2 ≠ 1) then s.wr (PLAN_CH_STATUS.CFG_ERR ch) 1
  else if (s.chan ch).cycle.isSome then (s.satAdd (PLAN_CH_STATUS.OVERRUNS ch) 1).raise srcPlanOverrun
  else
    let s1 := s.wr (PLAN_CH_STATUS.CFG_ERR ch) 0
    let q : PlanCycle := ⟨cfg, s.planStart ch, ctrl, priv, s.clock.now, [], false, none, false, false, false⟩
    if !s1.on PLAN_STORE_STATUS.WORLD then s1.planEmit ch q noWorld
    else
      let p := s1.fetchCands q
      (p.1.setChan ch { p.1.chan ch with cycle := some p.2 }).setPlanState ch 1

/-- A write to PLAN_CHn_CTRL (R203, R205): SLICE by the Registrar alone; TRIGGER 3 is not used, and a privileged channel accepts only PERIODIC;
START releases a cycle of an enabled ON_DEMAND channel. -/
def State.planCtrlWrite (s : State) (w : Initiator) (ch v : Nat) : State :=
  let trig := bits v 3 2
  let s1 := s.when (isRegistrar w) (fun t => t.wr (PLAN_CH_CTRL.SLICE ch) (bits v 13 8))
  let s2 := s1.when (if s1.planPriv ch then trig = 1 else trig ≠ 3) (fun t => t.wr (PLAN_CH_CTRL.TRIGGER ch) trig)
  let s3 := ((s2.wr (PLAN_CH_CTRL.CAND_SRC ch) (bits v 4 4)).wr (PLAN_CH_CTRL.ENABLE ch) (bits v 0 0)).when
    (bit v 0 && !s.on (PLAN_CH_CTRL.ENABLE ch)) (fun t => { t with proc := { t.proc with planOut := Table.put t.proc.planOut ch t.clock.up } })
  if bit v 1 && s3.planOn && s3.on (PLAN_CH_CTRL.ENABLE ch) && s3.rd (PLAN_CH_CTRL.TRIGGER ch) = 0 then s3.planRel ch else s3

/-- PLAN_START (R205). -/
def execPlanStart (who : Initiator) (ch : Fin 16) (data : Word) (s : State) : Host.Outcome State Fault Refusal :=
  .next (s.live (
    if bit data.toNat 1 then s.regWr who .plan_ch_ctrl ch.val 0 (fun t => t.planCtrlWrite who ch.val data.toNat) else s))

/-- R204: PERIOD_US and PHASE_US of channel `ch`. -/
def State.planPeriod (s : State) (ch : Nat) : Nat := bits (s.reg64 (PLAN_CH_CFG ch 0)) 63 32
def State.planPhase (s : State) (ch : Nat) : Nat := bits (s.reg64 (PLAN_CH_CFG ch 1)) 31 0

/-- R204: a PERIODIC channel releases at this Vehicle Time; a phase of PERIOD_US or more makes its refused release at phase 0. -/
def State.planDue (s : State) (ch : Nat) : Bool :=
  s.dueEvery (s.planPeriod ch) (if s.planPhase ch < s.planPeriod ch then s.planPhase ch else 0)

/-- PLAN_PERIODIC_RELEASE (R204), at the Vehicle Times of its phase. -/
def execPlanPeriodicRelease (ch : Fin 16) (s : State) : Host.Outcome State Fault Refusal :=
  let c := ch.val
  .next (s.live (if s.planOn && s.on (PLAN_CH_CTRL.ENABLE c) && s.rd (PLAN_CH_CTRL.TRIGGER c) = 1 && s.planDue c then s.planRel c else s))

/-- A write to PLAN_PRIV (R203): a MASK of more than two bits is not taken. PRIVILEGED copies MASK. -/
def State.planPrivWrite (s : State) (v : Nat) : State :=
  let s1 := s.plainWrite PLAN_PRIV (RegFam.fields .plan_priv) (s.on PLAN_PRIV.LOCK) v (fun x n => x.lo ≠ 0 || decide (popCount 16 n ≤ 2))
  (List.range 16).foldl (fun (u : State) ch => u.wr (PLAN_CH_CTRL.PRIVILEGED ch) (b2n (u.planPriv ch))) s1

/-- PLAN_PRIV_WRITE (R203). -/
def execPlanPrivWrite (who : Initiator) (data : Word) (s : State) : Host.Outcome State Fault Refusal :=
  .next (s.live (s.regWr who .plan_priv 0 0 (fun t => t.planPrivWrite data.toNat)))

/-- PLAN_EPOCH_SWAP (R201, R205): the new epoch is newest, and each ON_EPOCH channel releases a cycle. -/
def execPlanEpochSwap (s : State) : Host.Outcome State Fault Refusal :=
  .next (s.live (
    if !s.planOn then s
    else
      match s.plan.built with
      | none => s
      | some e =>
        let s1 := { s with plan := { s.plan with built := none, epochs := e :: s.plan.epochs } }
        let s2 := ((s1.wr PLAN_STORE_STATUS.NEWEST_EPOCH e.number).wr PLAN_STORE_STATUS.WORLD 1).planRelease
        (List.range 16).foldl (fun (u : State) ch =>
          if u.on (PLAN_CH_CTRL.ENABLE ch) && u.rd (PLAN_CH_CTRL.TRIGGER ch) = 2 then u.planRel ch else u) s2))

/-! ### Cycles (R202, R206, R214, R215) -/

/-- The node is one of the store's (R195). -/
def realNode (m : StoreNode) : Bool :=
  let d := levelCells m.level
  decide (m.level ≤ 5) && decide (m.cell < d.1 * d.2.1 * d.2.2)

/-- The mark of node `m` in an epoch. -/
def PlanEpoch.mark (e : PlanEpoch) (m : StoreNode) : PlanEpoch :=
  { e with ue := if e.ue.contains (m.level, m.cell) then e.ue else e.ue ++ [(m.level, m.cell)] }

/-- The mark of node `m` of epoch `e` in the newer epochs, nearest first, as far as they share the node (R196). -/
def markNewer (m : StoreNode) : PlanEpoch → List PlanEpoch → List PlanEpoch
  | _, [] => []
  | e, x :: t => if x.full || !sharedNode e.tree x.tree m.level m.cell then x :: t else x.mark m :: markNewer m x t

/-- The same in the older epochs, nearest first. -/
def markOlder (m : StoreNode) : PlanEpoch → List PlanEpoch → List PlanEpoch
  | _, [] => []
  | e, x :: t => if e.full || !sharedNode x.tree e.tree m.level m.cell then x :: t else x.mark m :: markOlder m x t

/-- R190, R196, R210, R218: the ECC of the private SRAM has found an uncorrectable word in a node of the store: the node is marked in every epoch that
shares it, the one being built among them, until an update replaces it, and a check that reads it finds it so. -/
def State.markNode (s : State) (m : StoreNode) : State :=
  let l := s.plan.built.toList ++ s.plan.epochs
  let k := s.plan.built.toList.length + m.age
  match l.drop k with
  | [] => s
  | e :: old =>
    if !(realNode m && hasNode e.tree m.level m.cell) then s
    else
      let r := (markNewer m e (l.take k).reverse).reverse ++ e.mark m :: markOlder m e old
      { s with plan := { s.plan with
        built := if s.plan.built.isSome then r.head? else none
        epochs := if s.plan.built.isSome then r.tail else r } }

/-- Cycles that wait for the engine, with their candidates. -/
def State.pendingCycles (s : State) : List (Nat × PlanCycle) :=
  s.plan.chans.filterMap (fun p =>
    match p.2.cycle with
    | some q => if q.snap.isNone && !q.owed then some (p.1, q) else none
    | none => none)

/-- The suspended cycle. -/
def State.suspendedCycle (s : State) : Option (Nat × PlanCycle) :=
  s.plan.chans.findSome? (fun p =>
    match p.2.cycle with
    | some q => if q.suspended then some (p.1, q) else none
    | none => none)

/-- R206: the ranking of pending cycles. -/
def ranksBefore (a b : Nat × PlanCycle) : Bool :=
  if a.2.priv ≠ b.2.priv then a.2.priv
  else a.2.deadline < b.2.deadline || (a.2.deadline = b.2.deadline && a.1 < b.1)

/-- The pending cycle that ranks first. -/
def State.firstPending (s : State) : Option (Nat × PlanCycle) :=
  s.pendingCycles.foldl (fun (best : Option (Nat × PlanCycle)) p =>
    match best with
    | none => some p
    | some b => if ranksBefore p b then some p else some b) none

def State.setCycle (s : State) (ch : Nat) (q : PlanCycle) : State := s.setChan ch { s.chan ch with cycle := some q }

/-- The fetches that had to wait are made where they need not any longer (R209). -/
def State.fetchOwed (s : State) : State :=
  s.each s.plan.chans (fun t p =>
    match p.2.cycle with
    | some q => if q.owed then (let r := t.fetchCands q; r.1.setCycle p.1 r.2) else t
    | none => t)

/-- PLAN_CYCLE_START (R206): an ordinary cycle does not start before a suspended one. -/
def execPlanCycleStart (s0 : State) : Host.Outcome State Fault Refusal :=
  .next (s0.live (
    if !s0.planOn || s0.plan.running.isSome then s0
    else
      let s := s0.fetchOwed
      match s.firstPending, s.newest with
      | some (ch, q), some e =>
        if !q.priv && s.suspendedCycle.isSome then s
        else
          let s1 := (s.setCycle ch { q with snap := some e.serial }).setPlanState ch 2
          { s1 with plan := { s1.plan with running := some ch } }.planRelease
      | _, _ => s))

/-- PLAN_CYCLE_SUSPEND (R206). -/
def execPlanCycleSuspend (s : State) : Host.Outcome State Fault Refusal :=
  .next (s.live (
    match s.plan.running with
    | none => s
    | some ch =>
      match (s.chan ch).cycle with
      | none => s
      | some q =>
        if q.priv || !s.pendingCycles.any (fun p => p.2.priv) then s
        else
          let s1 := (s.setCycle ch { q with suspended := true }).setPlanState ch 3
          { s1 with plan := { s1.plan with running := none } }))

/-- R215: the fallback choice against the newest epoch, with TIMEOUT. One whose output cannot be written yet (`waits`) is emitted with the reduction's
end. -/
def State.planTimeout (s : State) (waits : Bool) (ch : Nat) (q : PlanCycle) : State :=
  match s.newest with
  | none => s
  | some e => if waits then s else s.planEmit ch q (q.fallback (s.chan ch).prev e 4 [])

/-- PLAN_CYCLE_RESUME (R206, R215): a cycle whose guard point has passed emits its fallback. -/
def execPlanCycleResume (s : State) : Host.Outcome State Fault Refusal :=
  .next (s.live (
    if !s.planOn || s.plan.running.isSome || s.pendingCycles.any (fun p => p.2.priv) then s
    else
      match s.suspendedCycle with
      | none => s
      | some (ch, q) =>
        let s1 := (s.setCycle ch { q with suspended := false }).setPlanState ch 2
        let s2 := { s1 with plan := { s1.plan with running := some ch } }
        if q.guarded then s2.planTimeout (s.emitWaits ch q) ch q else s2))

/-- PLAN_REDUCTION_END (R214), or the output of a cycle past its guard point (R215), once the output can be written. -/
def execPlanReductionEnd (s : State) : Host.Outcome State Fault Refusal :=
  .next (s.live (
    if !s.planOn then s
    else
      match s.plan.running with
      | none => s
      | some ch =>
        match (s.chan ch).cycle with
        | none => s
        | some q =>
          if q.guarded && !q.priv then s.planTimeout (s.emitWaits ch q) ch q
          else if s.emitWaits ch q then s
          else match q.snap.bind s.epoch?, s.newest with
          | some e, some n => s.planEmit ch q (q.select (s.chan ch).prev e n)
          | _, _ => s))

/-- PLAN_GUARD_POINT (R215), from 20 us before the deadline: a privileged cycle is reported and goes on; an ordinary one emits its fallback, at once unless it is suspended. -/
def execPlanGuardPoint (ch : Fin 16) (s : State) : Host.Outcome State Fault Refusal :=
  let c := ch.val
  .next (s.live (
    match (s.chan c).cycle with
    | none => s
    | some q =>
      if q.guarded || s.clock.now + 20000 < q.deadline then s
      else
        let r := { q with guarded := true }
        let s1 := s.setCycle c r
        if q.priv then s1.raise srcPlanPrivTimeout
        else if q.suspended then s1.raise srcPlanTimeout
        else (s1.raise srcPlanTimeout).planTimeout (s.emitWaits c q) c r))

/-- PLAN_CH_STATUS_READ (R14). -/
def execPlanChStatusRead (who : Initiator) (ch : Fin 16) (s : State) : Host.Outcome State Fault Refusal :=
  .next (s.live (s.regRd who .plan_ch_status ch.val 0 (fun t => t.reg64 (PLAN_CH_STATUS ch.val))
    (fun t => t.readClear (PLAN_CH_STATUS ch.val) (RegFam.fields .plan_ch_status))))

/-- PROC_PLAN_STALE (R261), when 2 x PERIOD_US have passed without an output. -/
def execProcPlanStale (ch : Fin 16) (s : State) : Host.Outcome State Fault Refusal :=
  let c := ch.val
  .next (s.live (
    if !s.procRunning || !s.planPriv c || !s.on (PLAN_CH_CTRL.ENABLE c) || s.proc.planStale.contains c
        || !s.passed (Table.get s.proc.planOut 0 c) (2000 * s.planPeriod c) then s
    else { s with proc := { s.proc with planStale := s.proc.planStale ++ [c] } }.assertSrc srcProcPlanStale))

end Sys2Proof.Machine
end

