-- ==== Sys2Proof/Machine/Proctor.lean ====
section
/-! DEFINITION. Proctor's compare path, Quiz runs, the Drill and Roll Call (10_safety_mechanisms R234-R255), and the commit of a job with what
Proctor and the planning engine take at that moment (07_scheduling R174; 10 R259; 08_motion_planner R198). -/

namespace Sys2Proof.Machine

/-! ### Commit (R174) -/

/-- JOB_COMMIT: the job becomes COMMITTING; Proctor takes the signals bound to its Lesson (R259), and a batch source bound to it is owed a
copy (R198). While a signal's memory must be waited for, the commit waits (log entry 64). -/
def execJobCommit (tag : Fin 1024) (s : State) : Host.Outcome State Fault Refusal :=
  let t := tag.val
  .next (s.live (
    let s1 := s.tryCommit t
    match s.job? t, s1.job? t with
    | some a, some j =>
      if a.state = 4 || j.state ≠ 4 then s1
      else if s1.lessonWaits j.slice (j.committed % 2 ^ 64) then s
      else
        let id := j.committed % 2 ^ 64
        let s2 := s1.takeLesson j.slice id (handleOf j.gen t)
        if (s2.planSource j.slice id).isSome && s2.planOn then
          { s2 with plan := { s2.plan with copies := s2.plan.copies ++ [t] } }
        else s2
    | _, _ => s1))

/-! ### Boot items (R395, R396) -/

/-- BOOT_LESSON_LOAD (R395, R396): an item from boot flash is admitted as a LESSON_LOAD or a RUBRIC_LOAD would be; a refusal is kept for the
report. -/
def execBootLessonLoad (item : BootItem) (s : State) : Host.Outcome State Fault Refusal :=
  .next (s.live (
    if !s.scRunning then s
    else match item with
    | .lesson slice image root readback =>
      if !s.regRunning || s.reg.loading.isSome then s
      else
        let f := s.findImage image root none
        match f.1.admitImage slice.val image 0 f.2.root with
        | .refused st _ => f.1.noteRefusal st
        | .placed t l =>
          if t.contentWaits l then s
          else
            let p := t.settleLesson l readback
            if p.2 then p.1 else p.1.noteRefusal msFault
    | .rubric content root queue =>
      if !s.procRunning then s
      else
        let p := s.loadRubric root content queue
        if p.2.1 = msOk then p.1 else p.1.noteRefusal p.2.1))

/-! ### The compare path (R238) -/

/-- Every Seat of a run of job `t` has completed its END descriptor. -/
def State.endsDone (s : State) (t : Nat) (fb : Bool) (seats : List (Nat × Nat)) : Bool :=
  !seats.isEmpty && seats.all (fun p =>
    let x := s.seat p.1
    x.ended && x.flight.isEmpty && (match x.job with | some r => !r.quiz && r.ref = t && r.fallback = fb | none => false))

/-- The Seats of replica 0 beside those of replica 1, in the order of R237. -/
def seatPairs (seats : List (Nat × Nat)) : List (Nat × Nat) :=
  ((seats.filter (fun p => p.2 = 0)).map (·.1)).zip ((seats.filter (fun p => p.2 = 1)).map (·.1))

/-- The first pair whose S values differ. -/
def State.firstDiff (s : State) (seats : List (Nat × Nat)) : Option (Nat × Nat) :=
  (seatPairs seats).find? (fun p => (s.seat p.1).sig ≠ (s.seat p.2).sig)

/-- PROC_CMP_LOG and PROC_CMP_SIG0, PROC_CMP_SIG1: the first mismatch since VALID was cleared. -/
def State.logMismatch (s : State) (t : Nat) (j : Job) (l : Lesson) (p : Nat × Nat) : State :=
  if s.on PROC_CMP_LOG.VALID then s
  else
    let stage := l.stageOf p.1
    let seat := (l.stageSeats 0 stage).findIdx (· = p.1)
    let s1 := s.setReg64 PROC_CMP_LOG (2 ^ 63 + seat % 256 * 2 ^ 40 + stage % 16 * 2 ^ 36 + clusterOf p.2 % 16 * 2 ^ 32
      + clusterOf p.1 % 16 * 2 ^ 28 + j.slice % 64 * 2 ^ 22 + j.gen % 64 * 2 ^ 16 + t % 1024)
    (s1.setReg64 PROC_CMP_SIG0 (s.seat p.1).sig.toNat).setReg64 PROC_CMP_SIG1 (s.seat p.2).sig.toNat

/-- The report on a run of job `t` (R238). After a failed Drill of the path no comparison reports equal (R250). -/
def State.compareRun (s : State) (t : Nat) (j : Job) (fb : Bool) (l : Lesson) (seats : List (Nat × Nat)) : State :=
  match s.firstDiff seats with
  | none =>
    if s.proc.compareBad then s
    else
      let s1 := s.wrapAdd PROC_STATUS.COMPARES 1
      if fb then s1.setJob t { j with fb := j.fb.map (fun f => { f with sigEqual := true }) }
      else s1.setJob t { j with sigEqual := true }
  | some p =>
    let s1 := ((s.wrapAdd PROC_STATUS.COMPARES 1).satAdd PROC_STATUS.MISMATCHES 1).logMismatch t j l p
    (s1.raise srcSigMismatch).strike t fb 7 msFault none

/-- A Drill step of the compare path runs: key 3 x 128 (R248). -/
def State.compareTested (s : State) : Bool :=
  match Table.find s.proc.passes 384 with
  | some p => p.running
  | none => false

/-- The run of job `t` whose signatures are due: the original, then its fallback. -/
def State.compareDue (s : State) (t : Nat) (j : Job) : Option (Bool × Lesson × List (Nat × Nat)) :=
  let orig := match s.lesson? j.lesson with
    | some l => if imSafety l.image && !j.origStopped && !j.sigEqual && s.endsDone t false j.seats then some (false, l, j.seats) else none
    | none => none
  match orig, j.fb with
  | some x, _ => some x
  | none, none => none
  | none, some f =>
    match s.lesson? f.lesson with
    | some l => if imSafety l.image && !f.sigEqual && s.endsDone t true f.seats then some (true, l, f.seats) else none
    | none => none

/-- SIGNATURE_COMPARE (R238). -/
def execSignatureCompare (tag : Fin 1024) (s : State) : Host.Outcome State Fault Refusal :=
  let t := tag.val
  .next (s.live (
    match s.job? t with
    | none => s
    | some j =>
      if !s.procRunning || s.compareTested || j.voltage || 4 ≤ j.state then s
      else match s.compareDue t j with
        | none => s
        | some (fb, l, seats) => s.compareRun t j fb l seats))

/-- PROC_STATUS_READ (R14). -/
def execProcStatusRead (who : Initiator) (s : State) : Host.Outcome State Fault Refusal :=
  .next (s.live (s.regRd who .proc_status 0 0 (fun t => t.reg64 PROC_STATUS)
    (fun t => t.readClear PROC_STATUS (RegFam.fields .proc_status))))

/-! ### Quiz runs (R240-R244) -/

/-- QUIZ_SET (R241). -/
def State.quizSetRun (s : State) (i : Nat) (bs : List Byte) : Answer :=
  let k := lessonKey i (leAt bs 0 8)
  let period := leAt bs 8 4
  let phase := leAt bs 12 4
  let defer := leAt bs 16 1
  match s.lesson? k with
  | none => s.answer msBadarg
  | some l =>
    if imSafety l.image && 1000 ≤ period && period ≤ 1000000 && phase < period && 1 ≤ defer && defer ≤ 64
        && imQuizCycles l.image * 100 ≤ 373 * period && leAt bs 17 7 = 0 then
      (s.setLesson k { l with quizPeriod := period, quizPhase := phase, quizDefer := defer }).answer msOk
    else s.answer msBadarg

/-- QUIZ_SET. -/
def execQuizSet (mb : Fin 68) (s : State) : Host.Outcome State Fault Refusal :=
  .next (s.live (s.serve mb.val 0x0031 (fun t r bs => t.quizSetRun (hSlice r.header) bs)))

/-- QUIZ_SLOT (R241, R242), at the Vehicle Times of the Lesson's slots: one run becomes pending, or merges into the one that is pending or running. -/
def execQuizSlot (slice : Fin 64) (lesson : Word) (s : State) : Host.Outcome State Fault Refusal :=
  let k := lessonKey slice.val lesson.toNat
  .next (s.live (
    match s.lesson? k with
    | none => s
    | some l =>
      if imSafety l.image && !l.releasing && l.quizSeats.isEmpty && s.dueEvery l.quizPeriod l.quizPhase then s.setLesson k { l with quizPending := true } else s))

/-- The lowest free group of a Lesson, in both replicas. -/
def State.quizGroup (s : State) (l : Lesson) : Option (List (Nat × Nat)) := (List.range l.groups).findSome? (s.groupFree l)

/-- QUIZ_SEAT (R240, R242): every Seat of the group starts at QUIZ_ENTRY. -/
def execQuizSeat (slice : Fin 64) (lesson : Word) (s : State) : Host.Outcome State Fault Refusal :=
  let k := lessonKey slice.val lesson.toNat
  .next (s.live (
    match s.lesson? k with
    | none => s
    | some l =>
      if !s.regRunning || !l.quizPending || !l.quizSeats.isEmpty || l.releasing || (s.slice l.slice).running
          || s.jobs.any (fun p => p.2.lesson = k && p.2.state = 0) then s
      else match s.quizGroup l with
        | none => s
        | some seats =>
          (s.setLesson k { l with quizPending := false, quizSeats := seats }).readyGroup l seats
            (fun rep => ⟨true, k, false, rep⟩) true [] []))

/-- Every Seat of the run has completed END, or one has halted (log entry 35). -/
def State.quizEnded (s : State) (l : Lesson) : Bool :=
  !l.quizSeats.isEmpty && (l.quizSeats.any (fun p => s.seatState p.1 = 6)
    || l.quizSeats.all (fun p => (s.seat p.1).ended && (s.seat p.1).flight.isEmpty))

/-- The signature of each replica equals QUIZ_SIG (R240). -/
def State.quizPasses (s : State) (l : Lesson) : Bool :=
  l.quizSeats.all (fun p => s.seatState p.1 ≠ 6) && s.jobSig l.quizSeats 0 = imQuizSig l.image && s.jobSig l.quizSeats 1 = imQuizSig l.image

/-- Some Lesson is marked QUIZ_FAILED. -/
def State.anyQuizFailed (s : State) : Bool := s.lessons.any (fun p => p.2.quizFailed)

/-- QUIZ_RUN_END (R243): the run is judged; its Seats return to IDLE and a new interval of R244 starts. -/
def execQuizRunEnd (slice : Fin 64) (lesson : Word) (s : State) : Host.Outcome State Fault Refusal :=
  let k := lessonKey slice.val lesson.toNat
  .next (s.live (
    match s.lesson? k with
    | none => s
    | some l =>
      if !s.procRunning || !s.quizEnded l then s
      else
        let ok := s.quizPasses l
        let s1 := s.setLesson k { l with
          quizSeats := [], quizFailed := !ok, quizSince := s.clock.now, quizOverdue := false
          quizLast := if ok then some s.clock.now else l.quizLast }
        let s2 := s1.each (l.quizSeats.map (·.1)) State.stopSeat
        s2.levelSrc srcQuizFail s2.anyQuizFailed))

/-- QUIZ_OVERDUE (R244): raised once in an interval, when QUIZ_MAX_DEFER periods have passed. -/
def execQuizOverdue (slice : Fin 64) (lesson : Word) (s : State) : Host.Outcome State Fault Refusal :=
  let k := lessonKey slice.val lesson.toNat
  .next (s.live (
    match s.lesson? k with
    | none => s
    | some l =>
      if imSafety l.image && !l.quizOverdue && s.regRunning && l.quizSince + l.quizDefer * l.quizPeriod * 1000 ≤ s.clock.now then
        (s.setLesson k { l with quizOverdue := true }).raise srcQuizOverdue
      else s))

/-! ### The Drill (R245-R251) -/

/-- The units in the order of R245. -/
def drillIndex : DrillUnit → Nat
  | .core => 0
  | .locker => 1
  | .slate => 2
  | .compare => 3
  | .fcu => 4
  | .roll => 5

def drillInstances (u : Nat) : Nat := [128, 128, 16, 1, 1, 1].getD u 0
def drillSteps (u : Nat) : Nat := [8, 4, 16, 1, 8, 16].getD u 1
/-- The length of a step on a core, a Locker or a Slate, in tensor cycles. -/
def drillCycles (u : Nat) : Nat := if u = 0 then 30000 else 11264

def State.drillPass (s : State) (u i : Nat) : DrillPass := Table.get s.proc.passes ⟨0, 0, 0, false⟩ (u * 128 + i)
def State.setDrill (s : State) (u i : Nat) (p : DrillPass) : State :=
  { s with proc := { s.proc with passes := Table.put s.proc.passes (u * 128 + i) p } }

/-- The coverage interval of a unit type, in ms (R249). -/
def State.drillMs (s : State) (u : Nat) : Nat := Table.get s.proc.intervals 100 u

/-- DRILL_SET (R249). -/
def State.drillSetRun (s : State) (bs : List Byte) : Answer :=
  let v := (List.range 6).map (fun u => leAt bs (2 * u) 2)
  if v.all (fun n => 10 ≤ n && n ≤ 1000) then
    { s with proc := { s.proc with
        intervals := (indexed 0 v).foldl (fun t (p : Nat × Nat) => Table.set t 100 p.1 p.2) s.proc.intervals } }.answer msOk
  else s.answer msBadarg

/-- DRILL_SET. -/
def execDrillSet (mb : Fin 68) (s : State) : Host.Outcome State Fault Refusal :=
  .next (s.live (s.serve mb.val 0x0032 (fun t _ bs => t.drillSetRun bs)))

/-- The park point before the next opening of a window, 1 us before it, in ns. -/
def parkPoint (now : Nat) (w : Window) : Nat :=
  let p := w.periodMs * 1000000
  let o := w.offsetUs * 1000
  now / p * p + o + (if now % p < o then 0 else p) - 1000

/-- R248: at the die's present point, a step of `cycles` with its park ends before the park point of every window on the cluster, and no
window is open there. -/
def State.drillFits (s : State) (cluster cycles : Nat) : Bool :=
  let mhz := 750 + 125 * s.rd (PMC_OPP_CD.CUR (dieOf cluster))
  !s.inWindow cluster && s.reg.windows.all (fun w =>
    !bit w.mask cluster || s.clock.now * mhz + (cycles + 576) * 1000 < parkPoint s.clock.now w * mhz)

/-- R247: no SAFETY and no Quiz Seat of the core is READY, ISSUING or BLOCKED. -/
def State.coreCalm (s : State) (m : Nat) : Bool :=
  (List.range 8).all (fun k =>
    let g := 8 * m + k
    !(s.seatSafe g && 2 ≤ s.seatState g && s.seatState g ≤ 4))

/-- A cluster that a Drill step may use. -/
def State.drillUp (s : State) (n : Nat) : Bool :=
  s.memUp n && s.cccState n = 1 && !(s.cluster n).withdrawn && !s.dieHalted n

/-- The march engine of cluster `n` is free, and the secure row groups of its Slate are reached through the Security Core (R246). -/
def State.marchFree (s : State) (n step : Nat) (slate : Bool) : Bool :=
  (s.cluster n).march.held.isNone && !s.on (CLC_MARCH_STATUS.BUSY n) && !s.drillMarch n
    && (!slate || s.slateLevel ≤ step * 8 * 0x40000 || s.scRunning)

/-- The core can be taken: it is not withdrawn, is under no other step, and the END of its ISSUING Seat is not pending. -/
def State.coreTakable (s : State) (m : Nat) : Bool :=
  !(s.core m).withdrawn && !(s.core m).drill && s.coreCalm m
    && (match s.issuingSeat m with | some k => !s.endPending k | none => true)

/-- A step of instance `i` of unit `u` may start now (R246-R248, R251). -/
def State.drillMay (s : State) (u i : Nat) : Bool :=
  let p := s.drillPass u i
  decide (i < drillInstances u) && !p.running && s.regRunning && s.procRunning && (match u with
    | 0 => s.drillUp (i / 8) && s.coreTakable i && s.drillFits (i / 8) (drillCycles 0)
    | 1 => s.drillUp (i / 8) && s.coreTakable i && s.marchFree (i / 8) p.step false && s.drillFits (i / 8) (drillCycles 1)
    | 2 => s.drillUp i && s.marchFree i p.step true && s.drillFits i (drillCycles 2)
    | 5 => !s.proc.inFrame.contains p.step
    | _ => true)

/-- The time left of an instance's coverage interval, in ns, counted from now (R249). -/
def State.drillLeft (s : State) (u i : Nat) : Int :=
  ((s.drillPass u i).start + s.drillMs u * 1000000 : Nat) - (s.clock.now : Int)

/-- Among the steps that may start, none has less time left (R249). -/
def State.drillFirst (s : State) (u i : Nat) : Bool :=
  (List.range 6).all (fun v => (List.range (drillInstances v)).all (fun j =>
    !(decide (s.drillLeft v j < s.drillLeft u i) && s.drillMay v j)))

/-- A step takes core `m`: its ISSUING Seat is parked (R66), and no Seat of it issues (R247). -/
def State.takeCore (s : State) (m : Nat) : State :=
  let s1 := s.vacate m
  s1.setCore m { s1.core m with drill := true, incoming := none, outgoing := none }

/-- A march step holds the first of its 8 row groups (R245, R246). -/
def State.takeMarch (s : State) (n mem step : Nat) : State :=
  (s.setCluster n { s.cluster n with
    march := ⟨[], mem, 8 * step, 8 * step, 8 * step + 7, false, false, [], some (mem, 8 * step), false⟩ }).wr (CLC_MARCH_STATUS.BUSY n) 1

/-- DRILL_STEP_START (R247-R249). -/
def State.startDrill (s : State) (u i : Nat) : State :=
  let p := s.drillPass u i
  let s1 := s.setDrill u i { p with running := true, began := if p.step = 0 then s.clock.now else p.began }
  match u with
  | 0 => s1.takeCore i
  | 1 => (s1.takeCore i).takeMarch (i / 8) (i % 8) p.step
  | 2 => s1.takeMarch i 8 p.step
  | _ => s1

/-- DRILL_STEP_START. -/
def execDrillStepStart (unit : DrillUnit) (inst : Nat) (s : State) : Host.Outcome State Fault Refusal :=
  let u := drillIndex unit
  .next (s.live (if s.drillMay u inst && s.drillFirst u inst then s.startDrill u inst else s))

/-- The row groups of a march step that are still to be tested are written back as its test ends. -/
def State.endMarchStep (s : State) (n : Nat) : State :=
  let q := (s.cluster n).march
  let s1 := if q.held.isSome then
      s.each (List.range (q.last + 1 - q.group)) (fun u k =>
        (u.setCluster n { u.cluster n with march := { q with group := q.group + k } }).groupBack n)
    else s
  s1.idleMarch n

/-- R250: the effect of a failing step. -/
def State.drillFails (s : State) (u i step : Nat) : State :=
  match u with
  | 0 => (s.assertSrc (srcCluster (i / 8) 10)).withdrawCore i
  | 1 => (s.assertSrc (srcCluster (i / 8) 10)).withdrawCore i
  | 2 => (s.assertSrc (srcCluster i 11)).withdrawCluster i
  | 3 => { s with proc := { s.proc with compareBad := true } }.assertSrc srcDrillFailCompare
  | 4 => (s.assertSrc srcDrillFailFcu).selfcheckFail
  | _ =>
    let p := s.proc
    { s with proc := { p with unguarded := if p.unguarded.contains step then p.unguarded else step :: p.unguarded } }.assertSrc
      srcDrillFailRoll

/-- R269, R280, R281: reaction X on an event of source `n`, where the source names the block: a compute die (R28) or a cluster (R250). The
memory of MEM_REPAIR_EXHAUSTED and the core of DRILL_FAIL_CORE are known to the test that failed, which withdraws them (log entry 36). -/
def State.isolate (s : State) (n : Nat) : State :=
  if !bit (s.rd (FCU_SRC_CFG.REACT n)) 2 then s
  else if n = 0x042 || n = 0x043 then (if (s.die (n - 0x042)).powered then s.loseDie (n - 0x042) else s)
  else if n = 0x029 || n = 0x02A then (if (s.die (n - 0x029)).powered then s.powerDownDie (n - 0x029) else s)
  else if 0x100 ≤ n && n % 16 = 11 then s.withdrawCluster ((n - 0x100) / 16)
  else s

/-- The events held while their source was under test reach the FCU (R248). -/
def State.releaseEvents (s : State) : State :=
  { s with proc := { s.proc with heldEvents := [] } }.each s.proc.heldEvents (fun t n => (t.takeEvent n).isolate n)

/-- R281: source `n` stands for a withdrawn core or cluster, and keeps asserting until its die is powered down. -/
def State.keepsAsserting (s : State) (n : Nat) : Bool :=
  let k := (n - 0x100) / 16
  decide (0x100 ≤ n) && isLevelSrc n && ((s.cluster k).withdrawn || (List.range 8).any (fun i => (s.core (8 * k + i)).withdrawn))

/-- R266: an event of source `n` reaches the FCU; for a level source, its condition becomes true or ends. -/
def State.sourceEvent (s : State) (n : Nat) (holds : Bool) : State :=
  let fresh := !s.on (FCU_SRC_STATE.ASSERTING n)
  let s1 := if isLevelSrc n then (if !holds && s.keepsAsserting n then s else s.levelSrc n holds) else s.raise n
  if (fresh || !isLevelSrc n) && (holds || !isLevelSrc n) && !s.underTest n then s1.isolate n else s1

/-- FCU_EVENT (R218, R267, R268): events of one cycle are treated in ascending source ID, several of one source as one (R266). A store node
that the cycle's errors made uncorrectable is marked first; the check that reads it raises PLAN_SRAM_UE itself (R210, log entry 22). -/
def execFcuEvent (sources : List (Fin 512)) (input : FcuInput) (s : State) : Host.Outcome State Fault Refusal :=
  let l := (List.range 512).filter (fun n => sources.any (fun x => x.val = n))
  .next (s.live ((s.each input.nodes State.markNode).each (l.filter (fun n => (srcReset n).isSome)) (fun t n => t.sourceEvent n input.holds)))

/-- The step counts, and the last one of a pass ends the interval: the next counts from the start of this pass (R249). -/
def DrillPass.done (p : DrillPass) (steps : Nat) : DrillPass :=
  if steps ≤ p.step + 1 then ⟨max p.start p.began, p.began, 0, false⟩ else { p with step := p.step + 1, running := false }

/-- DRILL_STEP_END (R247, R250): what the step took goes on; Proctor judges the step, and one that it cannot judge runs again. -/
def State.endDrill (s : State) (u i : Nat) (pass : Bool) : State :=
  let p := s.drillPass u i
  let s1 := match u with
    | 0 => s.freeCore i
    | 1 => (s.endMarchStep (i / 8)).freeCore i
    | 2 => s.endMarchStep i
    | _ => s
  let s2 := s1.setDrill u i (if s.procRunning then p.done (drillSteps u) else { p with running := false })
  let s3 := if u = 4 then s2.releaseEvents else s2
  if pass || !s.procRunning then s3 else s3.drillFails u i p.step

/-- DRILL_STEP_END. -/
def execDrillStepEnd (unit : DrillUnit) (inst : Nat) (pass : Bool) (s : State) : Host.Outcome State Fault Refusal :=
  let u := drillIndex unit
  .next (s.live (if (s.drillPass u inst).running then s.endDrill u inst pass else s))

/-- The instance is there to be tested. -/
def State.drillThere (s : State) (u i : Nat) : Bool :=
  decide (i < drillInstances u) && (match drillCluster u i with
    | some n => s.memUp n && !(s.cluster n).withdrawn && (u = 2 || !(s.core i).withdrawn)
    | none => true)

/-- DRILL_INTERVAL_END (R249, R321), when no time of the interval is left: DRILL_STARVED with its event to the privileged mailboxes; the pass goes on in a new interval. -/
def execDrillIntervalEnd (unit : DrillUnit) (inst : Nat) (s : State) : Host.Outcome State Fault Refusal :=
  let u := drillIndex unit
  .next (s.live (
    if !s.drillThere u inst || decide (0 < s.drillLeft u inst) then s
    else
      let s1 := (s.setDrill u inst { s.drillPass u inst with start := s.clock.now }).raise srcDrillStarved
      s1.each [64, 65, 66, 67] (fun t i => t.sendEvent i 0x8002 (u + inst % 256 * 256))))

/-! ### Roll Call (R252-R255) -/

/-- The stream is guarded: enabled, and its checker has not failed a Drill step (R250). -/
def State.guarded (s : State) (n : Nat) : Bool := s.on (ROLL_STR_CFG.ENABLE n) && !s.proc.unguarded.contains n

/-- A frame starts on stream `n`: a Drill step on the stream is abandoned (R248). -/
def State.frameBegins (s : State) (n : Nat) : State :=
  let p := s.proc
  let s1 := { s with proc := { p with inFrame := if p.inFrame.contains n then p.inFrame else n :: p.inFrame } }
  let d := s1.drillPass 5 0
  if d.running && d.step = n then s1.setDrill 5 0 { d with running := false } else s1

/-- ROLL_FRAME_START (R254): a valid frame start, where the camera receivers have power and clock (R21), restarts the STALE time, clears STALE and sets SEEN. What it replaces is kept until the frame's
end, for an invalid frame does none of it (R255, log entry 85). -/
def execRollFrameStart (stream : Fin 16) (valid : Bool) (s : State) : Host.Outcome State Fault Refusal :=
  let n := stream.val
  .next (s.live (
    let s1 := s.frameBegins n
    if !s.unitOn 14 then s
    else if valid && s1.guarded n then
      let s2 := ((s1.wr (ROLL_STR_STATUS.STALE n) 0).wr (ROLL_STR_STATUS.SEEN n) 1).deassertSrc (srcRollStale n)
      { s2 with proc := { s2.proc with
          staleFrom := Table.put s2.proc.staleFrom n s.clock.now
          rollSaved := Table.put s2.proc.rollSaved n
            (Table.get s.proc.staleFrom 0 n, s.on (ROLL_STR_STATUS.STALE n), s.on (ROLL_STR_STATUS.SEEN n)) } }
    else s1))

/-- The bytes of the frame counter: 0, 1, 2 or 4. -/
def embBytes (v : Nat) : Nat := if v = 3 then 4 else v

/-- R252: the frame counter. A first embedded-data line too short for it leaves the counter open: a free value. -/
def State.frameCounter (s : State) (n : Nat) (f : CamFrame) : State × Nat :=
  let k := embBytes (s.rd (ROLL_STR_CFG.EMB_BYTES n))
  let o := s.rd (ROLL_STR_CFG.EMB_OFFSET n)
  let b := (f.embedded.drop o).take k
  if b.length = k then (s, leNat (if s.on (ROLL_STR_CFG.EMB_BE n) then b.reverse else b))
  else
    let p := s.draw
    (p.2, (Config.freeWord p.1).toNat % 2 ^ (8 * k))

/-- The bits of a pixel in the raw data types of MIPI CSI-2, 0x2A RAW8 to 0x2E RAW16 (log entry 85). -/
def rawBits (dt : Nat) : Option Nat :=
  match dt with
  | 0x2A => some 8
  | 0x2B => some 10
  | 0x2C => some 12
  | 0x2D => some 14
  | 0x2E => some 16
  | _ => none

/-- Byte `k` of a line. -/
def lineByte (l : List Byte) (k : Nat) : Nat := (l.getD k 0#8).toNat

/-- R252: pixel `x` of a line, unpacked as MIPI CSI-2 packs its data type: the high bytes of a group of pixels, then their low bits. -/
def pixelAt (dt : Nat) (l : List Byte) (x : Nat) : Nat :=
  match rawBits dt with
  | some 8 => lineByte l x
  | some 10 => lineByte l (x / 4 * 5 + x % 4) * 4 + lineByte l (x / 4 * 5 + 4) / 4 ^ (x % 4) % 4
  | some 12 => lineByte l (x / 2 * 3 + x % 2) * 16 + lineByte l (x / 2 * 3 + 2) / 16 ^ (x % 2) % 16
  | some 14 =>
    let o := x / 4 * 7
    let low := lineByte l (o + 4) + lineByte l (o + 5) * 2 ^ 8 + lineByte l (o + 6) * 2 ^ 16
    lineByte l (o + x % 4) * 64 + low / 64 ^ (x % 4) % 64
  | some 16 => lineByte l (2 * x) * 256 + lineByte l (2 * x + 1)
  | _ => (Config.pixelValue dt l x).toNat

/-- The pixels that a line holds. -/
def linePixels (dt : Nat) (l : List Byte) : Nat :=
  match rawBits dt with
  | some b => 8 * l.length / b
  | none => (Config.pixelCount dt l.length).toNat

/-- The lines and the columns of the sample grid (ROLL_STRn_GRID). -/
def State.gridRows (s : State) (n : Nat) : List Nat :=
  (List.range (s.rd (ROLL_STR_GRID.COUNT_Y n) + 1)).map (fun j => s.rd (ROLL_STR_GRID.Y0 n) + j * s.rd (ROLL_STR_GRID.STEP_Y n))
def State.gridCols (s : State) (n : Nat) : List Nat :=
  (List.range (s.rd (ROLL_STR_GRID.COUNT_X n) + 1)).map (fun i => s.rd (ROLL_STR_GRID.X0 n) + i * s.rd (ROLL_STR_GRID.STEP_X n))

/-- R255: the frame holds every sample of the grid. -/
def State.gridFits (s : State) (n : Nat) (f : CamFrame) : Bool :=
  (s.gridRows n).all (fun y => y < f.lines.length
    && (s.gridCols n).all (fun x => x < linePixels f.dataType.toNat (f.lines.getD y [])))

/-- R252: the samples of a frame in row order. -/
def State.gridSamples (s : State) (n : Nat) (f : CamFrame) : List Nat :=
  (s.gridRows n).flatMap (fun y => (s.gridCols n).map (fun x => pixelAt f.dataType.toNat (f.lines.getD y []) x))

/-- R252: the signature over the samples and, with SIG_COUNTER, the counter. -/
def frameSig (samples : List Nat) (withCounter : Bool) (c : Nat) : Nat :=
  crc64 0 (samples.flatMap (leBytes 2) ++ (if withCounter then leBytes 4 c else []))

/-- R253: the end of a valid frame. SAME_RUN counts the frames of the run, the first of them too (log entry 35). -/
def State.validFrame (s : State) (n : Nat) (f : CamFrame) : State :=
  let p := s.frameCounter n f
  let sig := frameSig (s.gridSamples n f) (s.on (ROLL_STR_CFG.SIG_COUNTER n)) p.2
  let before := s.proc.rollPrev.contains n
  let run := if before && s.reg64 (ROLL_STR_SIG n) = sig then min (s.rd (ROLL_STR_STATUS.SAME_RUN n) + 1) 15 else 1
  let still := before && s.rd (ROLL_STR_CFG.EMB_BYTES n) ≠ 0 && s.rd (ROLL_STR_STATUS.LAST_COUNTER n) = p.2
  let frozen := still || decide (s.rd (ROLL_STR_CFG.K n) ≤ run)
  let s1 := (((p.1.setReg64 (ROLL_STR_SIG n) sig).wr (ROLL_STR_STATUS.LAST_COUNTER n) p.2).wr (ROLL_STR_STATUS.SAME_RUN n) run).wr
    (ROLL_STR_STATUS.FROZEN n) (b2n frozen)
  let s2 := { s1 with proc := { s1.proc with rollPrev := if before then s1.proc.rollPrev else n :: s1.proc.rollPrev } }
  s2.levelSrc (srcRollFrozen n) frozen

/-- R255: what the start of a frame that ends invalid did is undone: the STALE time, STALE and SEEN are as they were. -/
def State.frameUndone (s : State) (n : Nat) : State :=
  match Table.find s.proc.rollSaved n with
  | none => s
  | some (t, stale, seen) =>
    let s1 := { s with proc := { s.proc with staleFrom := Table.put s.proc.staleFrom n t, rollSaved := Table.del s.proc.rollSaved n } }
    let s2 := (s1.wr (ROLL_STR_STATUS.STALE n) (b2n stale)).wr (ROLL_STR_STATUS.SEEN n) (b2n seen)
    s2.when stale (fun u => u.assertSrc (srcRollStale n))

/-- ROLL_FRAME_END (R253, R255, R259), where the camera receivers have power and clock (R21). -/
def execRollFrameEnd (stream : Fin 16) (frame : CamFrame) (s : State) : Host.Outcome State Fault Refusal :=
  let n := stream.val
  .next (s.live (
    let s1 := { s with proc := { s.proc with inFrame := s.proc.inFrame.filter (· ≠ n) } }
    if !s.unitOn 14 then s
    else if !s1.guarded n then s1
    else if frame.valid && s1.gridFits n frame then
      ({ s1 with proc := { s1.proc with rollSaved := Table.del s1.proc.rollSaved n } }.validFrame n frame).takeStream n
    else (((s1.frameUndone n).satAdd (ROLL_STR_STATUS.BAD_FRAMES n) 1).raise srcRollBad).takeStream n))

/-- ROLL_STALE (R254), once STALE_US has passed since the start of the last valid frame. -/
def execRollStale (stream : Fin 16) (s : State) : Host.Outcome State Fault Refusal :=
  let n := stream.val
  .next (s.live (
    if s.guarded n && Table.get s.proc.staleFrom 0 n + s.rd (ROLL_STR_CFG.STALE_US n) * 1000 ≤ s.clock.now then
      (s.wr (ROLL_STR_STATUS.STALE n) 1).assertSrc (srcRollStale n)
    else s))

/-- STALE_US and K take only what the register table allows. -/
def rollCfgOk (x : Fld) (v : Nat) : Bool :=
  if x.lo = 44 then 1000 ≤ v && v ≤ 1000000 else if x.lo = 40 then 2 ≤ v && v ≤ 15 else true

/-- A write to ROLL_STRn_CFG: its fields, and with ENABLE written 1 a fresh start of the stream. -/
def State.rollCfgWrite (s : State) (n v : Nat) : State :=
  let s1 := s.plainWrite (ROLL_STR_CFG n) (RegFam.fields .roll_str_cfg) false v rollCfgOk
  if bit v 0 then
    let s2 := (((s1.wr (ROLL_STR_STATUS.SAME_RUN n) 0).wr (ROLL_STR_STATUS.FROZEN n) 0).wr (ROLL_STR_STATUS.STALE n) 0).wr
      (ROLL_STR_STATUS.SEEN n) 0
    let s3 := (s2.deassertSrc (srcRollFrozen n)).deassertSrc (srcRollStale n)
    { s3 with proc := { s3.proc with
        rollPrev := s3.proc.rollPrev.filter (· ≠ n), staleFrom := Table.put s3.proc.staleFrom n s.clock.now
        rollSaved := Table.del s3.proc.rollSaved n } }
  else s1

/-- ROLL_CFG_WRITE (R252). -/
def execRollCfgWrite (who : Initiator) (stream : Fin 16) (data : Word) (s : State) : Host.Outcome State Fault Refusal :=
  .next (s.live (s.regWr who .roll_str_cfg stream.val 0 (fun t => t.rollCfgWrite stream.val data.toNat)))

/-- ROLL_STATUS_READ (R14). -/
def execRollStatusRead (who : Initiator) (stream : Fin 16) (s : State) : Host.Outcome State Fault Refusal :=
  .next (s.live (s.regRd who .roll_str_status stream.val 0 (fun t => t.reg64 (ROLL_STR_STATUS stream.val))
    (fun t => t.readClear (ROLL_STR_STATUS stream.val) (RegFam.fields .roll_str_status))))

end Sys2Proof.Machine
end

