-- ==== Sys2Proof/Machine/RegAccess.lean ====
section
/-! DEFINITION. The bus: what an access of any initiator at any address does (00_scope R12-R16; 01_device_architecture R30-R33;
11_fault_collection R277, R417; 14_slices R328, R330; 15_bridges_pair_link R337-R347). -/

namespace Sys2Proof.Machine

/-! ### Writing a register (R12-R16) -/

/-- Every value is taken. -/
def anyValue (_ : Fld) (_ : Nat) : Bool := true

/-- A write by the access codes of the family's fields alone. -/
def State.plainReg (s : State) (f : RegFam) (i j v : Nat) (locked : Bool) (ok : Fld → Nat → Bool) : State :=
  s.plainWrite (f.reg i j) f.fields locked v ok

/-- A write to CLC_SEAT_DESC_PTR: only in IDLE (R46). -/
def State.descPtrWrite (s : State) (n k v : Nat) : State :=
  let g := 64 * n + k
  if s.seatState g = 1 then
    (s.setSeat g { s.seat g with ptrOver := false }).plainReg .clc_seat_desc_ptr n k v false anyValue
  else s

/-- A write to CLC_SEAT_PADCONST: only in EMPTY or IDLE. -/
def State.padConstWrite (s : State) (n k v : Nat) : State :=
  if s.seatState (64 * n + k) ≤ 1 then s.plainReg .clc_seat_padconst n k v false anyValue else s

/-- ROLL_STRn_GRID accepts counts of 1 to 64 and steps other than 0. -/
def rollGridOk (x : Fld) (n : Nat) : Bool :=
  if x.lo = 56 || x.lo = 48 then decide (n ≤ 63) else if x.lo = 40 || x.lo = 32 then n ≠ 0 else true

/-- The effect of a write of `v` by initiator `w` on a register of family `f`. The fields that only the device writes stay (R12). -/
def State.regStore (s : State) (w : Initiator) (f : RegFam) (i j v : Nat) : State :=
  match f with
  | .cfg_ident | .aon_service | .clc_seat_state | .clc_seat_progress | .clc_mem_ecccount | .clc_march_status
  | .plan_store_status | .plan_ch_status | .disp_rast_status | .disp_pipe_status | .proc_status | .proc_cmp_sig0 | .proc_cmp_sig1
  | .roll_str_status | .roll_str_sig | .fcu_summary | .fcu_src_state | .fcu_log | .hub_viol_info | .core_viol_info | .clc_viol_info
  | .wmark_viol_info | .sec_state | .mlmb_mb_status | .mlmb_mb_features | .mlmb_fw_state | .mlmb_fw_restarts | .mlmb_ccc_restarts
  | .brg_status | .brg_barrier | .brg_viol_info | .brg_pel_addr | .brg_pel_info | .qmgr_qptr | .time_now | .time_status
  | .time_tick_us | .pmc_opp_cd | .pmc_budget | .pmc_energy => s
  | .clc_seat_share => s.seatShareWrite (64 * i + j) v
  | .clc_seat_desc_ptr => s.descPtrWrite i j v
  | .clc_seat_padconst => s.padConstWrite i j v
  | .clc_mem_uelog | .disp_rast_spill | .disp_rast_lesson | .disp_plane_cfg | .hub_viol_addr | .core_viol_addr | .clc_viol_addr
  | .wmark_viol_addr | .secmb_ch_rsp | .pmc_hold_log | .brg_viol_addr | .gw_gct_data | .gw_obj_sel | .pmc_rail_status
  | .aon_reset_cause => s.plainReg f i j v false anyValue
  | .clc_march_ctrl => s.marchCtrlWrite i v (isSecCore w)
  | .wmark_slate => s.slateLevelWrite v
  | .wmark_slate_ctrl => s.slateCtrlWrite v
  | .wmark_dram => s.dramLevelWrite v
  | .wmark_dram_ctrl => s.dramCtrlWrite v
  | .plan_priv => s.planPrivWrite v
  | .plan_src_lesson => s.planSrcWrite i v
  | .plan_src_addr => s.planSrcAddrWrite i v
  | .plan_ch_ctrl => s.planCtrlWrite w i v
  | .plan_ch_cfg => s.setReg64 (PLAN_CH_CFG i j) (v &&& planCfgMask j)
  | .plan_ch_start => s.setReg64 (PLAN_CH_START i j) (v &&& planStartMask j)
  | .disp_rast_ctrl => s.rastCtrlWrite v
  | .disp_rast_ring => s.rastRingWrite v
  | .disp_rast_ptr => s.rastHeadWrite v
  | .disp_pipe_ctrl => s.pipeCtrlWrite i v
  | .disp_pipe_timing_h | .disp_pipe_timing_v => s.pipeTimingWrite f i v
  | .disp_plane_addr => s.planeAddrWrite i j v
  | .proc_cmp_log => if isProctor w || s.isSecure w then s.plainReg f i j v false anyValue else s
  | .roll_str_cfg => s.rollCfgWrite i v
  | .roll_str_grid => s.plainReg f i j v false rollGridOk
  | .fcu_ctrl => s.fcuCtrlWrite v
  | .fcu_log_ptr => s.fcuLogPtrWrite v
  | .fcu_sw_raise => s.fcuRaiseWrite v
  | .fcu_src_status => s.fcuStatusWrite i v
  | .fcu_src_ack => s.fcuAckWrite i v
  | .fcu_src_cfg => s.fcuCfgWrite i v
  | .secmb_ch_req => s.secmbReqWrite w i v
  | .apc_llc_part => s.plainReg f i j v (s.on APC_LLC_PART.LOCK) (fun x n => x.lo ≠ 0 || n ≠ 0xFFFF)
  | .pmc_sec_hold => s.secHoldWrite v
  | .mlmb_priv_owner => s.plainReg f i j v (s.on (MLMB_PRIV_OWNER.LOCK i)) anyValue
  | .brg_ctrl => s.brgCtrlWrite i v
  | .brg_pel_status => s.pelWrite i v
  | .pair_out_cfg => s.pairWinWrite (.outCfg ⟨i % 8, Nat.mod_lt _ (by decide)⟩) v
  | .pair_out_remote => s.pairWinWrite (.outRemote ⟨i % 8, Nat.mod_lt _ (by decide)⟩) v
  | .pair_in_base => s.pairWinWrite (.inBase ⟨i % 8, Nat.mod_lt _ (by decide)⟩) v
  | .pair_in_cfg => s.pairWinWrite (.inCfg ⟨i % 8, Nat.mod_lt _ (by decide)⟩) v
  | .pair_alive => s.pairAliveWrite v
  | .qmgr_sel => { s with qsel := Table.set s.qsel 0 (s.qParty w) (bits v 15 0) }
  | .qmgr_qbase => s.qbaseWrite (s.qSelected w) v
  | .qmgr_qcfg => s.qcfgWrite w (s.qSelected w) v
  | .qmgr_qcells => s.qcellsWrite w (s.qSelected w) v
  | .qmgr_doorbell => s.doorbell w v
  | .qmgr_pool => (s.wr QMGR_POOL.LOW_CELLS (bits v 63 49)).poolCheck
  | .gw_port_cfg => s.portCfgWrite i v
  | .gw_admin => s.plainReg f i j v (s.on GW_ADMIN.LOCK) anyValue
  | .gw_gct_ctrl => s.gctCtrlWrite v
  | .gw_obj_value => s.objWrite v
  | .time_ctrl => s.timeCtrlWrite v
  | .time_tto_start => s.ttoStartWrite i v
  | .time_tto_cfg => s.ttoCfgWrite i v
  | .pmc_limit_cd => s.limitCdWrite i v
  | .pmc_limit_pkg => s.limitPkgWrite v
  | .aon_reset_req => s.resetReqWrite v
  | .cfg_pad => s.plainReg f i j v (s.on (CFG_PAD.LOCK i)) (fun x n => x.lo ≠ 12 || decide (n ≤ 4))

/-- A write that a register refuses for its value: DISP_RAST_CTRL.SLICE by another than the Registrar (R219). -/
def State.regShut (s : State) (w : Initiator) (f : RegFam) (v : Nat) : Bool :=
  f = .disp_rast_ctrl && s.rightsOk .disp_rast_ctrl 0 w true && !s.rastCtrlRights (s.ctx w) v

/-- A write to a register, with its checks. A doorbell gives its own response (R355). -/
def State.regPut (s : State) (w : Initiator) (f : RegFam) (i j v : Nat) : State :=
  if s.arrives w.kind w.index (f.reg i j).addr && s.regUp (f.reg i j).addr && s.regShut w f v then s.regRefused w (f.reg i j).addr true 3
  else if f = .qmgr_doorbell then s.regAccess w f i j true (fun t => t.doorbell w v)
  else s.regWr w f i j (fun t => t.regStore w f i j v)

/-- A read of a register, with its checks. A read of BRG_BARRIER waits (R346). -/
def State.regGet (s : State) (w : Initiator) (f : RegFam) (i j : Nat) : State :=
  if f = .brg_barrier then s.regAccess w f i j false (fun t => t.barrierStart i w)
  else s.regRd w f i j (fun t => t.regWord (t.ctx w) f i j) (fun t => t.regTaken (t.ctx w) f i j)

/-! ### An access in a register block (R15, R16) -/

/-- A naturally aligned access where the spec lists no register (R16): it reads zero and writes nothing. What an unlisted device register holds is
free, and a write to it changes nothing that the spec describes (log entry 12). -/
def State.noReg (s : State) (a n : Nat) (write : Bool) : State :=
  if write then { s with bus := .done }
  else if unlisted a then { s.freeWord.1 with bus := .data (leNat (leBytes n s.freeWord.2)) }
  else { s with bus := .data 0 }

/-- An access within a register block: at a register with its full width (R15), or where no register lies (R16). `write` and `v` are of one access
on the bus. -/
def State.regBus (s : State) (w : Initiator) (a n : Nat) (write : Bool) (v : Nat) : State :=
  if !s.arrives w.kind w.index a || !s.regUp a then { s with bus := .error }
  else if !widthOk a n then s.regRefused w a write 2
  else
    match regOver a with
    | some (f, i, j) => if write then s.regPut w f i j v else s.regGet w f i j
    | none =>
      if s.pairShut w.kind (s.sliceOf w) a n write then s.refused w windowViol a write
      else if s.regHolds w a n write then { s with bus := .wait 256 }
      else s.noReg a n write

/-- Was the access answered with data, or done. -/
def BusReply.good : BusReply → Bool
  | .done => true
  | .data _ => true
  | _ => false

/-- The number that an answer carries. -/
def BusReply.num : BusReply → Nat
  | .data v => v
  | _ => 0

/-- The check of an access; a Seat reaches its own Locker share by its core (R50). An access waits besides while a strict slice comes first (R330). -/
def State.busCheck (s : State) (w : Initiator) (a n : Nat) (write excl : Bool) : Verdict :=
  match w.kind, placeOf s.pins.fittedMiB a with
  | .seat, .locker m _ =>
    let sh := s.shareOf w.index
    if 0x150000000 < a + n then .viol (hubViol 1)
    else if !within a n sh.1 (sh.1 + sh.2) then .viol ⟨.core ⟨m % 128, Nat.mod_lt _ (by decide)⟩, 6, srcCluster (m / 8) 1⟩
    else if !s.memUp (m / 8) then .err
    else if s.marchWaits a n || s.lockWaits (s.initId w) a n || s.lateOver a n then .waits
    else .ok
  | _, _ =>
    match s.memCheck (s.ctx w) a n write excl with
    | .ok => if s.strictFirst (s.sliceOf w) (dramBytes a n, linkBytes (startDie w) a n write) then .waits else .ok
    | v => v

/-- An access of a register block: an exclusive sequence there reads and writes as two accesses on the bus do, once the check has passed its write
(log entry 68). -/
def State.regOp (s : State) (w : Initiator) (a : Nat) (op : MemOp) : State :=
  s.exclusive w a op (fun s =>
    let verdict := s.busCheck w a (opBytes op) true (opExclusive op)
    let checked := fun (k : State) =>
      match verdict with
      | .viol v => s.refusedOp w v a op
      | .err => s.accessFails w a op 0
      | .waits => { s with bus := .wait 256 }
      | .ok => k
    match op with
    | .read n _ => s.regBus w a n false 0
    | .write bs => s.regBus w a bs.length true (leNat bs)
    | .loadReserved n =>
      let t := s.regBus w a n false 0
      if t.bus.good then t.reserve w a else t
    | .storeCond bs =>
      if s.reserved? w a then checked (
        let t := s.regBus w a bs.length true (leNat bs)
        if t.bus.good then { t.endSequence w a with bus := .data 0 } else t.endSequence w a)
      else { s.endSequence w a with bus := .data 1 }
    | .atomic f bs => checked (
      let r := s.regBus w a bs.length false 0
      if r.bus.good then
        let t := r.regBus w a bs.length true (amoResult f bs.length r.bus.num (leNat bs))
        { t.endSequence w a with bus := if t.bus.good then r.bus else t.bus }
      else if r.bus = .wait 256 then r
      else r.endSequence w a))

/-! ### An access in memory (R32, R417) -/

/-- A Seat's access that gets an error response halts the Seat (R50): with ECC_UNCORR where its core reads its own Locker share, with BUS_ERROR where
its DMA engine reaches other memory (R99). -/
def State.seatFails (s : State) (w : Initiator) (err : Nat) : State :=
  if w.kind = .seat then s.haltSeat w.index err else s

/-- The error that an uncorrectable word at `a` gives a Seat (R99). -/
def ueError (a : Nat) : Nat := match placeOf 65536 a with | .locker _ _ => 5 | _ => 6

/-- A check that failed: the violation is logged; one of a Seat's range or share is logged by its core and halts the Seat (R50, R279). -/
def State.busViol (s : State) (w : Initiator) (v : Viol) (a : Nat) (write : Bool) : State :=
  if w.kind = .seat && (v.reason = 5 || v.reason = 6) then s.shareViol w.index a write v.reason
  else (s.logViol v (s.ctx w) a write).seatFails w 6

/-- A read of `n` bytes of memory that has passed its checks: its bytes, unless a word was uncorrectable (R99). -/
def State.busRead (s : State) (a n : Nat) : State × Option (List Byte) :=
  match placeOf s.pins.fittedMiB a with
  | .rom => (s, some ((List.range n).map (fun i => Config.romByte (a + i))))
  | _ =>
    let p := s.eccRead a n
    (p.1, if p.2 then some (p.1.readMem a n) else none)

/-- A write of memory that has passed its checks: whether it was made (R100). -/
def State.busWrite (s : State) (w : Initiator) (a : Nat) (bs : List Byte) : State × Bool :=
  let p := s.eccWrite a bs.length
  if p.2 then ((p.1.countCross (startDie w) a).writeMem a bs, true) else (p.1, false)

/-- An access that has passed its checks. REASON 8 of the Posted Error Log is ECC. -/
def State.memDo (s : State) (w : Initiator) (a : Nat) (op : MemOp) : State :=
  let failed := fun (t : State) => (t.seatFails w (ueError a)).accessFails w a op 8
  let load := fun (n : Nat) (k : State → State) =>
    let p := s.busRead a n
    match p.2 with
    | some bs => { k p.1 with bus := .bytes bs }
    | none => failed p.1
  let store := fun (t : State) (bs : List Byte) (k : State → State) =>
    let p := t.busWrite w a bs
    if p.2 then k p.1 else failed p.1
  match op with
  | .read n split =>
    match split, crossing w a with
    | true, some b => s.takeReadTag b w a a n
    | _, _ => load n id
  | .write bs => store s bs (fun t => { t with bus := .done })
  | .loadReserved n => load n (fun t => t.reserve w a)
  | .storeCond bs =>
    if s.reserved? w a then store s bs (fun t => { t.endSequence w a with bus := .data 0 })
    else { s.endSequence w a with bus := .data 1 }
  | .atomic f bs =>
    let n := bs.length
    let p := s.busRead a n
    match p.2 with
    | none => failed p.1
    | some old =>
      store p.1 (leBytes n (amoResult f n (leNat old) (leNat bs))) (fun t => { t.endSequence w a with bus := .bytes old })

/-! ### The last-level cache of the application processors (R287, log entry 87) -/

/-- The ways that a line of a world goes into. -/
def State.llcWays (s : State) (secure : Bool) : List Nat := (List.range 16).filter (fun k => bit (s.rd APC_LLC_PART.SECURE_WAYS) k = secure)

/-- An access of a world uses a line: one that the cache holds with the world's tag is used again, and one with the other world's is not hit; another is allocated in a way of that world, where it takes the place of the
line of its set; without such a way the cache does not hold it. -/
def State.llcUse (s : State) (secure : Bool) (line : Nat) : State :=
  match s.llc.find? (fun l => l.line = line && l.secure = secure), s.llcWays secure with
  | some l, _ => { s with llc := s.llc.filter (· ≠ l) ++ [l] }
  | none, [] => s
  | none, ways =>
    let way := ways.getD (Config.llcWay (s.llc.map (fun l => (l.way, l.line, l.secure))) line % ways.length) 0
    { s with llc := s.llc.filter (fun l => !(l.way = way && Config.llcSet l.line = Config.llcSet line)) ++ [⟨way, line, secure⟩] }

/-- The lines of LPDDR5X that an access of an application core uses. -/
def State.llcTouch (s : State) (w : Initiator) (a n : Nat) : State :=
  match w.kind, placeOf s.pins.fittedMiB a with
  | .apc, .dram off => s.each ((List.range ((off % 64 + n + 63) / 64)).map (off / 64 + ·)) (fun t k => t.llcUse (s.isSecure w) k)
  | _, _ => s

/-- What an access of the bus uses: its slice's quota (R330), and lines of the cache. -/
def State.busUse (s : State) (w : Initiator) (a n : Nat) (write : Bool) : State :=
  (s.useQuota (s.sliceOf w) (dramBytes a n) (linkBytes (startDie w) a n write)).llcTouch w a n

/-- An access to memory or to the boot ROM. A read that crosses dies needs a read tag (R339), which the checks ask for. -/
def State.memOp (s : State) (w : Initiator) (a : Nat) (op : MemOp) : State :=
  let n := opBytes op
  let write := opWrites op
  match s.busCheck w a n write (opExclusive op) with
  | .waits => { s with bus := .wait 256 }
  | .err => (s.seatFails w 6).accessFails w a op 0
  | .viol v => (s.busViol w v a write).accessFails w a op v.reason
  | .ok => s.exclusive w a op (fun t => (t.memDo w a op).busUse w a n write)

/-- An access to the peripheral window, through the Peripheral Bridge (R336). -/
def State.periphOp (s : State) (w : Initiator) (a : Nat) (op : MemOp) : State :=
  let n := opBytes op
  let write := opWrites op
  match s.busCheck w a n write (opExclusive op) with
  | .viol v => s.refusedOp w v a op
  | .waits => { s with bus := .wait 256 }
  | .err => { s with bus := .error }
  | .ok => s.exclusive w a op (fun t => (t.carry 0 w a a op).busUse w a n write)

/-- What an access does, by the place of its address (R30). -/
def State.busOp (s : State) (w : Initiator) (a : Nat) (op : MemOp) : State :=
  if w.kind = .pair && !s.pairCarries a then { s with bus := .error }
  else match placeOf s.pins.fittedMiB a with
  | .pairWin _ => s.pairOut w a op
  | .hole => (s.refusedOp w (hubViol 1) a op).seatStops w
  | .periph => (s.periphOp w a op).seatStops w
  | .regs => (s.regOp w a op).seatStops w
  | _ => s.memOp w a op

/-- An access of any initiator. -/
def State.access (s : State) (w : Initiator) (a : Nat) (op : MemOp) : Host.Outcome State Fault Refusal :=
  .next (s.live (s.busOp w a op))

/-! ### The commands -/

/-- A write to an application core's APC_PROCID register, which the core itself makes (R328). -/
def State.procIdWrite (s : State) (w : Initiator) (core v : Nat) : State :=
  if w.kind = .apc && w.index = core then
    { s with sec := { s.sec with procId := Table.set s.sec.procId 0 core (v % 2 ^ 20) }, bus := .done }
  else { s with bus := .error }

/-- REGISTER_WRITE (R12): a write of the low bytes of the data word. -/
def execRegisterWrite (who : Initiator) (target : WriteTarget) (data : Word) (s : State) : Host.Outcome State Fault Refusal :=
  match target with
  | .mem addr n => s.access who addr.toNat (.write (leBytes n data.toNat))
  | .apcProcId core => .next (s.live (s.procIdWrite who core.val data.toNat))

/-- MEMORY_ACCESS (R32). -/
def execMemoryAccess (who : Initiator) (addr : PAddr) (op : MemOp) (s : State) : Host.Outcome State Fault Refusal :=
  s.access who addr.toNat op

/-- The partner as initiator of an access at `a`: it has the slice of the inbound window that admits the access (R347). -/
def State.partner (s : State) (a n : Nat) (write : Bool) : Initiator :=
  let sl := match s.inWindowFor a n write with
    | some w => s.inSlice w
    | none => none
  ⟨.pair, 0, match sl with | some i => i + 1 | none => 0⟩

/-- PAIR_INBOUND_ACCESS (R347): carried over a trained link once the partner has authenticated, or at SECMB channel 27, then checked as any
access. -/
def execPairInboundAccess (addr : PAddr) (op : MemOp) (s : State) : Host.Outcome State Fault Refusal :=
  s.access (s.partner addr.toNat (opBytes op) (opWrites op)) addr.toNat op

end Sys2Proof.Machine
end

