-- ==== Sys2Proof/Machine/Dispatch.lean ====
section
/-! DEFINITION. What each command does: one arm per constructor, each a call of the command's meaning. -/

namespace Sys2Proof.Machine

def exec (i : Instr) (s : State) : Host.Outcome State Fault Refusal :=
  match i with
  | .registerWrite who target data => Sys2Proof.Machine.execRegisterWrite who target data s
  | .memoryAccess who addr op => Sys2Proof.Machine.execMemoryAccess who addr op s
  | .powerOnReset => Sys2Proof.Machine.execPowerOnReset s
  | .resetPin lowNs => Sys2Proof.Machine.execResetPin lowNs s
  | .aonResetReq who data => Sys2Proof.Machine.execAonResetReq who data s
  | .debugReset => Sys2Proof.Machine.execDebugReset s
  | .resetRelease => Sys2Proof.Machine.execResetRelease s
  | .bootSecFwLoad image digest bootFlags => Sys2Proof.Machine.execBootSecFwLoad image digest bootFlags s
  | .fwImageVerify image sigOk version digest => Sys2Proof.Machine.execFwImageVerify image sigOk version digest s
  | .aliveOutStart => Sys2Proof.Machine.execAliveOutStart s
  | .gatewayImageLoad image => Sys2Proof.Machine.execGatewayImageLoad image s
  | .lpddr5xTrainingEnd training => Sys2Proof.Machine.execLpddr5xTrainingEnd training s
  | .diePowerUp die authOk => Sys2Proof.Machine.execDiePowerUp die authOk s
  | .diePowerTimeout die => Sys2Proof.Machine.execDiePowerTimeout die s
  | .zeroFillEnd die => Sys2Proof.Machine.execZeroFillEnd die s
  | .apcResetRelease => Sys2Proof.Machine.execApcResetRelease s
  | .bootLessonLoad item => Sys2Proof.Machine.execBootLessonLoad item s
  | .railWarningDie rail => Sys2Proof.Machine.execRailWarningDie rail s
  | .railWarningHub => Sys2Proof.Machine.execRailWarningHub s
  | .railWarningDdr => Sys2Proof.Machine.execRailWarningDdr s
  | .railRecovered rail => Sys2Proof.Machine.execRailRecovered rail s
  | .railResetThreshold rail => Sys2Proof.Machine.execRailResetThreshold rail s
  | .oppRaise die point => Sys2Proof.Machine.execOppRaise die point s
  | .oppStepEnd die => Sys2Proof.Machine.execOppStepEnd die s
  | .thermalSample temps => Sys2Proof.Machine.execThermalSample temps s
  | .thermalPowerOff => Sys2Proof.Machine.execThermalPowerOff s
  | .thermalRestart => Sys2Proof.Machine.execThermalRestart s
  | .powerSample sample => Sys2Proof.Machine.execPowerSample sample s
  | .pmcLimitWrite who reg data => Sys2Proof.Machine.execPmcLimitWrite who reg data s
  | .budgetRecord otherW pkgW => Sys2Proof.Machine.execBudgetRecord otherW pkgW s
  | .pllMonitorCheck domain unlocked outOfWindow => Sys2Proof.Machine.execPllMonitorCheck domain unlocked outOfWindow s
  | .pllRelock domain => Sys2Proof.Machine.execPllRelock domain s
  | .dieLinkDown link => Sys2Proof.Machine.execDieLinkDown link s
  | .clcSeatShareWrite who seat data => Sys2Proof.Machine.execClcSeatShareWrite who seat data s
  | .moveCopy seat => Sys2Proof.Machine.execMoveCopy seat s
  | .moveGather seat => Sys2Proof.Machine.execMoveGather seat s
  | .moveFill seat => Sys2Proof.Machine.execMoveFill seat s
  | .mmaDense seat => Sys2Proof.Machine.execMmaDense seat s
  | .mmaSparse24 seat => Sys2Proof.Machine.execMmaSparse24 seat s
  | .convStandard seat => Sys2Proof.Machine.execConvStandard seat s
  | .convGrouped seat => Sys2Proof.Machine.execConvGrouped seat s
  | .convDepthwise seat => Sys2Proof.Machine.execConvDepthwise seat s
  | .convSparse24 seat => Sys2Proof.Machine.execConvSparse24 seat s
  | .poolMax seat => Sys2Proof.Machine.execPoolMax seat s
  | .poolAvgValid seat => Sys2Proof.Machine.execPoolAvgValid seat s
  | .poolAvgAll seat => Sys2Proof.Machine.execPoolAvgAll seat s
  | .vecAdd seat => Sys2Proof.Machine.execVecAdd seat s
  | .vecMul seat => Sys2Proof.Machine.execVecMul seat s
  | .vecFma seat => Sys2Proof.Machine.execVecFma seat s
  | .vecMax seat => Sys2Proof.Machine.execVecMax seat s
  | .vecMin seat => Sys2Proof.Machine.execVecMin seat s
  | .vecAct seat => Sys2Proof.Machine.execVecAct seat s
  | .vecSoftmax seat => Sys2Proof.Machine.execVecSoftmax seat s
  | .vecNorm seat => Sys2Proof.Machine.execVecNorm seat s
  | .vecReduce seat => Sys2Proof.Machine.execVecReduce seat s
  | .vecConvert seat => Sys2Proof.Machine.execVecConvert seat s
  | .vecScale seat => Sys2Proof.Machine.execVecScale seat s
  | .decodeAnchor seat => Sys2Proof.Machine.execDecodeAnchor seat s
  | .decodeCentre seat => Sys2Proof.Machine.execDecodeCentre seat s
  | .suppressClassAware seat => Sys2Proof.Machine.execSuppressClassAware seat s
  | .suppressClassAgnostic seat => Sys2Proof.Machine.execSuppressClassAgnostic seat s
  | .syncFence seat => Sys2Proof.Machine.execSyncFence seat s
  | .syncBarrier seat => Sys2Proof.Machine.execSyncBarrier seat s
  | .syncSemWait seat => Sys2Proof.Machine.execSyncSemWait seat s
  | .syncSemSignal seat => Sys2Proof.Machine.execSyncSemSignal seat s
  | .syncLink seat => Sys2Proof.Machine.execSyncLink seat s
  | .syncNop seat => Sys2Proof.Machine.execSyncNop seat s
  | .rastShade seat => Sys2Proof.Machine.execRastShade seat s
  | .rastResolve seat => Sys2Proof.Machine.execRastResolve seat s
  | .rastSpill seat => Sys2Proof.Machine.execRastSpill seat s
  | .rastReload seat => Sys2Proof.Machine.execRastReload seat s
  | .descriptorComplete seat slot => Sys2Proof.Machine.execDescriptorComplete seat slot s
  | .syncWaitSatisfied seat => Sys2Proof.Machine.execSyncWaitSatisfied seat s
  | .syncTimeout seat => Sys2Proof.Machine.execSyncTimeout seat s
  | .preemptionSignal core incoming => Sys2Proof.Machine.execPreemptionSignal core incoming s
  | .seatSwitchEnd core => Sys2Proof.Machine.execSeatSwitchEnd core s
  | .dmaBurstEnd seat => Sys2Proof.Machine.execDmaBurstEnd seat s
  | .eccWriteback addr => Sys2Proof.Machine.execEccWriteback addr s
  | .scrubPeriodEnd cluster mem => Sys2Proof.Machine.execScrubPeriodEnd cluster mem s
  | .scrubPassEnd cluster mem => Sys2Proof.Machine.execScrubPassEnd cluster mem s
  | .marchStart who cluster data => Sys2Proof.Machine.execMarchStart who cluster data s
  | .marchRowGroupEnd cluster failures => Sys2Proof.Machine.execMarchRowGroupEnd cluster failures s
  | .wmarkSlateLevelWrite who data => Sys2Proof.Machine.execWmarkSlateLevelWrite who data s
  | .slateWipeReq who data => Sys2Proof.Machine.execSlateWipeReq who data s
  | .slateWmarkLock who data => Sys2Proof.Machine.execSlateWmarkLock who data s
  | .slateWipeEnd nonZero => Sys2Proof.Machine.execSlateWipeEnd nonZero s
  | .clcMemEcccountRead who cluster => Sys2Proof.Machine.execClcMemEcccountRead who cluster s
  | .lessonLoad mb root readback => Sys2Proof.Machine.execLessonLoad mb root readback s
  | .lessonUnload mb => Sys2Proof.Machine.execLessonUnload mb s
  | .lessonRelease slice lesson => Sys2Proof.Machine.execLessonRelease slice lesson s
  | .jobIntake queue => Sys2Proof.Machine.execJobIntake queue s
  | .jobSeat slice lesson => Sys2Proof.Machine.execJobSeat slice lesson s
  | .jobCommit tag => Sys2Proof.Machine.execJobCommit tag s
  | .completionWrite tag => Sys2Proof.Machine.execCompletionWrite tag s
  | .abort mb => Sys2Proof.Machine.execAbort mb s
  | .bellArm tag => Sys2Proof.Machine.execBellArm tag s
  | .bellDeadline tag => Sys2Proof.Machine.execBellDeadline tag s
  | .seqAdd mb => Sys2Proof.Machine.execSeqAdd mb s
  | .seqFeed mb => Sys2Proof.Machine.execSeqFeed mb s
  | .seqRetire mb => Sys2Proof.Machine.execSeqRetire mb s
  | .rosterStepBuild slice lesson group => Sys2Proof.Machine.execRosterStepBuild slice lesson group s
  | .timetableSet mb => Sys2Proof.Machine.execTimetableSet mb s
  | .windowOppRequest window => Sys2Proof.Machine.execWindowOppRequest window s
  | .windowPark window => Sys2Proof.Machine.execWindowPark window s
  | .windowOpen window => Sys2Proof.Machine.execWindowOpen window s
  | .windowClose window => Sys2Proof.Machine.execWindowClose window s
  | .planSrcBind who source data => Sys2Proof.Machine.execPlanSrcBind who source data s
  | .planBatchCopy tag => Sys2Proof.Machine.execPlanBatchCopy tag s
  | .planBatchApply => Sys2Proof.Machine.execPlanBatchApply s
  | .planEpochSwap => Sys2Proof.Machine.execPlanEpochSwap s
  | .planPrivWrite who data => Sys2Proof.Machine.execPlanPrivWrite who data s
  | .planStart who ch data => Sys2Proof.Machine.execPlanStart who ch data s
  | .planPeriodicRelease ch => Sys2Proof.Machine.execPlanPeriodicRelease ch s
  | .planCycleStart => Sys2Proof.Machine.execPlanCycleStart s
  | .planCycleSuspend => Sys2Proof.Machine.execPlanCycleSuspend s
  | .planCycleResume => Sys2Proof.Machine.execPlanCycleResume s
  | .planReductionEnd => Sys2Proof.Machine.execPlanReductionEnd s
  | .planGuardPoint ch => Sys2Proof.Machine.execPlanGuardPoint ch s
  | .planChStatusRead who ch => Sys2Proof.Machine.execPlanChStatusRead who ch s
  | .rastCtrlWrite who data => Sys2Proof.Machine.execRastCtrlWrite who data s
  | .rastHeadWrite who data => Sys2Proof.Machine.execRastHeadWrite who data s
  | .rastPassBegin => Sys2Proof.Machine.execRastPassBegin s
  | .rastDraw => Sys2Proof.Machine.execRastDraw s
  | .rastPartialResume => Sys2Proof.Machine.execRastPartialResume s
  | .rastPassEnd => Sys2Proof.Machine.execRastPassEnd s
  | .rastNop => Sys2Proof.Machine.execRastNop s
  | .rastTileJobSubmit => Sys2Proof.Machine.execRastTileJobSubmit s
  | .rastStatusRead who => Sys2Proof.Machine.execRastStatusRead who s
  | .dispPipeEnable who pipe data => Sys2Proof.Machine.execDispPipeEnable who pipe data s
  | .dispPlanePost who pipe plane data => Sys2Proof.Machine.execDispPlanePost who pipe plane data s
  | .dispLatch pipe => Sys2Proof.Machine.execDispLatch pipe s
  | .dispUnderrun pipe fetch => Sys2Proof.Machine.execDispUnderrun pipe fetch s
  | .dispLinkLost pipe => Sys2Proof.Machine.execDispLinkLost pipe s
  | .dispPipeStatusRead who pipe => Sys2Proof.Machine.execDispPipeStatusRead who pipe s
  | .procLockstep => Sys2Proof.Machine.execProcLockstep s
  | .signatureCompare tag => Sys2Proof.Machine.execSignatureCompare tag s
  | .procStatusRead who => Sys2Proof.Machine.execProcStatusRead who s
  | .quizSet mb => Sys2Proof.Machine.execQuizSet mb s
  | .quizSlot slice lesson => Sys2Proof.Machine.execQuizSlot slice lesson s
  | .quizSeat slice lesson => Sys2Proof.Machine.execQuizSeat slice lesson s
  | .quizRunEnd slice lesson => Sys2Proof.Machine.execQuizRunEnd slice lesson s
  | .quizOverdue slice lesson => Sys2Proof.Machine.execQuizOverdue slice lesson s
  | .drillSet mb => Sys2Proof.Machine.execDrillSet mb s
  | .drillStepStart unit inst => Sys2Proof.Machine.execDrillStepStart unit inst s
  | .drillStepEnd unit inst pass => Sys2Proof.Machine.execDrillStepEnd unit inst pass s
  | .drillIntervalEnd unit inst => Sys2Proof.Machine.execDrillIntervalEnd unit inst s
  | .rollFrameStart stream valid => Sys2Proof.Machine.execRollFrameStart stream valid s
  | .rollFrameEnd stream frame => Sys2Proof.Machine.execRollFrameEnd stream frame s
  | .rollStale stream => Sys2Proof.Machine.execRollStale stream s
  | .rollCfgWrite who stream data => Sys2Proof.Machine.execRollCfgWrite who stream data s
  | .rollStatusRead who stream => Sys2Proof.Machine.execRollStatusRead who stream s
  | .rubricLoad mb root content => Sys2Proof.Machine.execRubricLoad mb root content s
  | .rubricUnload mb => Sys2Proof.Machine.execRubricUnload mb s
  | .procPlanStale ch => Sys2Proof.Machine.execProcPlanStale ch s
  | .fcuEvent sources input => Sys2Proof.Machine.execFcuEvent sources input s
  | .fcuSelfcheckFail => Sys2Proof.Machine.execFcuSelfcheckFail s
  | .fcuAck who k data => Sys2Proof.Machine.execFcuAck who k data s
  | .fcuClear who k data => Sys2Proof.Machine.execFcuClear who k data s
  | .fcuSwRaise who data => Sys2Proof.Machine.execFcuSwRaise who data s
  | .fcuLogUnfreeze who data => Sys2Proof.Machine.execFcuLogUnfreeze who data s
  | .fcuCtrlWrite who data => Sys2Proof.Machine.execFcuCtrlWrite who data s
  | .fcuSummaryRead who => Sys2Proof.Machine.execFcuSummaryRead who s
  | .fcuLogPtrRead who => Sys2Proof.Machine.execFcuLogPtrRead who s
  | .fcuSrcStateRead who source => Sys2Proof.Machine.execFcuSrcStateRead who source s
  | .violInfoRead who log => Sys2Proof.Machine.execViolInfoRead who log s
  | .faultAck mb => Sys2Proof.Machine.execFaultAck mb s
  | .faultClear mb => Sys2Proof.Machine.execFaultClear mb s
  | .secmbRequest who ch data => Sys2Proof.Machine.execSecmbRequest who ch data s
  | .secmbReply ch status arg payload => Sys2Proof.Machine.execSecmbReply ch status arg payload s
  | .monitorCall core header => Sys2Proof.Machine.execMonitorCall core header s
  | .monitorTimeout core => Sys2Proof.Machine.execMonitorTimeout core s
  | .wmarkDramLevelWrite who data => Sys2Proof.Machine.execWmarkDramLevelWrite who data s
  | .dramWipeReq who data => Sys2Proof.Machine.execDramWipeReq who data s
  | .dramWmarkLock who data => Sys2Proof.Machine.execDramWmarkLock who data s
  | .dramWipeEnd nonZero => Sys2Proof.Machine.execDramWipeEnd nonZero s
  | .powerGate mb => Sys2Proof.Machine.execPowerGate mb s
  | .secHoldWrite who data => Sys2Proof.Machine.execSecHoldWrite who data s
  | .pmcHoldLogRead who => Sys2Proof.Machine.execPmcHoldLogRead who s
  | .secWdtExpiry => Sys2Proof.Machine.execSecWdtExpiry s
  | .secLockstep => Sys2Proof.Machine.execSecLockstep s
  | .secRestartEnd imageOk digest => Sys2Proof.Machine.execSecRestartEnd imageOk digest s
  | .debugCertificate verified namesDevice root grants => Sys2Proof.Machine.execDebugCertificate verified namesDevice root grants s
  | .certChain mb => Sys2Proof.Machine.execCertChain mb s
  | .attest mb => Sys2Proof.Machine.execAttest mb s
  | .lifecycleSet mb token => Sys2Proof.Machine.execLifecycleSet mb token s
  | .devRootAdd mb certOk => Sys2Proof.Machine.execDevRootAdd mb certOk s
  | .tamperEvent kind => Sys2Proof.Machine.execTamperEvent kind s
  | .fwWatchdogExpiry proc => Sys2Proof.Machine.execFwWatchdogExpiry proc s
  | .fwLockstepMismatch proc => Sys2Proof.Machine.execFwLockstepMismatch proc s
  | .registrarRestartEnd found => Sys2Proof.Machine.execRegistrarRestartEnd found s
  | .cccRestartEnd cluster found => Sys2Proof.Machine.execCccRestartEnd cluster found s
  | .pmcRestartEnd found => Sys2Proof.Machine.execPmcRestartEnd found s
  | .mlmbRequestTake mb => Sys2Proof.Machine.execMlmbRequestTake mb s
  | .hello mb => Sys2Proof.Machine.execHello mb s
  | .eventsLost mb => Sys2Proof.Machine.execEventsLost mb s
  | .mlmbStatusRead who mb => Sys2Proof.Machine.execMlmbStatusRead who mb s
  | .oppLimit mb => Sys2Proof.Machine.execOppLimit mb s
  | .sliceConfig mb => Sys2Proof.Machine.execSliceConfig mb s
  | .attach mb => Sys2Proof.Machine.execAttach mb s
  | .heartbeat mb => Sys2Proof.Machine.execHeartbeat mb s
  | .hostHeartbeatLost slice => Sys2Proof.Machine.execHostHeartbeatLost slice s
  | .detach mb => Sys2Proof.Machine.execDetach mb s
  | .sliceReset mb => Sys2Proof.Machine.execSliceReset mb s
  | .sliceDrainEnd slice => Sys2Proof.Machine.execSliceDrainEnd slice s
  | .sliceGraceEnd slice => Sys2Proof.Machine.execSliceGraceEnd slice s
  | .strictQuotaWindow => Sys2Proof.Machine.execStrictQuotaWindow s
  | .bridgeCompletion bridge readTag data => Sys2Proof.Machine.execBridgeCompletion bridge readTag data s
  | .bridgeReadTimeout bridge readTag => Sys2Proof.Machine.execBridgeReadTimeout bridge readTag s
  | .bridgeLockRequest bridge who addr crossing => Sys2Proof.Machine.execBridgeLockRequest bridge who addr crossing s
  | .bridgeLockTimeout bridge => Sys2Proof.Machine.execBridgeLockTimeout bridge s
  | .bridgeSidebandMessage bridge signals => Sys2Proof.Machine.execBridgeSidebandMessage bridge signals s
  | .postedWriteError bridge who addr tag reason => Sys2Proof.Machine.execPostedWriteError bridge who addr tag reason s
  | .brgBarrierRead who bridge => Sys2Proof.Machine.execBrgBarrierRead who bridge s
  | .brgBarrierComplete who bridge => Sys2Proof.Machine.execBrgBarrierComplete who bridge s
  | .pelClear who bridge data => Sys2Proof.Machine.execPelClear who bridge data s
  | .brgStatusRead who bridge => Sys2Proof.Machine.execBrgStatusRead who bridge s
  | .brgPelStatusRead who bridge => Sys2Proof.Machine.execBrgPelStatusRead who bridge s
  | .pairWindowWrite who reg data => Sys2Proof.Machine.execPairWindowWrite who reg data s
  | .pairInboundAccess addr op => Sys2Proof.Machine.execPairInboundAccess addr op s
  | .pairOutboundAccess who addr op => Sys2Proof.Machine.execPairOutboundAccess who addr op s
  | .pairLinkUp => Sys2Proof.Machine.execPairLinkUp s
  | .pairLinkDown => Sys2Proof.Machine.execPairLinkDown s
  | .pairStartAllowanceEnd => Sys2Proof.Machine.execPairStartAllowanceEnd s
  | .aliveInEdge => Sys2Proof.Machine.execAliveInEdge s
  | .aliveInTimeout => Sys2Proof.Machine.execAliveInTimeout s
  | .ethFrameReceive port frame verdict => Sys2Proof.Machine.execEthFrameReceive port frame verdict s
  | .ethFrameTransmit port cls end_ => Sys2Proof.Machine.execEthFrameTransmit port cls end_ s
  | .canFrameReceive ctl frame verdict => Sys2Proof.Machine.execCanFrameReceive ctl frame verdict s
  | .canFrameTransmit ctl => Sys2Proof.Machine.execCanFrameTransmit ctl s
  | .canBusOff ctl => Sys2Proof.Machine.execCanBusOff ctl s
  | .canBusOffRecovery ctl => Sys2Proof.Machine.execCanBusOffRecovery ctl s
  | .ethLinkDown port => Sys2Proof.Machine.execEthLinkDown port s
  | .ethLinkUp port => Sys2Proof.Machine.execEthLinkUp port s
  | .qbvGateChange port => Sys2Proof.Machine.execQbvGateChange port s
  | .qmgrQcfgWrite who data => Sys2Proof.Machine.execQmgrQcfgWrite who data s
  | .qmgrDoorbell who data => Sys2Proof.Machine.execQmgrDoorbell who data s
  | .qmgrQcfgRead who => Sys2Proof.Machine.execQmgrQcfgRead who s
  | .hostTxConsume queue verdict => Sys2Proof.Machine.execHostTxConsume queue verdict s
  | .gwPortCfgWrite who port data => Sys2Proof.Machine.execGwPortCfgWrite who port data s
  | .gctInsert who data => Sys2Proof.Machine.execGctInsert who data s
  | .gctDelete who data => Sys2Proof.Machine.execGctDelete who data s
  | .gctRead who data => Sys2Proof.Machine.execGctRead who data s
  | .gctCopy who data => Sys2Proof.Machine.execGctCopy who data s
  | .gctCopyEnd => Sys2Proof.Machine.execGctCopyEnd s
  | .gctSwitch who data => Sys2Proof.Machine.execGctSwitch who data s
  | .gptpSync offset newMaster => Sys2Proof.Machine.execGptpSync offset newMaster s
  | .gptpSyncTimeout => Sys2Proof.Machine.execGptpSyncTimeout s
  | .timeAccept who data => Sys2Proof.Machine.execTimeAccept who data s
  | .ttoEnable who output data => Sys2Proof.Machine.execTtoEnable who output data s
  | .ttoPulse output => Sys2Proof.Machine.execTtoPulse output s
  | .postprocStepBoundary seat => Sys2Proof.Machine.execPostprocStepBoundary seat s
  | .aliveOutEdge => Sys2Proof.Machine.execAliveOutEdge s
  | .bridgeSidebandPoll bridge signals => Sys2Proof.Machine.execBridgeSidebandPoll bridge signals s
  | .dieLinkTrained link => Sys2Proof.Machine.execDieLinkTrained link s
  | .dispLinkTrained pipe => Sys2Proof.Machine.execDispLinkTrained pipe s
  | .linError ctl => Sys2Proof.Machine.execLinError ctl s
  | .pcieError => Sys2Proof.Machine.execPcieError s

end Sys2Proof.Machine
end

