-- ==== Sys2Proof/Machine/Tick.lean ====
section
/-! DEFINITION. What happens while no command waits: the TIME clock ticks (16_gateway_time R369). -/

namespace Sys2Proof.Machine

/-- RATE_PPB as a signed number. -/
def State.ratePpb (s : State) : Int := signedOf 21 (s.rd TIME_STATUS.RATE_PPB)

/-- R369: one tick of the 125 MHz TIME clock advances Vehicle Time by 8 ns x (1 + RATE_PPB x 10^-9); the part below 1 ns is
kept. -/
def State.tick (s : State) : State :=
  if s.clock.running && !s.boot.inReset then
    let t := s.clock.frac + (8 * (1000000000 + s.ratePpb)).toNat
    { s with clock := { s.clock with now := s.clock.now + t / 1000000000, frac := t % 1000000000, up := s.clock.up + 8 } }
  else s

/-- R12: a write of the device itself to a register is performed, by the register's own rules, once nothing keeps it waiting; `bus` keeps the answer
to the last access of the bus (log entry 64). -/
def State.landReg (s : State) (l : LateWrite) : State :=
  match l.queue, s.ctxCheck l.ctx l.addr l.bytes.length true with
  | none, .ok =>
    match regOver l.addr with
    | some (f, i, j) => { (s.countCross l.ctx.die l.addr).regStore l.ctx.who f i j (leNat l.bytes) with bus := s.bus }
    | none => s
  | _, _ => s.putOff l

/-- The writes that the device has put off, and the ends of dips that a test or a wipe has kept (log entry 64). -/
def State.catchUp (s : State) : State :=
  let s1 := s.settle
  let s2 := s1.ecc.late.foldl State.landReg { s1 with ecc := { s1.ecc with late := [] } }
  s2.each [0, 1] State.resumeDie

/-- The block idles (log entries 1, 64 and 91): what has waited happens, a tick of the TIME clock passes, and the PMC drives PWR_EN of the
dies that have none. -/
def State.idle (s : State) : State :=
  if s.boot.inReset then s.tick else ((s.catchUp.noteService.tick).drivePower 0).drivePower 1

end Sys2Proof.Machine
end

