-- ==== Sys2Proof/Safety.lean ====
section
/-! DEFINITION. The terms that claims about the device use: what a step leaves unchanged, the canonical form of the state's data,
the rule that a command answers a next state, and a run that never stops. -/

namespace Sys2Proof.Machine

/-- The parts of the state. -/
inductive Part where
  | bus | fresh | irqOut | regs | mem | ecc | pins | fuses | boot | clock | fcu | dies | pwr | seats | cores | clusters | lessons
  | jobs | roster | reg | queues | qsel | mbox | slices | sec | found | llc | bridges | pair | plan | rast | proc | gw | time
  deriving DecidableEq, Repr

/-- Part `p` is the same in `s` and `t`. -/
def Part.same (p : Part) (s t : State) : Prop :=
  match p with
  | .bus => t.bus = s.bus
  | .fresh => t.fresh = s.fresh
  | .irqOut => t.irqOut = s.irqOut
  | .regs => t.regs = s.regs
  | .mem => t.mem = s.mem
  | .ecc => t.ecc = s.ecc
  | .pins => t.pins = s.pins
  | .fuses => t.fuses = s.fuses
  | .boot => t.boot = s.boot
  | .clock => t.clock = s.clock
  | .fcu => t.fcu = s.fcu
  | .dies => t.dies = s.dies
  | .pwr => t.pwr = s.pwr
  | .seats => t.seats = s.seats
  | .cores => t.cores = s.cores
  | .clusters => t.clusters = s.clusters
  | .lessons => t.lessons = s.lessons
  | .jobs => t.jobs = s.jobs
  | .roster => t.roster = s.roster
  | .reg => t.reg = s.reg
  | .queues => t.queues = s.queues
  | .qsel => t.qsel = s.qsel
  | .mbox => t.mbox = s.mbox
  | .slices => t.slices = s.slices
  | .sec => t.sec = s.sec
  | .found => t.found = s.found
  | .llc => t.llc = s.llc
  | .bridges => t.bridges = s.bridges
  | .pair => t.pair = s.pair
  | .plan => t.plan = s.plan
  | .rast => t.rast = s.rast
  | .proc => t.proc = s.proc
  | .gw => t.gw = s.gw
  | .time => t.time = s.time

/-- `t` is `s` but for the parts listed: the queue of commands and every other part are the same. -/
def SameBut (l : List Part) (s t : State) : Prop := t.pending = s.pending ∧ ∀ p, p ∉ l → p.same s t

/-- A slice but for the quota that it has used in the present window (R330), which an access of the device in its service counts. -/
def Slice.plain (x : Slice) : Slice := { x with dramUsed := 0, linkUsed := [] }

/-- Every register but those of the list reads the same. -/
def RegsBut (l : List Reg) (s t : State) : Prop := ∀ r : Reg, (∀ q ∈ l, q.addr ≠ r.addr) → t.reg64 r = s.reg64 r

/-- Every byte of memory outside the `n` bytes at `a` reads the same. -/
def MemBut (a n : Nat) (s t : State) : Prop := ∀ b, b < a ∨ a + n ≤ b → t.byte b = s.byte b

/-- The canonical form of the state's memory and of its register file: equal contents are equal data. -/
def State.Canonical (s : State) : Prop := memWf s.mem = true ∧ Table.sorted s.regs = true

/-- The device is out of reset: commands have their effect (R392). -/
def State.Awake (s : State) : Prop := s.boot.inReset = false

/-- Command `c` answers a next state that meets `P`. -/
def Answers (c : Instr) (s : State) (P : State → Prop) : Prop := ∃ t, exec c s = .next t ∧ P t

/-- The initiator may make the access to the register of family `f` now (R417): the way to the register's die is up, the die is powered, the rights
are there, an inbound window admits the partner, and nothing holds the access: no lock, no late write of the device, no want of read tags, and no
strict slice that comes first. -/
def State.Reaches (s : State) (w : Initiator) (f : RegFam) (i j : Nat) (write : Bool) : Prop :=
  s.arrives w.kind w.index (f.reg i j).addr = true ∧ s.regUp (f.reg i j).addr = true ∧ s.rightsOk f i w write = true
    ∧ (pairChannel (f.reg i j).addr || !s.pairShut w.kind (s.sliceOf w) (f.reg i j).addr 8 write) = true
    ∧ s.regHolds w (f.reg i j).addr 8 write = false

/-- The state once a read of a register of family `f` is on its way: a strict slice uses its quota of the die links (R330). -/
def State.asked (s : State) (w : Initiator) (f : RegFam) (i j : Nat) : State :=
  s.useQuota (s.sliceOf w) 0 (linkBytes (startDie w) (f.reg i j).addr 8 false)

/-- The state once a write to a register of family `f` is on its way: a strict slice uses its quota of the die links (R330), and one that crosses dies is
a posted write, which its Die Bridge counts (R337). -/
def State.through (s : State) (w : Initiator) (f : RegFam) (i j : Nat) : State :=
  (s.useQuota (s.sliceOf w) 0 (linkBytes (startDie w) (f.reg i j).addr 8 true)).countCross (startDie w) (f.reg i j).addr

/-- Source `n` is set and not acknowledged: an event of it has been treated (R267). -/
def State.Raised (s : State) (n : Nat) : Prop := s.on (stickyRef n) = true ∧ s.on (ackRef n) = false

/-- The parts that an event at the FCU acts on: its registers and reactions, the ALIVE_OUT ball, and the events held by a Drill step. -/
def eventParts : List Part := [.regs, .fcu, .pins, .proc]

/-- The parts that a read which the device makes itself acts on, and those that a write of its own acts on: registers, the counts of queues, and memory
with its ECC and the writes that wait, the posted writes that the bridges count, the quota of a slice, and what a violation or an ECC error raises. -/
def readParts : List Part := .fresh :: .ecc :: .queues :: .slices :: eventParts
def writeParts : List Part := .mem :: .ecc :: .bridges :: .slices :: eventParts

/-- The parts that the device's entry in a queue acts on, and those of a Mladnel reply or event. -/
def queueParts : List Part := .irqOut :: .queues :: writeParts
def replyParts : List Part := .mbox :: queueParts

/-- The device after a reset: held in reset, everything but the always-on fields, the fuses, the pins that the board drives, and (where its supply
stayed) LPDDR5X at its reset value; the commands that wait still wait. -/
def AtReset (keepDram : Bool) (s t : State) : Prop :=
  t.boot.inReset = true ∧ t.pending = s.pending ∧ t.fuses = s.fuses ∧ t.clock.running = false
    ∧ (∀ a, (keepDram = false ∨ a < dramBase ∨ pairBase ≤ a) → t.byte a = memDefault)
    ∧ (keepDram = true → ∀ a, dramBase ≤ a → a < pairBase → t.byte a = s.byte a)
    ∧ RegsBut [AON_RESET_CAUSE, WMARK_DRAM_CTRL] State.reset t
    ∧ t.seats = [] ∧ t.lessons = [] ∧ t.jobs = [] ∧ t.slices = [] ∧ t.queues = [] ∧ t.mbox = [] ∧ t.sec = Sec.start
    ∧ t.pins.pairEn = s.pins.pairEn ∧ t.pins.pairRole = s.pins.pairRole ∧ t.pins.fittedMiB = s.pins.fittedMiB
    ∧ t.pins.aliveOut = false ∧ t.pins.pwrEn0 = false ∧ t.pins.pwrEn1 = false

/-! ### Mladnel requests -/

/-- Request `r` of opcode `op` is the next that its server takes on mailbox `i`: the server runs and owes no earlier reply there that the request
would have to follow; the header of a HELLO is well formed (R318); the payload need not wait for its memory; the reply buffer can be written where the
opcode needs one; the payload `bs` has been read, and `u` is the state then (R312, R314). -/
def State.Due (s : State) (i op : Nat) (r : Req) (u : State) (bs : List Byte) : Prop :=
  s.Awake ∧ s.serverUp op = true ∧ s.standsBehind i op r = false ∧ (op = 1 → headerOk i r.header helloInfo = true)
    ∧ ∃ rest, takeFor op [] (s.mb i).taken = some (r, rest)
    ∧ (hLen r.header = 0 ∨ (s.setMb i { s.mb i with taken := rest }).ctxWaits (s.ctx r.who) (hAddr r.header) (hLen r.header) false = false)
    ∧ ((s.setMb i { s.mb i with taken := rest }).bufferOk (s.ctx r.who) r.header
        (if op = 1 then true else match opInfo op with | some o => o.reply | none => false)).2 = true
    ∧ (s.setMb i { s.mb i with taken := rest }).payload (s.ctx r.who) r.header = (u, some bs)

/-- Command `c` has its effect `v` and sends the reply to request `r`: STATUS, ARG and the reply payload (R311, R312). -/
def Replies (c : Instr) (s : State) (i : Nat) (r : Req) (status arg : Nat) (payload : List Byte) (v : State) : Prop :=
  exec c s = .next (v.reply i (s.ctx r.who) r.header status arg payload)

/-! ### Descriptors -/

/-- Seat `g` may issue the descriptor of words `ws` (R46-R50): the device is out of reset, the Seat issues, its next descriptor lies in
its share and spells these words, no earlier descriptor is in flight, no word of memory is marked by ECC, no march hold is in force,
and the reserved bits of W0 are zero. -/
structure State.AtDesc (s : State) (g : Nat) (ws : List Nat) : Prop where
  awake : s.Awake
  can : s.canIssue g = true
  words : s.descWords g = ws
  inShare : (s.descAt g).2 = true
  notOver : (s.seat g).ptrOver = false
  idle : (s.seat g).flight = []
  clean : s.ecc.ce = [] ∧ s.ecc.ue = []
  free : ∀ n, (s.cluster n).march.held = none
  reserved : bits (wd ws 0) 15 11 = 0

/-- The share ranges that a descriptor names and writes lie in the Seat's share (R45, R50). -/
def State.Fits (s : State) (g : Nat) (names writes : List (Nat × Nat)) : Prop :=
  outside (s.shareOf g).2 names = none ∧ outside (s.shareOf g).2 writes = none

/-- The descriptor has issued and is in flight as `f`, the pointer is 64 bytes further, and nothing else of the Seat's registers, of the
other Seats or of memory has changed. -/
def State.Issued (s : State) (g : Nat) (f : InFlight) (t : State) : Prop :=
  (t.seat g).flight = [f] ∧ (t.descAt g).1 = (s.descAt g).1 + 64 ∧ SameBut [.regs, .seats, .jobs] s t
    ∧ RegsBut [CLC_SEAT_DESC_PTR (g / 64) (g % 64)] s t ∧ ∀ k, k ≠ g → t.seat k = s.seat k

/-- A compute descriptor is in flight on unit `unit` with the outputs `outs`, and the vector registers are `v`. -/
def State.Launched (s : State) (g : Nat) (ws : List Nat) (unit : Nat) (outs : List (Nat × Nat × Nat)) (v : Table (BitVec 32))
    (t : State) : Prop :=
  (∃ f, s.Issued g f t ∧ f.words = ws ∧ f.unit = unit ∧ f.out = outs ∧ f.squash = false) ∧ (t.seat g).vregs = v

/-- A compute descriptor of one Seat: its command, its class and opcode, the fields that it must meet, the share ranges that it names, those that it
reads from Locker, and those that it writes. -/
structure Compute where
  cmd : Instr
  cls : Nat
  op : Nat
  ok : State → List Nat → Bool
  names : List (Nat × Nat)
  reads : List (Nat × Nat)
  writes : List (Nat × Nat)

/-- The ranges of an ACC_IN tile that are read from Locker: none where the array still holds it (R59). -/
def State.accReads (s : State) (g : Nat) (acc : Option Tref) (ranges : List (Nat × Nat)) : List (Nat × Nat) :=
  match acc with
  | some t => if (s.fromArray g t.base).isNone then ranges else []
  | none => []

def State.mmaForm (s : State) (g : Fin 1024) (ws : List Nat) (cmd : Instr) (sparse : Bool) : Compute :=
  ⟨cmd, 1, b2n sparse, mmaOk sparse, mmaAccRanges ws ++ mmaReads sparse ws,
    s.accReads g.val (mmaAcc ws) (mmaAccRanges ws) ++ mmaReads sparse ws, mmaWrites ws⟩

def State.convForm (s : State) (g : Fin 1024) (ws : List Nat) (cmd : Instr) (op : Nat) : Compute :=
  ⟨cmd, 2, op, fun u ws => convOk op g.val u ws && u.convChainOk g.val ws, convAccRanges ws ++ convReads op ws,
    s.accReads g.val (convAcc ws) (convAccRanges ws) ++ convReads op ws, convWrites ws⟩

def poolForm (g : Fin 1024) (ws : List Nat) (cmd : Instr) (op : Nat) : Compute :=
  ⟨cmd, 3, op, poolOk g.val, poolReads op ws, poolReads op ws, poolWrites ws⟩

def vecForm (ws : List Nat) (cmd : Instr) (op : Nat) : Compute :=
  ⟨cmd, 4, op, vecOk op, vecReads op ws, vecReads op ws, vecDstRanges op ws⟩

def decodeForm (ws : List Nat) (cmd : Instr) (op : Nat) : Compute :=
  ⟨cmd, 5, op, decodeOk op, decodeReads op ws, decodeReads op ws, decodeWrites ws⟩

def suppressForm (ws : List Nat) (cmd : Instr) (op : Nat) : Compute :=
  ⟨cmd, 6, op, suppressOk, suppressReads ws, suppressReads ws, suppressWrites ws⟩

/-- The compute descriptors of Seat `g` with the words `ws` (R56-R61, R135-R144). -/
def State.computes (s : State) (g : Fin 1024) (ws : List Nat) : List Compute :=
  [s.mmaForm g ws (.mmaDense g) false, s.mmaForm g ws (.mmaSparse24 g) true,
   s.convForm g ws (.convStandard g) 0, s.convForm g ws (.convGrouped g) 1, s.convForm g ws (.convDepthwise g) 2, s.convForm g ws (.convSparse24 g) 3,
   poolForm g ws (.poolMax g) 0, poolForm g ws (.poolAvgValid g) 1, poolForm g ws (.poolAvgAll g) 2,
   vecForm ws (.vecAdd g) 0, vecForm ws (.vecMul g) 1, vecForm ws (.vecFma g) 2, vecForm ws (.vecMax g) 3, vecForm ws (.vecMin g) 4,
   vecForm ws (.vecAct g) 5, vecForm ws (.vecSoftmax g) 6, vecForm ws (.vecNorm g) 7, vecForm ws (.vecReduce g) 8, vecForm ws (.vecConvert g) 9,
   vecForm ws (.vecScale g) 10,
   decodeForm ws (.decodeAnchor g) 0, decodeForm ws (.decodeCentre g) 1,
   suppressForm ws (.suppressClassAware g) 0, suppressForm ws (.suppressClassAgnostic g) 1]

/-- Seat `g` may issue, and its next descriptor can be read now and spells `ws`; memory may hold marked words, a march may hold row groups, and
earlier descriptors may be in flight. -/
structure State.AtWords (s : State) (g : Nat) (ws : List Nat) : Prop where
  awake : s.Awake
  can : s.canIssue g = true
  words : s.descWords g = ws
  inShare : (s.descAt g).2 = true
  reach : s.anyHeld [((s.descAt g).1, 64)] = false
  clean : s.eccRead (s.descAt g).1 64 = (s, true)
  reserved : bits (wd ws 0) 15 11 = 0

/-- What descriptor `x` of Seat `g` reads from Locker and writes there, as physical ranges. -/
def State.readSpan (s : State) (g : Nat) (x : Compute) : List (Nat × Nat) := unionRanges (physical (s.shareOf g).1 x.reads)
def State.writeSpan (s : State) (g : Nat) (x : Compute) : List (Nat × Nat) := unionRanges (physical (s.shareOf g).1 x.writes)

/-- Descriptor `x` of Seat `g` must wait: an earlier one in flight touches what it reads or writes (R48), or a march holds some of it (R108). -/
def State.mustWait (s : State) (g : Nat) (x : Compute) : Bool :=
  hazard (s.seat g).flight (s.readSpan g x) (s.writeSpan g x) || s.anyHeld (s.readSpan g x ++ s.writeSpan g x)

/-- No fallback runs beside the job that Seat `g` works for, so that a halt of the Seat ends the job and the Seat stays HALTED (R174, log entry 15). -/
def State.LoneRun (s : State) (g : Nat) : Prop :=
  ∀ (r : SeatJob) (j : Job), (s.seat g).job = some r → r.quiz = false → s.job? r.ref = some j → j.fb = none

/-! ### Motion Planner -/

/-- A release of channel `ch` in `s` has left a pending cycle in `t` with the records of `s` latched (R205). -/
def PlanReleased (s : State) (ch : Nat) (t : State) : Prop :=
  ∃ q, (t.chan ch).cycle = some q ∧ q.release = s.clock.now ∧ q.cfg = s.planCfg ch ∧ q.start = s.planStart ch ∧ q.priv = s.planPriv ch
    ∧ q.snap = none ∧ t.rd (PLAN_CH_STATUS.STATE ch) = 1 ∧ t.on (PLAN_CH_STATUS.CFG_ERR ch) = false

/-! ### Raster -/

/-- The raster front end is on, the command at TAIL can be read, and it is `c`; `u` is the state after the read (R220). -/
structure State.AtRaster (s : State) (c : List Byte) (u : State) : Prop where
  awake : s.Awake
  up : s.rastUp = true
  some' : s.rastEmpty = false
  live : s.rast.skipping = false
  free : s.ctxWaits s.rastCtx s.rastAt 32 false = false
  read : s.ctxRead s.rastCtx s.rastAt 32 = (u, some c)

/-- The command `c` at TAIL is accepted and its OP is `op` (R220). -/
def State.AtRastOp (s : State) (op : Nat) (c : List Byte) (u : State) : Prop :=
  s.AtRaster c u ∧ s.rastCmdOk c = true ∧ leAt c 0 1 = op

/-- The vertices `data` of the DRAW `c` can be read; `v` is the state after the read (R221). -/
def State.Vertices (u : State) (c : List Byte) (v : State) (data : List Byte) : Prop :=
  u.ctxWaits u.rastCtx (u.rastAddr (leAt c 8 8)) (leAt c 16 4 * dVertexBytes c) false = false
    ∧ u.ctxRead u.rastCtx (u.rastAddr (leAt c 8 8)) (leAt c 16 4 * dVertexBytes c) = (v, some data)

/-- TAIL has moved past one command. -/
def RastTaken (u t : State) : Prop := t.rd DISP_RAST_PTR.TAIL = (u.rd DISP_RAST_PTR.TAIL + 1) % u.rastRing % 2 ^ 20

/-! ### Accesses -/

/-- A violation found by check `v` has been recorded: the pair of the block holds the first since VALID was cleared and counts every one,
and the source is raised (R277, R278, R279). -/
def Logged (v : Viol) (c : Ctx) (a : Nat) (write : Bool) (s t : State) : Prop :=
  t.on ⟨(violPair v.log).1, 63, 63⟩ = true ∧ t.rd ⟨(violPair v.log).2, 63, 48⟩ = min (s.rd ⟨(violPair v.log).2, 63, 48⟩ + 1) 65535
    ∧ (s.on ⟨(violPair v.log).1, 63, 63⟩ = false → t.reg64 (violPair v.log).1 = 2 ^ 63 + b2n write * 2 ^ 48 + a % 2 ^ 48
        ∧ t.rd ⟨(violPair v.log).2, 19, 16⟩ = v.reason % 16 ∧ t.rd ⟨(violPair v.log).2, 15, 0⟩ = c.id
        ∧ t.on ⟨(violPair v.log).2, 38, 38⟩ = c.slice.isSome ∧ t.rd ⟨(violPair v.log).2, 37, 32⟩ = c.slice.getD 0 % 64)
    ∧ (s.on ⟨(violPair v.log).1, 63, 63⟩ = true → t.reg64 (violPair v.log).1 = s.reg64 (violPair v.log).1)
    ∧ (s.underTest v.src = false → t.Raised v.src)

/-- An access of initiator `w` to `n` bytes at `a` reaches a register block of its own die: the device is out of reset, the fabric runs, no lock of a
bridge holds the access, and the die that holds the register is powered. -/
structure State.AtRegs (s : State) (w : Initiator) (a n : Nat) : Prop where
  awake : s.Awake
  place : placeOf s.pins.fittedMiB a = .regs
  way : s.arrives w.kind w.index a = true
  free : s.lockWaits (s.initId w) a n = false
  still : s.lateOver a n = false
  here : crossing w a = none
  up : s.regUp a = true

/-- An access of initiator `w` to `n` bytes at `a` reaches Slate, Locker or LPDDR5X of its own die, and no STRICT slice goes first (R330). -/
structure State.AtMem (s : State) (w : Initiator) (a n : Nat) (write : Bool) : Prop where
  awake : s.Awake
  place : (∃ k o, placeOf s.pins.fittedMiB a = .slate k o) ∨ (∃ m o, placeOf s.pins.fittedMiB a = .locker m o)
    ∨ ∃ o, placeOf s.pins.fittedMiB a = .dram o
  here : crossing w a = none
  first : s.strictFirst (s.sliceOf w) (dramBytes a n, linkBytes (startDie w) a n write) = false

/-- A write of `v` to a register of family `f` has left every field as its access code says, where `ok` takes the value, and any other field as it was
(R12). -/
def FieldsWritten (f : RegFam) (i j : Nat) (locked : Bool) (ok : Fld → Nat → Bool) (v : Nat) (s t : State) : Prop :=
  ∀ x ∈ f.fields, t.rd (x.ref (f.reg i j)) = (if ok x ((x.ref (f.reg i j)).of v)
    then accWrite x.acc locked (s.rd (x.ref (f.reg i j))) ((x.ref (f.reg i j)).of v) else s.rd (x.ref (f.reg i j)))

/-- A run of `n` steps from `s` that meets no fault and no refusal ends in `t`. -/
def Runs : Nat → State → State → Prop
  | 0, s, t => t = s
  | n + 1, s, t => ∃ u, step s = .next u ∧ Runs n u t

end Sys2Proof.Machine
end

