-- ==== Sys2Proof/Certificates/Slice0/Obligations.lean ====
section
/-! DEFINITION. What is claimed of the device, one definition per obligation, from the numbered rules of spec/. -/

open Sys2Proof Sys2Proof.Machine

/-! ### Tensor core: descriptors -/

/-- R56, R57, R59, R125, R127: an array descriptor that meets its layout and lies in the share issues to the array with every output lane computed
from memory as it stands before the descriptor, the accumulators taken from the array where R59 says so. R61, R85-R92, R135: a POOL or VEC descriptor
that meets its layout and lies in the share issues to the vector unit with its results, in Locker or in the vector registers. R139, R142, R144: a
DECODE or SUPPRESS descriptor that meets its layout and lies in the share issues to the post-processing unit with the box records, or the kept indices
and their number. R124: a CONV descriptor also fits the passes before it. R47, R48, R108, R99: of every such descriptor, one with FENCE or END waits for
all earlier ones, and one whose operands an earlier one or a march holds waits too (a command that waits leaves the state as it was: log entry 2), and
one that reads a word with an uncorrectable error halts its Seat with ECC_UNCORR. -/
def Obligations.ComputeDescriptorsIssue : Prop :=
  (∀ (s : State) (g : Fin 1024) (ws : List Nat), s.AtDesc g.val ws →
  (∀ p ∈ [(false, Instr.mmaDense g), (true, Instr.mmaSparse24 g)],
    dClass ws = 1 → dOp ws = b2n p.1 → mmaOk p.1 s ws = true → s.Fits g.val (mmaAccRanges ws ++ mmaReads p.1 ws) (mmaWrites ws) →
    Answers p.2 s (s.Launched g.val ws 0 ((s.accView g.val (mmaAcc ws) s).mmaOuts (s.shareOf g.val).1 ws p.1) (s.seat g.val).vregs)) ∧
  (∀ p ∈ [(0, Instr.convStandard g), (1, .convGrouped g), (2, .convDepthwise g), (3, .convSparse24 g)],
    dClass ws = 2 → dOp ws = p.1 → convOk p.1 g.val s ws = true → s.convChainOk g.val ws = true →
    s.Fits g.val (convAccRanges ws ++ convReads p.1 ws) (convWrites ws) →
    Answers p.2 s (s.Launched g.val ws 0 ((s.accView g.val (convAcc ws) s).convOuts (s.shareOf g.val).1
      (s.rd (CLC_SEAT_PADCONST.VALUE (g.val / 64) (g.val % 64))) p.1 ws) (s.seat g.val).vregs))) ∧
  (∀ (s : State) (g : Fin 1024) (ws : List Nat), s.AtDesc g.val ws →
  (∀ p ∈ [(0, Instr.poolMax g), (1, .poolAvgValid g), (2, .poolAvgAll g)],
    dClass ws = 3 → dOp ws = p.1 → poolOk g.val s ws = true → s.Fits g.val (poolReads p.1 ws) (poolWrites ws) →
    Answers p.2 s (s.Launched g.val ws 0 (s.poolOuts (s.shareOf g.val).1
      (s.rd (CLC_SEAT_PADCONST.VALUE (g.val / 64) (g.val % 64))) p.1 ws) (s.seat g.val).vregs)) ∧
  (∀ p ∈ [(0, Instr.vecAdd g), (1, .vecMul g), (2, .vecFma g), (3, .vecMax g), (4, .vecMin g), (5, .vecAct g), (6, .vecSoftmax g),
      (7, .vecNorm g), (8, .vecReduce g), (9, .vecConvert g), (10, .vecScale g)],
    dClass ws = 4 → dOp ws = p.1 → vecOk p.1 s ws = true → s.Fits g.val (vecReads p.1 ws) (vecDstRanges p.1 ws) →
    Answers p.2 s (s.Launched g.val ws 0 (s.vecRun (s.seat g.val) (s.shareOf g.val).1 p.1 ws).outs
      (s.vecRun (s.seat g.val) (s.shareOf g.val).1 p.1 ws).vregs))) ∧
  (∀ (s : State) (g : Fin 1024) (ws : List Nat), s.AtDesc g.val ws →
  (∀ p ∈ [(0, Instr.decodeAnchor g), (1, .decodeCentre g)],
    dClass ws = 5 → dOp ws = p.1 → decodeOk p.1 s ws = true → s.Fits g.val (decodeReads p.1 ws) (decodeWrites ws) →
    Answers p.2 s (s.Launched g.val ws 1 (byteOuts ((s.shareOf g.val).1 + (tref (wd ws 4)).base)
      (s.decodeBytes (s.shareOf g.val).1 p.1 ws)) (s.seat g.val).vregs)) ∧
  (∀ p ∈ [(0, Instr.suppressClassAware g), (1, .suppressClassAgnostic g)],
    dClass ws = 6 → dOp ws = p.1 → suppressOk s ws = true → s.Fits g.val (suppressReads ws) (suppressWrites ws) →
    Answers p.2 s (s.Launched g.val ws 1 (suppressOuts (s.shareOf g.val).1 ws
      (s.suppressKept (s.shareOf g.val).1 (decide (p.1 = 0)) ws)) (s.seat g.val).vregs))) ∧
  (∀ (s : State) (g : Fin 1024) (ws : List Nat) (x : Compute), s.AtWords g.val ws → x ∈ s.computes g ws → dClass ws = x.cls → dOp ws = x.op →
    ((dFence ws || dEnd ws) = true → (s.seat g.val).flight ≠ [] → exec x.cmd s = .next s) ∧
    ((dFence ws || dEnd ws) = false ∨ (s.seat g.val).flight = [] → x.ok s ws = true → s.Fits g.val x.names x.writes →
      (s.mustWait g.val x = true → exec x.cmd s = .next s) ∧
      (s.mustWait g.val x = false → (∃ r ∈ s.readSpan g.val x, ∃ w ∈ s.ecc.ue, hits r.1 r.2 w = true) →
        Answers x.cmd s (fun t => (s.LoneRun g.val → t.seatState g.val = 6) ∧ t.rd (CLC_SEAT_STATE.LAST_ERR (g.val / 64) (g.val % 64)) = 5 ∧ t.mem = s.mem
          ∧ SameBut [.regs, .ecc, .fcu, .pins, .proc, .seats, .cores, .jobs] s t))))

/-- R46, R47, R63: FENCE, LINK and NOP issue; LINK moves the descriptor pointer to its target in units of 64 bytes. R62: SEM_WAIT, SEM_SIGNAL and
BARRIER. A wait whose comparison holds goes on; any other blocks the Seat. A signal adds to its semaphore modulo 2^32 and satisfies the waits whose
comparison then holds. The last participant of a barrier satisfies the others. The form of a response that waits is the model's (log entry 3). -/
def Obligations.SyncDescriptorsIssue : Prop :=
  (∀ (s : State) (g : Fin 1024) (ws : List Nat), s.AtDesc g.val ws → dClass ws = 7 →
  (dOp ws = 0 → syncOk 0 s ws = true → Answers (.syncFence g) s (s.Issued g.val (syncFlight ws))) ∧
  (dOp ws = 5 → syncOk 5 s ws = true → Answers (.syncNop g) s (s.Issued g.val (syncFlight ws))) ∧
  (dOp ws = 4 → syncOk 4 s ws = true → Answers (.syncLink g) s (fun t =>
    (t.seat g.val).flight = [syncFlight ws] ∧ (t.descAt g.val).1 = (s.shareOf g.val).1 + fld ws 3 20 6 * 64
      ∧ SameBut [.regs, .seats, .jobs] s t ∧ RegsBut [CLC_SEAT_DESC_PTR (g.val / 64) (g.val % 64)] s t
      ∧ ∀ k, k ≠ g.val → t.seat k = s.seat k))) ∧
  (∀ (s : State) (g : Fin 1024) (ws : List Nat) (b : Nat), s.AtDesc g.val ws → dClass ws = 7 → s.syncBlock g.val = some b →
  (dOp ws = 2 → syncOk 2 s ws = true →
    (semHolds (fld ws 1 17 16) (s.sem (clusterOf g.val) (b * 256 + fld ws 1 7 0)) (fld ws 2 31 0) = true →
      Answers (.syncSemWait g) s (s.Issued g.val (syncFlight ws))) ∧
    (semHolds (fld ws 1 17 16) (s.sem (clusterOf g.val) (b * 256 + fld ws 1 7 0)) (fld ws 2 31 0) = false →
      Answers (.syncSemWait g) s (fun t => t.seatState g.val = 4 ∧ (t.seat g.val).flight = [syncFlight ws]
        ∧ (t.seat g.val).wait
          = some ⟨false, b * 256 + fld ws 1 7 0, 0, fld ws 1 17 16, fld ws 2 31 0, s.clock.up, fld ws 1 47 32, false⟩
        ∧ SameBut [.regs, .seats, .jobs, .cores] s t ∧ ∀ k, k ≠ g.val → t.seat k = s.seat k))) ∧
  (dOp ws = 1 → syncOk 1 s ws = true →
    (s.barrierFull g.val (b * 16 + fld ws 1 7 0) (fld ws 1 15 8) = false →
      Answers (.syncBarrier g) s (fun t => t.seatState g.val = 4 ∧ (t.seat g.val).flight = [syncFlight ws]
        ∧ (t.seat g.val).wait
          = some ⟨true, b * 16 + fld ws 1 7 0, fld ws 1 15 8, 0, 0, s.clock.up, fld ws 1 47 32, false⟩
        ∧ SameBut [.regs, .seats, .jobs, .cores] s t ∧ ∀ k, k ≠ g.val → t.seat k = s.seat k)) ∧
    (s.barrierFull g.val (b * 16 + fld ws 1 7 0) (fld ws 1 15 8) = true →
      Answers (.syncBarrier g) s (fun t => (t.seat g.val).flight = [syncFlight ws]
        ∧ (t.descAt g.val).1 = (s.descAt g.val).1 + 64 ∧ SameBut [.regs, .seats, .jobs] s t
        ∧ ∀ x w, x ∈ clusterSeats (clusterOf g.val) → x ≠ g.val → s.atBarrier g.val (b * 16 + fld ws 1 7 0) x = true →
            (s.seat x).wait = some w → (t.seat x).wait = some { w with sat := true }))) ∧
  (dOp ws = 3 → syncOk 3 s ws = true → Answers (.syncSemSignal g) s (fun t =>
    t.sem (clusterOf g.val) (b * 256 + fld ws 1 7 0)
      = (s.sem (clusterOf g.val) (b * 256 + fld ws 1 7 0) + fld ws 2 31 0) % 2 ^ 32
    ∧ (∀ k, k ≠ b * 256 + fld ws 1 7 0 → t.sem (clusterOf g.val) k = s.sem (clusterOf g.val) k)
    ∧ (∀ n, n ≠ clusterOf g.val → t.cluster n = s.cluster n)
    ∧ (t.seat g.val).flight = [syncFlight ws] ∧ (t.descAt g.val).1 = (s.descAt g.val).1 + 64
    ∧ SameBut [.regs, .seats, .jobs, .clusters] s t
    ∧ ∀ x w, x ∈ clusterSeats (clusterOf g.val) → x ≠ g.val → (s.seat x).wait = some w → w.isBarrier = false →
        w.key = b * 256 + fld ws 1 7 0 →
        ∀ v, v = (s.sem (clusterOf g.val) (b * 256 + fld ws 1 7 0) + fld ws 2 31 0) % 2 ^ 32 →
        (t.seat x).wait = some { w with sat := w.sat || semHolds w.cmp v w.value })))

/-- R62, R50, R174: what ends a wait. A BLOCKED Seat whose condition has held completes its SYNC descriptor and is READY; one whose time-out has run
halts with SYNC_TIMEOUT, and its job fails with MS_TIMEOUT. R41, R66, R69: the issue path moves. PREEMPTION_SIGNAL names the incoming Seat;
SEAT_SWITCH_END parks the outgoing Seat and gives the issue path to the incoming one. R64, R73, R235: a completing descriptor writes its outputs and
no other byte, and is credited to its Seat; after END the Seat is IDLE. That a signal which names a Seat that may not take the issue path has no
effect is the model's choice (log entry 2). -/
def Obligations.SeatsWakeSwitchAndComplete : Prop :=
  (∀ (s : State) (g : Fin 1024) (w : Wait) (ws : List Nat), s.Awake → s.seatState g.val = 4 → (s.seat g.val).wait = some w →
    w.sat = true → (s.seat g.val).flight = [syncFlight ws] → dClass ws = 7 → dEnd ws = false →
    Answers (.syncWaitSatisfied g) s (fun t => t.seatState g.val = 2 ∧ (t.seat g.val).wait = none ∧ (t.seat g.val).flight = []
      ∧ t.rd (CLC_SEAT_STATE.LAST_DESC_ID (g.val / 64) (g.val % 64)) = dId ws
      ∧ SameBut [.regs, .seats, .cores, .ecc] s t ∧ ∀ k, k ≠ g.val → t.seat k = s.seat k)) ∧
  (∀ (s : State) (g : Fin 1024) (w : Wait), s.Awake → s.seatState g.val = 4 → (s.seat g.val).wait = some w → w.sat = false →
    s.passed w.since (w.timeoutUs * 1000) = true → Answers (.syncTimeout g) s (fun t => (s.LoneRun g.val → t.seatState g.val = 6) ∧ t.rd (CLC_SEAT_STATE.LAST_ERR (g.val / 64) (g.val % 64)) = 3
      ∧ (t.seat g.val).wait = none ∧ SameBut [.regs, .seats, .cores, .jobs] s t
      ∧ ∀ (r : SeatJob) (j : Job), (s.seat g.val).job = some r → r.quiz = false → s.job? r.ref = some j → j.fb = none →
          j.state < 4 → ∃ j', t.job? r.ref = some j' ∧ j'.state = 7 ∧ j'.status = msTimeout)) ∧
  (∀ (s : State) (m : Fin 128) (k : Fin 8), s.Awake →
    (s.mayTake m.val (8 * m.val + k.val) = true → Answers (.preemptionSignal m k) s (fun t => SameBut [.cores] s t
      ∧ t.core m.val = { s.core m.val with incoming := some (8 * m.val + k.val), outgoing := s.issuingSeat m.val }
      ∧ ∀ n, n ≠ m.val → t.core n = s.core n)) ∧
    (s.mayTake m.val (8 * m.val + k.val) = false → exec (.preemptionSignal m k) s = .next s)) ∧
  (∀ (s : State) (m : Fin 128) (k : Fin 8), s.Awake → (s.core m.val).incoming = some (8 * m.val + k.val) →
    s.eligible (8 * m.val + k.val) = true → s.dieHalted (m.val / 8) = false → (s.core m.val).drill = false →
    (∀ i < 8, (s.seat (8 * m.val + i)).flight = []) →
    Answers (.seatSwitchEnd m) s (fun t => t.seatState (8 * m.val + k.val) = 3
      ∧ (∀ o, s.issuingSeat m.val = some o → t.seatState o = 5)
      ∧ (∀ i < 8, i ≠ k.val → (t.seat (8 * m.val + i)).lastC = none)
      ∧ SameBut [.regs, .seats, .cores, .jobs] s t)) ∧
  (∀ (s : State) (g : Fin 1024) (i : Nat) (f : InFlight), s.Awake → (s.seat g.val).flight[i]? = some f → f.squash = false →
    f.paused = false → f.total ≤ f.pos → (s.ecc.ce = [] ∧ s.ecc.ue = []) → (∀ n, (s.cluster n).march.held = none) →
    ¬(dClass f.words = 7 ∧ (s.seat g.val).wait.isSome = true) →
    Answers (.descriptorComplete g i) s (fun t => t.mem = (s.putOuts f.out).mem
      ∧ (∀ a, (∀ o ∈ f.out, a < o.1 / 8 ∨ o.1 / 8 + ceilDiv (o.1 % 8 + o.2.1) 8 ≤ a) → t.byte a = s.byte a)
      ∧ (t.seat g.val).flight = dropAt i (s.seat g.val).flight
      ∧ t.rd (CLC_SEAT_STATE.LAST_DESC_ID (g.val / 64) (g.val % 64)) = dId f.words
      ∧ t.rd (CLC_SEAT_PROGRESS.PROGRESS (g.val / 64) (g.val % 64))
          = min (s.rd (CLC_SEAT_PROGRESS.PROGRESS (g.val / 64) (g.val % 64)) + dProgress f.words)
              ((CLC_SEAT_PROGRESS.PROGRESS (g.val / 64) (g.val % 64)).span - 1)
      ∧ (t.seat g.val).sig = (if dSig f.words
          then BitVec.ofNat 64 (crc64 (s.seat g.val).sig.toNat (leBytes 4 (dId f.words) ++ f.sigBytes)) else (s.seat g.val).sig)
      ∧ (dEnd f.words = true → t.seatState g.val = 1) ∧ (dEnd f.words = false → t.seatState g.val = s.seatState g.val)
      ∧ SameBut [.regs, .mem, .ecc, .seats, .cores] s t ∧ ∀ k, k ≠ g.val → t.seat k = s.seat k))

/-- R54, R56: a MOVE descriptor starts its transfer: COPY and FILL at once, GATHER after reading its index list. R56, R68, R106: one burst of at most
4 KiB is written by the DMA engine, element by element at its destination, and no other byte; a burst outside the share or the slice's range halts the
Seat with SHARE_VIOL, and one that its checks refuse with DMA_ERROR, nothing of it written. R330: a burst, and the read of an index list, wait while a
strict slice comes first (log entries 2 and 59). The post-processing unit at a step boundary drops the work
of a stopped Seat and pauses that of a parked one. -/
def Obligations.TransfersRun : Prop :=
  (∀ (s : State) (g : Fin 1024) (ws : List Nat), s.AtDesc g.val ws → dClass ws = 0 →
  (∀ p ∈ [(0, Instr.moveCopy g), (2, .moveFill g)], dOp ws = p.1 → moveOk p.1 s ws = true →
    Answers p.2 s (fun t => ∃ f, s.Issued g.val f t ∧ f.words = ws ∧ f.unit = 2 ∧ f.pos = 0 ∧ f.total = mvTotal ws)) ∧
  (dOp ws = 1 → moveOk 1 s ws = true → (s.gatherRows g.val ws).1 = .ok →
    ∀ u, u = (s.oref g.val (wd ws 6)).use g.val (4 * (mvCount1 ws * mvCount2 ws)) false →
    (s.strictFirst (s.seatSlice g.val) u = true → exec (.moveGather g) s = .next s) ∧
    (s.strictFirst (s.seatSlice g.val) u = false →
      Answers (.moveGather g) s (fun t => ∃ f, (s.useQuota (s.seatSlice g.val) u.1 u.2).Issued g.val f t ∧ f.words = ws ∧ f.unit = 2 ∧ f.pos = 0
        ∧ f.total = mvTotal ws ∧ f.rows = (s.gatherRows g.val ws).2)))) ∧
  (∀ (s : State) (g : Fin 1024) (f : InFlight), s.Awake → (s.seat g.val).flight = [f] → f.unit = 2 → f.pos < f.total → f.paused = false →
    f.squash = false → (s.ecc.ce = [] ∧ s.ecc.ue = []) →
    (∀ n, n = (s.xfer g.val f).burstLen f → s.checkBurst g.val (s.xfer g.val f) f.pos n = .ok →
      s.strictFirst (s.seatSlice g.val) ((s.xfer g.val f).use g.val n) = true → exec (.dmaBurstEnd g) s = .next s) ∧
    (∀ n, n = (s.xfer g.val f).burstLen f → s.checkBurst g.val (s.xfer g.val f) f.pos n = .ok →
      s.strictFirst (s.seatSlice g.val) ((s.xfer g.val f).use g.val n) = false →
      (∀ bs, f.snap = some bs → (s.xfer g.val f).lost bs ((List.range n).map (fun j => f.pos + j)) = []) →
      Answers (.dmaBurstEnd g) s (fun t =>
        t.mem = (((List.range n).map (fun j => f.pos + j)).foldl (fun (u : State) k =>
          u.writeMem ((s.xfer g.val f).dst.addr ((s.xfer g.val f).dstOff k)).toNat (s.srcBytes (s.xfer g.val f) f.snap k)) s).mem
        ∧ (∃ f', (t.seat g.val).flight = [f'] ∧ f'.pos = f.pos + n ∧ f'.words = f.words ∧ f'.total = f.total)
        ∧ SameBut [.mem, .ecc, .seats, .slices, .bridges] s t ∧ ∀ k, k ≠ g.val → t.seat k = s.seat k)) ∧
    (∀ n a wr r, n = (s.xfer g.val f).burstLen f →
      s.checkBurst g.val (s.xfer g.val f) f.pos n = .share a wr r →
      Answers (.dmaBurstEnd g) s (fun t => (s.LoneRun g.val → t.seatState g.val = 6) ∧ t.rd (CLC_SEAT_STATE.LAST_ERR (g.val / 64) (g.val % 64)) = 2
        ∧ SameBut [.regs, .fcu, .pins, .proc, .seats, .cores, .jobs] s t)) ∧
    (∀ n v a wr, n = (s.xfer g.val f).burstLen f →
      s.checkBurst g.val (s.xfer g.val f) f.pos n = .err v a wr →
      Answers (.dmaBurstEnd g) s (fun t => (s.LoneRun g.val → t.seatState g.val = 6) ∧ t.rd (CLC_SEAT_STATE.LAST_ERR (g.val / 64) (g.val % 64)) = 6
        ∧ SameBut [.regs, .fcu, .pins, .proc, .seats, .cores, .jobs, .bridges] s t))) ∧
  (∀ (s : State) (g : Fin 1024), s.Awake →
    Answers (.postprocStepBoundary g) s (fun t => SameBut [.seats] s t ∧ (∀ k, k ≠ g.val → t.seat k = s.seat k)
      ∧ (t.seat g.val).flight = ((s.seat g.val).flight.filter (fun f => !(decide (f.unit = 1) && f.squash))).map (fun f =>
          if f.unit = 1 ∧ (s.seatState g.val = 5 ∨ (s.core (coreOf g.val)).drill = true) then { f with paused := true } else f)))

/-! ### Arithmetic -/

/-- R75-R77, R84: products of integers accumulate exactly: the lane holds the start plus the sum on its grid of 2^-48, no flag is set, and INT32
output without EXP_SHIFT writes the sum clamped to 32 bits. R79: the CARRY format keeps every lane: a lane written as 128 bits reads back as itself.
R71, R84: an element that is a number is written back as itself by every floating-point format, whatever SAT is and with FTZ off. -/
def Obligations.NumbersAreExactWhereTheSpecSaysSo : Prop :=
  (∀ (v : Int) (ps : List (Int × Int)) (oc : Nat), -(2 ^ 47 : Int) ≤ v + (ps.map (fun p => p.1 * p.2)).sum →
    v + (ps.map (fun p => p.1 * p.2)).sum < 2 ^ 47 →
    exactLane { Lane.zero with value := v * 2 ^ 48 } (ps.map (fun p => (numOfInt p.1, numOfInt p.2)))
      = { Lane.zero with value := (v + (ps.map (fun p => p.1 * p.2)).sum) * 2 ^ 48 } ∧
    (ocShift oc = 0 → laneOut oc .int32 false { Lane.zero with value := v * 2 ^ 48 }
        (ps.map (fun p => (numOfInt p.1, numOfInt p.2)))
      = bitsOfInt 32 (clampInt (-2147483648) 2147483647 (v + (ps.map (fun p => p.1 * p.2)).sum)))) ∧
  (∀ l : Lane, l.mode1 = false → -(2 ^ 95 : Int) ≤ l.value → l.value < 2 ^ 95 → Lane.ofBits l.toBits = l ∧ l.toBits < 2 ^ 128) ∧
  (∀ w : F32, Lane.ofBits (Lane.ofF32 w).toBits = Lane.ofF32 w ∧ (Lane.ofF32 w).toBits < 2 ^ 128) ∧
  (∀ f ∈ [Fmt.e4m3, .e5m2, .e3m2, .e2m3, .e2m1, .bf16, .fp16, .fp32], ∀ (sat : Bool) (b : Nat), b < 2 ^ f.bits →
    (f.decode b).isNan = false → f.encode sat false (f.decode b) = b)

/-! ### Fault collection -/

/-- R267 with R276: what the FCU does with one event of source `n`: promotion, counting within the window, escalation, the class raised, the status,
the event count and the log entry. LAPS counts each time the log wraps, and a CRITICAL event with FREEZE_ON_CRIT = 1 is logged and then sets FROZEN. -/
def Obligations.EventIsClassedCountedAndLogged : Prop :=
  ∀ (s : State) (n : Nat), (srcReset n).isSome = true →
    let promoted := s.on (FCU_SRC_STATE.PROMOTE n)
    let cls := s.rd (FCU_SRC_CFG.CLASS n)
    let lim := s.rd (FCU_SRC_CFG.N n)
    let counts := decide (lim ≠ 0 ∧ cls ≠ 3)
    let opens := decide (s.rd (FCU_SRC_STATE.WIN_COUNT n) = 0 ∨ s.rd (FCU_SRC_CFG.W_MS n) ≤ s.nowMs - Table.get s.fcu.winStart 0 n)
    let k := (if opens then 0 else s.rd (FCU_SRC_STATE.WIN_COUNT n)) + 1
    let c1 := cls + b2n promoted
    let esc := (c1 = 1 || c1 = 2) && (List.range 512).any (fun u =>
      s.on (stickyRef u) && !s.on (ackRef u) && s.rd (FCU_SRC_STATE.RAISED_CLASS u) = c1)
    let c := min (c1 + b2n esc) 3
    let t := s.takeEvent n
    t.rd (FCU_SRC_STATE.PROMOTE n) = b2n (counts && decide (k = lim))
    ∧ t.rd (FCU_SRC_STATE.WIN_COUNT n)
        = (if counts then (if k = lim then 0 else k % 256) else s.rd (FCU_SRC_STATE.WIN_COUNT n))
    ∧ t.rd (FCU_SRC_STATE.RAISED_CLASS n)
        = (if s.on (stickyRef n) then max (s.rd (FCU_SRC_STATE.RAISED_CLASS n)) c else c)
    ∧ t.Raised n
    ∧ t.rd (FCU_SRC_STATE.EVENTS n) = min (s.rd (FCU_SRC_STATE.EVENTS n) + 1) 65535
    ∧ (s.on FCU_LOG_PTR.FROZEN = true → t.rd FCU_LOG_PTR.DROPPED = min (s.rd FCU_LOG_PTR.DROPPED + 1) 65535)
    ∧ (s.on FCU_LOG_PTR.FROZEN = true → t.on FCU_LOG_PTR.FROZEN = true ∧ t.rd FCU_LOG_PTR.LAPS = s.rd FCU_LOG_PTR.LAPS
        ∧ t.rd FCU_LOG_PTR.WR_IDX = s.rd FCU_LOG_PTR.WR_IDX)
    ∧ (s.on FCU_LOG_PTR.FROZEN = false → t.rd FCU_LOG_PTR.WR_IDX = (s.rd FCU_LOG_PTR.WR_IDX + 1) % 4096
        ∧ t.rd FCU_LOG_PTR.LAPS = (s.rd FCU_LOG_PTR.LAPS + b2n (decide (s.rd FCU_LOG_PTR.WR_IDX = 4095))) % FCU_LOG_PTR.LAPS.span
        ∧ t.on FCU_LOG_PTR.FROZEN = (decide (c = 3) && s.on FCU_CTRL.FREEZE_ON_CRIT)
        ∧ t.rd FCU_LOG_PTR.DROPPED = s.rd FCU_LOG_PTR.DROPPED
        ∧ t.reg64 (FCU_LOG (s.rd FCU_LOG_PTR.WR_IDX)) = n + c * 2 ^ 9 + b2n promoted * 2 ^ 11 + b2n esc * 2 ^ 12
            + s.clock.now / 4096 % 2 ^ 48 * 2 ^ 16)
    ∧ (∀ m, m ≠ n → m < 512 → t.reg64 (FCU_SRC_STATE m) = s.reg64 (FCU_SRC_STATE m)
        ∧ t.on (stickyRef m) = s.on (stickyRef m) ∧ t.on (ackRef m) = s.on (ackRef m))
    ∧ SameBut [.regs, .fcu, .pins] s t

/-- R269, R270: the reactions of an event. MINOR and above interrupt; CRITICAL asserts both safe-state outputs and stops ALIVE_OUT; otherwise the
REACT bits of the source say what happens. -/
def Obligations.EventReactions : Prop :=
  ∀ (s : State) (n c : Nat), n < 512 → c ≤ 3 →
    let r := s.rd (FCU_SRC_CFG.REACT n)
    let t := s.react n c
    t.fcu.broughtI.contains n = (bit r 0 || decide (1 ≤ c))
    ∧ t.fcu.broughtS.contains n = (s.fcu.broughtS.contains n || bit r 1 || decide (c = 3))
    ∧ t.fcu.isolated.contains n = (s.fcu.isolated.contains n || bit r 2)
    ∧ t.rd FCU_SUMMARY.SAFE1 = (if c = 3 then 1 else s.rd FCU_SUMMARY.SAFE1)
    ∧ (bit r 3 = true ∨ c = 3 → t.rd FCU_SUMMARY.ALIVE_STOPPED = 1 ∧ t.pins.aliveOut = false ∧ t.fcu.aliveRun = false)
    ∧ (bit r 3 = false → c ≠ 3 → t.pins = s.pins ∧ t.fcu.aliveRun = s.fcu.aliveRun)
    ∧ (c = 3 → s.on FCU_SUMMARY.FIRST_CRIT_VALID = false → t.rd FCU_SUMMARY.FIRST_CRIT = n ∧ t.on FCU_SUMMARY.FIRST_CRIT_VALID = true)
    ∧ (∀ m, m ≠ n → t.fcu.broughtI.contains m = s.fcu.broughtI.contains m
        ∧ t.fcu.broughtS.contains m = s.fcu.broughtS.contains m ∧ t.fcu.isolated.contains m = s.fcu.isolated.contains m)
    ∧ RegsBut [FCU_SUMMARY] s t ∧ SameBut [.regs, .fcu, .pins] s t

/-- R267, R280, R351: the commands that deliver one event set its source, unacknowledged, and change nothing but what an event acts on: PCIE_ERROR,
LIN_ERROR, FCU_SW_RAISE by a party that may write the register, and the events of the input list; a level source holds ASSERTING for as long as its
condition holds (R266), and that of a withdrawn core or cluster until its die is powered down (R281). -/
def Obligations.EventCommandsRaiseTheirSource : Prop :=
  (∀ s : State, s.Awake → Answers .pcieError s (fun t => (s.underTest srcPcieErr = false → t.Raised srcPcieErr) ∧ SameBut eventParts s t)) ∧
  (∀ (s : State) (ctl : Fin 4), s.Awake →
    Answers (.linError ctl) s (fun t => (s.underTest srcLinErr = false → t.Raised srcLinErr) ∧ SameBut eventParts s t)) ∧
  (∀ (s : State) (w : Initiator) (d : Word), s.Awake → s.Reaches w .fcu_sw_raise 0 0 true →
    Answers (.fcuSwRaise w d) s (fun t => t.bus = .done ∧ SameBut (.bus :: eventParts) (s.through w .fcu_sw_raise 0 0) t ∧
      (bit d.toNat 4 = true → s.underTest (srcSwFault (bits d.toNat 3 0)) = false → t.Raised (srcSwFault (bits d.toNat 3 0))) ∧
      (bit d.toNat 4 = false → SameBut [.bus] (s.through w .fcu_sw_raise 0 0) t))) ∧
  (∀ (s : State) (n : Fin 512), s.Awake → (srcReset n.val).isSome = true → bit (s.rd (FCU_SRC_CFG.REACT n.val)) 2 = false →
    (∀ b, isLevelSrc n.val = false → Answers (.fcuEvent [n] ⟨b, []⟩) s (fun t =>
      (s.underTest n.val = false → t.Raised n.val) ∧ SameBut eventParts s t)) ∧
    (isLevelSrc n.val = true → s.on (FCU_SRC_STATE.ASSERTING n.val) = false → Answers (.fcuEvent [n] ⟨true, []⟩) s (fun t =>
      (s.underTest n.val = false → t.Raised n.val) ∧ t.on (FCU_SRC_STATE.ASSERTING n.val) = true ∧ SameBut eventParts s t)) ∧
    (isLevelSrc n.val = true → s.keepsAsserting n.val = false →
      Answers (.fcuEvent [n] ⟨false, []⟩) s (fun t => t.on (FCU_SRC_STATE.ASSERTING n.val) = false
        ∧ SameBut [.regs] s t ∧ RegsBut [FCU_SRC_STATE n.val] s t)) ∧
    (s.keepsAsserting n.val = true → exec (.fcuEvent [n] ⟨false, []⟩) s = .next s))

/-- R272: ALIVE_OUT. It starts when the self-check has passed and has not been stopped; each edge toggles it at the rate written last; a failure of
the self-check stops it, holds it low and raises FCU_SELFCHECK; once stopped it does not start. That a command which is not enabled leaves the state
as it was is the model's choice (log entry 2). -/
def Obligations.AliveOutStartsTogglesAndStops : Prop :=
  (∀ s : State, s.Awake → s.on FCU_SUMMARY.ALIVE_STOPPED = false → s.boot.fcuPassed = false → s.rd SEC_STATE.SC_STATE ≠ 0 →
    Answers .aliveOutStart s (fun t => t.fcu.aliveRun = true ∧ t.fcu.aliveHz = s.rd FCU_CTRL.ALIVE_HZ ∧ t.boot.fcuPassed = true ∧
      SameBut [.fcu, .boot, .regs] s t ∧ RegsBut [AON_SERVICE] s t)) ∧
  (∀ s : State, s.Awake → s.fcu.aliveRun = true →
    Answers .aliveOutEdge s (fun t => t.pins.aliveOut = !s.pins.aliveOut ∧ t.fcu.aliveHz = s.rd FCU_CTRL.ALIVE_HZ ∧
      SameBut [.fcu, .pins] s t)) ∧
  (∀ s : State, s.Awake →
    Answers .fcuSelfcheckFail s (fun t => t.on FCU_SUMMARY.SELFCHECK_FAIL = true ∧ t.on FCU_SUMMARY.ALIVE_STOPPED = true ∧
      t.fcu.aliveRun = false ∧ t.pins.aliveOut = false ∧ t.on (FCU_SRC_STATE.ASSERTING srcFcuSelfcheck) = true ∧
      (s.on (FCU_SRC_STATE.ASSERTING srcFcuSelfcheck) = false → s.underTest srcFcuSelfcheck = false → t.Raised srcFcuSelfcheck)
      ∧ SameBut eventParts s t)) ∧
  (∀ s : State, s.on FCU_SUMMARY.ALIVE_STOPPED = true → exec .aliveOutStart s = .next s) ∧
  (∀ s : State, s.fcu.aliveRun = false → exec .aliveOutEdge s = .next s)

/-- R273: writing 1 to a source's bit in FCU_SRC_ACKk acknowledges a source that is set, and does nothing to one that is not; no other register
changes. With every source that is set acknowledged, an event does not escalate; an acknowledged source contributes to no interrupt; a new event of a
source clears its acknowledgement. -/
def Obligations.AcknowledgeSetSourcesOnly : Prop :=
  (∀ (s : State) (w : Initiator) (k : Fin 8) (d : Word), s.Awake → s.Reaches w .fcu_src_ack k.val 0 true →
    Answers (.fcuAck w k d) s (fun t => t.bus = .done ∧ SameBut [.bus, .regs] (s.through w .fcu_src_ack k.val 0) t ∧ RegsBut [FCU_SRC_ACK k.val] s t
      ∧ ∀ j < 64, t.on (ackRef (64 * k.val + j))
          = (s.on (ackRef (64 * k.val + j)) || (bit d.toNat j && s.on (stickyRef (64 * k.val + j)))))) ∧
  (∀ (s : State) (n : Nat), (srcReset n).isSome = true → (∀ u < 512, s.on (stickyRef u) = true → s.on (ackRef u) = true) →
    (s.takeEvent n).rd (FCU_SRC_STATE.RAISED_CLASS n)
      = max (if s.on (stickyRef n) then s.rd (FCU_SRC_STATE.RAISED_CLASS n) else 0)
          (min (s.rd (FCU_SRC_CFG.CLASS n) + b2n (s.on (FCU_SRC_STATE.PROMOTE n))) 3)) ∧
  (∀ s : State, (∀ n ∈ s.fcu.broughtI, s.on (ackRef n) = true) → s.irq = false) ∧
  (∀ (s : State) (n : Nat), (srcReset n).isSome = true → (s.takeEvent n).on (ackRef n) = false)

/-- R274: writing 1 to a source's bit in FCU_SRC_STATUSk clears the sticky bit, the acknowledgement and RAISED_CLASS, unless the source is asserting:
then the write is ignored and counted. EVENTS, WIN_COUNT, PROMOTE, the log, the isolation and SAFE1 stay. An event of a source does not make it
assert, so that an event source can always be cleared. -/
def Obligations.ClearLeavesAssertingSources : Prop :=
  (∀ (s : State) (w : Initiator) (k : Fin 8) (d : Word), s.Awake → s.Reaches w .fcu_src_status k.val 0 true →
    Answers (.fcuClear w k d) s (fun t => t.bus = .done ∧ SameBut [.bus, .regs, .fcu] (s.through w .fcu_src_status k.val 0) t
      ∧ (∀ j < 64, bit d.toNat j = true → s.on (FCU_SRC_STATE.ASSERTING (64 * k.val + j)) = false →
          t.on (stickyRef (64 * k.val + j)) = false ∧ t.on (ackRef (64 * k.val + j)) = false
            ∧ t.rd (FCU_SRC_STATE.RAISED_CLASS (64 * k.val + j)) = 0)
      ∧ (∀ j < 64, bit d.toNat j = false ∨ s.on (FCU_SRC_STATE.ASSERTING (64 * k.val + j)) = true →
          t.on (stickyRef (64 * k.val + j)) = s.on (stickyRef (64 * k.val + j))
            ∧ t.on (ackRef (64 * k.val + j)) = s.on (ackRef (64 * k.val + j))
            ∧ t.rd (FCU_SRC_STATE.RAISED_CLASS (64 * k.val + j)) = s.rd (FCU_SRC_STATE.RAISED_CLASS (64 * k.val + j)))
      ∧ t.rd FCU_SUMMARY.CLR_IGNORED = min (s.rd FCU_SUMMARY.CLR_IGNORED
          + ((List.range 64).filter (fun j => bit d.toNat j && s.on (FCU_SRC_STATE.ASSERTING (64 * k.val + j)))).length) 65535
      ∧ (∀ n < 512, t.rd (FCU_SRC_STATE.EVENTS n) = s.rd (FCU_SRC_STATE.EVENTS n)
          ∧ t.rd (FCU_SRC_STATE.WIN_COUNT n) = s.rd (FCU_SRC_STATE.WIN_COUNT n)
          ∧ t.rd (FCU_SRC_STATE.PROMOTE n) = s.rd (FCU_SRC_STATE.PROMOTE n))
      ∧ t.rd FCU_SUMMARY.SAFE1 = s.rd FCU_SUMMARY.SAFE1 ∧ t.fcu.isolated = s.fcu.isolated
      ∧ RegsBut (FCU_SRC_STATUS k.val :: FCU_SRC_ACK k.val :: FCU_SUMMARY
          :: (List.range 64).map (fun j => FCU_SRC_STATE (64 * k.val + j))) s t)) ∧
  (∀ (s : State) (n : Nat), (srcReset n).isSome = true →
    (s.takeEvent n).on (FCU_SRC_STATE.ASSERTING n) = s.on (FCU_SRC_STATE.ASSERTING n)) ∧
  (∀ (s : State) (n : Fin 512) (b : Bool), isLevelSrc n.val = false → s.on (FCU_SRC_STATE.ASSERTING n.val) = false →
    Answers (.fcuEvent [n] ⟨b, []⟩) s (fun t => t.on (FCU_SRC_STATE.ASSERTING n.val) = false))

/-- R272, R276: FCU_CTRL takes ALIVE_HZ within its range until LOCK is set, and FREEZE_ON_CRIT whatever LOCK is; FCU_LOG_PTR.FROZEN is cleared by
writing 1, and the other fields of that register stay. R14, R275,
R277: reads of the FCU answer with the register and clear its read-to-clear field only for the Security Core, Proctor and the secure world; a read of
a violation log clears COUNT. -/
def Obligations.FcuRegistersAreWrittenAndRead : Prop :=
  (∀ (s : State) (w : Initiator) (d : Word), s.Awake → s.Reaches w .fcu_ctrl 0 0 true →
    Answers (.fcuCtrlWrite w d) s (fun t => t.bus = .done ∧ SameBut [.bus, .regs] (s.through w .fcu_ctrl 0 0) t ∧ RegsBut [FCU_CTRL] s t
      ∧ t.rd FCU_CTRL.ALIVE_HZ = (if s.on FCU_CTRL.LOCK = false ∧ 250 ≤ bits d.toNat 47 32 ∧ bits d.toNat 47 32 ≤ 10000
          then bits d.toNat 47 32 else s.rd FCU_CTRL.ALIVE_HZ)
      ∧ t.on FCU_CTRL.FREEZE_ON_CRIT = bit d.toNat 1
      ∧ t.on FCU_CTRL.LOCK = (s.on FCU_CTRL.LOCK || bit d.toNat 0))) ∧
  (∀ (s : State) (w : Initiator) (d : Word), s.Awake → s.Reaches w .fcu_log_ptr 0 0 true →
    Answers (.fcuLogUnfreeze w d) s (fun t => t.bus = .done ∧ SameBut [.bus, .regs] (s.through w .fcu_log_ptr 0 0) t ∧ RegsBut [FCU_LOG_PTR] s t
      ∧ t.on FCU_LOG_PTR.FROZEN = (s.on FCU_LOG_PTR.FROZEN && !bit d.toNat 32)
      ∧ t.rd FCU_LOG_PTR.WR_IDX = s.rd FCU_LOG_PTR.WR_IDX ∧ t.rd FCU_LOG_PTR.DROPPED = s.rd FCU_LOG_PTR.DROPPED
      ∧ t.rd FCU_LOG_PTR.LAPS = s.rd FCU_LOG_PTR.LAPS)) ∧
  (∀ (s : State) (w : Initiator), s.Awake → s.Reaches w .fcu_summary 0 0 false →
    Answers (.fcuSummaryRead w) s (fun t => t.bus = .data s.summaryWord ∧ SameBut [.bus, .regs] (s.asked w .fcu_summary 0 0) t ∧ RegsBut [FCU_SUMMARY] s t
      ∧ t.rd FCU_SUMMARY.CLR_IGNORED = (if (s.ctx w).fcuParty then 0 else s.rd FCU_SUMMARY.CLR_IGNORED)
      ∧ t.rd FCU_SUMMARY.SAFE1 = s.rd FCU_SUMMARY.SAFE1)) ∧
  (∀ (s : State) (w : Initiator), s.Awake → s.Reaches w .fcu_log_ptr 0 0 false →
    Answers (.fcuLogPtrRead w) s (fun t => t.bus = .data (s.reg64 FCU_LOG_PTR) ∧ SameBut [.bus, .regs] (s.asked w .fcu_log_ptr 0 0) t ∧ RegsBut [FCU_LOG_PTR] s t
      ∧ t.rd FCU_LOG_PTR.DROPPED = (if (s.ctx w).fcuParty then 0 else s.rd FCU_LOG_PTR.DROPPED)
      ∧ t.rd FCU_LOG_PTR.WR_IDX = s.rd FCU_LOG_PTR.WR_IDX)) ∧
  (∀ (s : State) (w : Initiator) (n : Fin 512), s.Awake → s.Reaches w .fcu_src_state n.val 0 false →
    Answers (.fcuSrcStateRead w n) s (fun t => t.bus = .data (s.reg64 (FCU_SRC_STATE n.val)) ∧ SameBut [.bus, .regs] (s.asked w .fcu_src_state n.val 0) t
      ∧ RegsBut [FCU_SRC_STATE n.val] s t
      ∧ t.rd (FCU_SRC_STATE.EVENTS n.val) = (if (s.ctx w).fcuParty then 0 else s.rd (FCU_SRC_STATE.EVENTS n.val))
      ∧ t.rd (FCU_SRC_STATE.WIN_COUNT n.val) = s.rd (FCU_SRC_STATE.WIN_COUNT n.val))) ∧
  (∀ (s : State) (w : Initiator) (l : ViolLog), s.Awake → s.Reaches w (violFam l).1 (violFam l).2.1 (violFam l).2.2 false →
    Answers (.violInfoRead w l) s (fun t => t.bus = .data (s.reg64 (violPair l).2) ∧ SameBut [.bus, .regs] (s.asked w (violFam l).1 (violFam l).2.1 (violFam l).2.2) t
      ∧ RegsBut [(violPair l).2] s t ∧ t.rd ⟨(violPair l).2, 63, 48⟩ = 0))

/-! ### Locker and Slate -/

/-- R98, R99, R101, R102: corrected words are written back; a scrub period starts a pass or finds it late and raises MEM_SCRUB_LATE; the end of a pass
has corrected the single-bit errors of the memory and leaves the uncorrectable words marked. R107-R111: START of CLC_MARCH_CTRL, written while no test
runs, starts a test that holds its first row group, or refuses it; a group that ends without a failing row passes to the next group, with memory as it
was, or zero where the test is destructive; the last group ends the test with its result. R45: a share is given to a Seat that is EMPTY where it lies
in the Locker and overlaps no other share of the core; any other write leaves the share and reports SHARE_OVERLAP. A read of the ECC counts clears
them (R14). -/
def Obligations.LocalMemoriesAreKeptAndTested : Prop :=
  (∀ (s : State) (a : PAddr), s.Awake → Answers (.eccWriteback a) s (fun t =>
    t.ecc = { s.ecc with wb := s.ecc.wb.filter (· ≠ wordOf a.toNat) } ∧ SameBut [.ecc] s t)) ∧
  (∀ (s : State) (n : Fin 16) (m : Fin 9), s.Awake → s.memUp n.val = true →
    (s.scrubState n.val m.val = 0 → Answers (.scrubPeriodEnd n m) s (fun t =>
      t.scrubState n.val m.val = 1 ∧ SameBut [.clusters] s t ∧ ∀ k, k ≠ n.val → t.cluster k = s.cluster k)) ∧
    (s.scrubState n.val m.val ≠ 0 → s.underTest (srcCluster n.val 7) = false → Answers (.scrubPeriodEnd n m) s (fun t =>
      t.scrubState n.val m.val = 2 ∧ t.Raised (srcCluster n.val 7) ∧ SameBut (.clusters :: eventParts) s t))) ∧
  (∀ (s : State) (n : Fin 16) (m : Fin 9), s.Awake → s.memUp n.val = true → s.scrubState n.val m.val ≠ 0 →
    Answers (.scrubPassEnd n m) s (fun t => t.scrubState n.val m.val = (if s.scrubState n.val m.val = 2 then 1 else 0)
      ∧ t.ecc.ue = s.ecc.ue
      ∧ (∀ w, w ∈ t.ecc.ce ↔ w ∈ s.ecc.ce ∧ hits (memRange n.val m.val).1 ((memRange n.val m.val).2 - (memRange n.val m.val).1) w = false)
      ∧ SameBut [.regs, .ecc, .pins, .fcu, .clusters, .proc] s t)) ∧
  (∀ (s : State) (w : Initiator) (n : Fin 16) (d : Word), s.Awake → s.Reaches w .clc_march_ctrl n.val 0 true → bit d.toNat 0 = true →
    s.on (CLC_MARCH_STATUS.BUSY n.val) = false → s.memUp n.val = true →
    ∀ u, u = s.plainWrite (CLC_MARCH_CTRL n.val) (RegFam.fields .clc_march_ctrl) false d.toNat marchCtrlOk →
    ∀ first last dest, first = u.rd (CLC_MARCH_CTRL.GROUP_FIRST n.val) → last = first + u.rd (CLC_MARCH_CTRL.GROUP_COUNT n.val) →
      dest = u.on (CLC_MARCH_CTRL.MODE n.val) →
    (u.marchRefused n.val (u.marchMems n.val) first last dest (isSecCore w) = true →
      Answers (.marchStart w n d) s (fun t => t.bus = .done ∧ t.rd (CLC_MARCH_STATUS.RESULT n.val) = 4
        ∧ t.on (CLC_MARCH_CTRL.START n.val) = false ∧ t.cluster n.val = s.cluster n.val ∧ SameBut [.bus, .regs] (s.through w .clc_march_ctrl n.val 0) t
        ∧ RegsBut [CLC_MARCH_CTRL n.val, CLC_MARCH_STATUS n.val] s t)) ∧
    (∀ m rest, u.marchRefused n.val (u.marchMems n.val) first last dest (isSecCore w) = false → u.marchMems n.val = m :: rest →
      Answers (.marchStart w n d) s (fun t => t.bus = .done ∧ t.on (CLC_MARCH_STATUS.BUSY n.val) = true
        ∧ (t.cluster n.val).march = ⟨rest, m, first, first, last, dest, false, [], some (m, first), false⟩
        ∧ SameBut [.bus, .regs, .clusters] (s.through w .clc_march_ctrl n.val 0) t ∧ RegsBut [CLC_MARCH_CTRL n.val, CLC_MARCH_STATUS n.val] s t))) ∧
  (∀ (s : State) (n : Fin 16) (q : March) (h : Nat × Nat), s.Awake → (s.cluster n.val).march = q → q.held = some h →
    (q.group < marchLast q q.mem → Answers (.marchRowGroupEnd n []) s (fun t =>
      (t.cluster n.val).march = { q with group := q.group + 1, held := some (q.mem, q.group + 1) }
      ∧ (q.destructive = false → t.mem = s.mem)
      ∧ (q.destructive = true → ∀ a, t.byte a = (if (groupRange n.val q.mem q.group).1 ≤ a ∧ a < (groupRange n.val q.mem q.group).2
          then 0#8 else s.byte a))
      ∧ SameBut [.regs, .mem, .ecc, .pins, .fcu, .clusters, .proc] s t)) ∧
    (¬q.group < marchLast q q.mem → q.mems = [] → s.drillMarch n.val = false → q.failed = [] → q.repaired = false →
      Answers (.marchRowGroupEnd n []) s (fun t => (t.cluster n.val).march = March.zero
        ∧ t.rd (CLC_MARCH_STATUS.RESULT n.val) = 1 ∧ t.on (CLC_MARCH_STATUS.BUSY n.val) = false
        ∧ SameBut [.regs, .mem, .ecc, .pins, .fcu, .clusters, .proc] s t))) ∧
  (∀ (s : State) (w : Initiator) (g : Fin 1024) (d : Word), s.Awake → s.Reaches w .clc_seat_share (g.val / 64) (g.val % 64) true →
    (s.seatState g.val = 0 → bits d.toNat 8 0 + bits d.toNat 25 16 ≤ 512 →
      s.shareOverlaps g.val (bits d.toNat 8 0) (bits d.toNat 25 16) = false →
      Answers (.clcSeatShareWrite w g d) s (fun t => t.bus = .done
        ∧ t.shareOf g.val = (lockerAddr (coreOf g.val) (bits d.toNat 8 0 * 4096), bits d.toNat 25 16 * 4096)
        ∧ t.rd (CLC_SEAT_STATE.LAST_ERR (g.val / 64) (g.val % 64)) ≠ 4 ∧ SameBut [.bus, .regs] (s.through w .clc_seat_share (g.val / 64) (g.val % 64)) t
        ∧ RegsBut [CLC_SEAT_SHARE (g.val / 64) (g.val % 64), CLC_SEAT_STATE (g.val / 64) (g.val % 64)] s t)) ∧
    (s.seatState g.val ≠ 6 → s.seatState g.val ≠ 0 ∨ 512 < bits d.toNat 8 0 + bits d.toNat 25 16
        ∨ s.shareOverlaps g.val (bits d.toNat 8 0) (bits d.toNat 25 16) = true →
      Answers (.clcSeatShareWrite w g d) s (fun t => t.bus = .done
        ∧ t.rd (CLC_SEAT_STATE.LAST_ERR (g.val / 64) (g.val % 64)) = 4 ∧ SameBut [.bus, .regs] (s.through w .clc_seat_share (g.val / 64) (g.val % 64)) t
        ∧ RegsBut [CLC_SEAT_STATE (g.val / 64) (g.val % 64)] s t)) ∧
    (s.seatState g.val = 6 → exec (.clcSeatShareWrite w g d) s
      = .next { s.through w .clc_seat_share (g.val / 64) (g.val % 64) with bus := .done })) ∧
  (∀ (s : State) (w : Initiator) (n : Fin 16), s.Awake → s.Reaches w .clc_mem_ecccount n.val 0 false →
    Answers (.clcMemEcccountRead w n) s (fun t => t.bus = .data (s.reg64 (CLC_MEM_ECCCOUNT n.val)) ∧ SameBut [.bus, .regs] (s.asked w .clc_mem_ecccount n.val 0) t
      ∧ t.rd (CLC_MEM_ECCCOUNT.CE_COUNT n.val) = 0 ∧ t.rd (CLC_MEM_ECCCOUNT.UE_COUNT n.val) = 0
      ∧ RegsBut [CLC_MEM_ECCCOUNT n.val] s t))

/-! ### Power, clocks and heat -/

/-- R381, R382: the PMC raises a die at the Registrar's request, no higher than CEIL; a step of a change moves the operating point by one, counts it,
and ends the change at its target. R389, R391: a PLL that loses lock raises PLL_UNLOCK, one outside its window CLK_MON, and the domains it feeds stop;
a relock starts them again. R385: a die is raised only after a period in which no limit acted. That a command which is not enabled leaves the state as it
was, and that all domains of one PLL stop and resume together, are the model's choices (log entries 2 and 49). -/
def Obligations.OperatingPointsAndPlls : Prop :=
  (∀ (s : State) (d : Fin 2) (p : Fin 5), s.Awake → s.regRunning = true → s.pmcRunning = true → (s.die d.val).powered = true →
    (s.die d.val).allowed = true →
    (s.pwr.acted = true ∨ s.pwr.actedLast = true → exec (.oppRaise d p) s = .next s) ∧
    (s.pwr.acted = false → s.pwr.actedLast = false → s.rd (PMC_OPP_CD.TARGET d.val) < min p.val (s.ceil d.val) → Answers (.oppRaise d p) s (fun t =>
      t.rd (PMC_OPP_CD.TARGET d.val) = min p.val (s.ceil d.val) ∧ t.rd (PMC_OPP_CD.CUR d.val) = s.rd (PMC_OPP_CD.CUR d.val)
      ∧ (t.die d.val).moveBusy = decide (min p.val (s.ceil d.val) ≠ s.rd (PMC_OPP_CD.CUR d.val))
      ∧ t.die (1 - d.val) = s.die (1 - d.val) ∧ SameBut [.regs, .dies] s t ∧ RegsBut [PMC_OPP_CD d.val] s t)) ∧
    (min p.val (s.ceil d.val) ≤ s.rd (PMC_OPP_CD.TARGET d.val) → exec (.oppRaise d p) s = .next s)) ∧
  (∀ (s : State) (d : Fin 2), s.Awake → (s.die d.val).moveBusy = true →
    s.rd (PMC_OPP_CD.CUR d.val) ≠ s.rd (PMC_OPP_CD.TARGET d.val) → Answers (.oppStepEnd d) s (fun t =>
      t.rd (PMC_OPP_CD.CUR d.val) = (if s.rd (PMC_OPP_CD.CUR d.val) < s.rd (PMC_OPP_CD.TARGET d.val)
        then s.rd (PMC_OPP_CD.CUR d.val) + 1 else s.rd (PMC_OPP_CD.CUR d.val) - 1)
      ∧ t.rd (PMC_OPP_CD.TARGET d.val) = s.rd (PMC_OPP_CD.TARGET d.val)
      ∧ t.rd (PMC_OPP_CD.STEPS d.val) = (s.rd (PMC_OPP_CD.STEPS d.val) + 1) % (PMC_OPP_CD.STEPS d.val).span
      ∧ (t.die d.val).moveBusy = decide (t.rd (PMC_OPP_CD.CUR d.val) ≠ t.rd (PMC_OPP_CD.TARGET d.val))
      ∧ SameBut [.regs, .dies] s t ∧ RegsBut [PMC_OPP_CD d.val] s t)) ∧
  (∀ (s : State) (k : Fin 44) (a b : Bool), s.Awake → pllDomains k.val ≠ [] → (a || b) = true → s.domainOn k.val = true →
    s.domainOff k.val = false →
    Answers (.pllMonitorCheck k a b) s (fun t => (∀ j ∈ pllDomains k.val, t.domainOn j = false)
      ∧ (∀ j, j ∉ pllDomains k.val → t.domainOn j = s.domainOn j)
      ∧ (a = true → s.underTest srcPllUnlock = false → t.Raised srcPllUnlock)
      ∧ (b = true → s.underTest srcClkMon = false → t.Raised srcClkMon)
      ∧ SameBut [.regs, .pins, .fcu, .dies, .pwr, .seats, .cores, .clusters, .lessons, .jobs, .proc] s t)) ∧
  (∀ (s : State) (k : Fin 44), s.Awake → s.domainOn k.val = false →
    Answers (.pllRelock k) s (fun t => (∀ j ∈ pllDomains k.val, t.domainOn j = true)
      ∧ (∀ j, j ∉ pllDomains k.val → t.domainOn j = s.domainOn j)
      ∧ (k.val < 36 → SameBut (.pwr :: .boot :: eventParts) s t)))

/-- R374-R377: a rail that crosses its warning threshold is shown in PMC_RAIL_STATUS and raises its warning; on a compute die issue halts, and the
die's change of operating point is abandoned; a dip of the Hub rails lowers the Hub's clocks, and the DDR rails leave only refresh. Recovery ends
each: a die goes on once none of its rails is low, no thermal clamp holds it (R378), its content can be checked and its clocks run. R379, R392, R393: at
its reset threshold a rail of a compute die powers the die down, whose links go with it; any other rail resets the device with cause BROWNOUT, also
while it is held in reset. That a rail of a die that is off has no effect is the model's choice (log entry 2). -/
def Obligations.RailsWarnRecoverAndReset : Prop :=
  (∀ (s : State) (r : Fin 6), s.Awake → (s.die (railDie r.val)).powered = true →
    ∃ t, exec (.railWarningDie r) s = .next t ∧ (t.die (railDie r.val)).dipHalt = true ∧ (t.die (railDie r.val)).moveBusy = false
      ∧ bit (t.rd PMC_RAIL_STATUS.BELOW) r.val = true ∧ bit (t.rd PMC_RAIL_STATUS.WARNED) r.val = true
      ∧ (s.underTest (railSrc r.val) = false → t.Raised (railSrc r.val))
      ∧ SameBut [.regs, .pins, .fcu, .dies, .seats, .cores, .clusters, .lessons, .jobs, .proc] s t) ∧
  (∀ (s : State) (r : Fin 6), (s.die (railDie r.val)).powered = false → exec (.railWarningDie r) s = .next s) ∧
  (∀ s : State, s.Awake →
    ∃ t, exec .railWarningHub s = .next t ∧ t.pwr = { s.pwr with hubLow := true } ∧ bit (t.rd PMC_RAIL_STATUS.BELOW) 6 = true
      ∧ bit (t.rd PMC_RAIL_STATUS.WARNED) 6 = true ∧ (s.underTest (railSrc 6) = false → t.Raised (railSrc 6))
      ∧ t.dies = s.dies ∧ SameBut [.regs, .pins, .fcu, .pwr, .seats, .cores, .clusters, .lessons, .jobs, .proc] s t) ∧
  (∀ s : State, s.Awake →
    ∃ t, exec .railWarningDdr s = .next t ∧ t.pwr = { s.pwr with ddrRefreshOnly := true } ∧ bit (t.rd PMC_RAIL_STATUS.BELOW) 7 = true
      ∧ bit (t.rd PMC_RAIL_STATUS.WARNED) 7 = true ∧ (s.underTest (railSrc 7) = false → t.Raised (railSrc 7))
      ∧ SameBut [.regs, .pins, .fcu, .pwr, .proc] s t) ∧
  (∀ s : State, s.Awake → bit (s.rd PMC_RAIL_STATUS.BELOW) 6 = true →
    ∃ t, exec (.railRecovered 6) s = .next t ∧ t.pwr = { s.pwr with hubLow := false } ∧ bit (t.rd PMC_RAIL_STATUS.BELOW) 6 = false
      ∧ SameBut [.regs, .pwr] s t ∧ RegsBut [PMC_RAIL_STATUS] s t) ∧
  (∀ s : State, s.Awake → bit (s.rd PMC_RAIL_STATUS.BELOW) 7 = true →
    ∃ t, exec (.railRecovered 7) s = .next t ∧ t.pwr = { s.pwr with ddrRefreshOnly := false } ∧ bit (t.rd PMC_RAIL_STATUS.BELOW) 7 = false
      ∧ SameBut [.regs, .pwr] s t ∧ RegsBut [PMC_RAIL_STATUS] s t) ∧
  (∀ (s : State) (r : Fin 6) (d : Nat), s.Awake → bit (s.rd PMC_RAIL_STATUS.BELOW) r.val = true → d = railDie r.val →
    ∃ t, exec (.railRecovered ⟨r.val, by omega⟩) s = .next t ∧ bit (t.rd PMC_RAIL_STATUS.BELOW) r.val = false
      ∧ ((∀ k ∈ dieRails d, k ≠ r.val → bit (s.rd PMC_RAIL_STATUS.BELOW) k = false) → s.on (PMC_OPP_CD.CLAMPED d) = false →
          s.checkHeld d = false → s.domainOn (36 + 4 * d) = true → s.domainOn (37 + 4 * d) = true → (t.die d).dipHalt = false)
      ∧ ((∃ k ∈ dieRails d, k ≠ r.val ∧ bit (s.rd PMC_RAIL_STATUS.BELOW) k = true) ∨ s.on (PMC_OPP_CD.CLAMPED d) = true ∨ s.checkHeld d = true
          ∨ s.domainOn (36 + 4 * d) = false ∨ s.domainOn (37 + 4 * d) = false ∨ (s.die d).dipHalt = false →
          SameBut [.regs] s t ∧ RegsBut [PMC_RAIL_STATUS] s t)) ∧
  (∀ (s : State) (r : Fin 8), bit (s.rd PMC_RAIL_STATUS.BELOW) r.val = false → exec (.railRecovered r) s = .next s) ∧
  (∀ (s : State) (r : Fin 6) (d : Nat), s.Awake → d = railDie r.val → (s.die d).powered = true →
    ∃ t, exec (.railResetThreshold (.die r)) s = .next t ∧ (t.die d).powered = false ∧ (t.die d).held = true
      ∧ bit t.pwr.linksUp 0 = false ∧ bit t.pwr.linksUp (d + 1) = false
      ∧ t.boot = { s.boot with secretShut := s.boot.secretShut.filter (· ≠ d + 1), cdi := Table.del s.boot.cdi (d + 1) }) ∧
  (∀ (s : State) (r : Fin 6), (s.die (railDie r.val)).powered = false → exec (.railResetThreshold (.die r)) s = .next s) ∧
  (∀ (s : State) (r : Rail), s.boot.thermOff = 0 ∨ railStays r = true → r ∈ [Rail.hub, .aon, .ddr, .ddrq, .io18, .io33] →
    ∃ t, exec (.railResetThreshold r) s = .next t ∧ t.boot.inReset = true ∧ t.boot.thermOff = s.boot.thermOff ∧ bit (t.rd AON_RESET_CAUSE.CAUSE) 2 = true ∧ t.pending = s.pending
      ∧ t.fuses = s.fuses ∧ t.lessons = [] ∧ t.jobs = [])

/-- R383, R384: a temperature sample is kept; a die that reaches TJ_CLAMP_C is clamped at OP0, a clamped die that is 3 degrees above it after 1 ms at OP0
halts, a clamped die that has cooled by 5 degrees is released, and goes on where no dip holds it (R378),
and 135 degrees anywhere raises THERM_SHUTDOWN once. R385, R386, R399: a power sample adds its energy; package power above P_EXC_W takes both dies to
OP0; the limit registers are only ever lowered. -/
def Obligations.HeatAndPowerAreLimited : Prop :=
  (∀ (s : State) (ts : List Int), s.Awake →
    Answers (.thermalSample ts) s (fun t => t.pwr.temps = ts
      ∧ (∀ d : Fin 2, (s.die d.val).powered = true → s.on (PMC_OPP_CD.CLAMPED d.val) = false →
          (s.rd PMC_LIMIT_PKG.TJ_CLAMP_C : Int) ≤ hottest ((ts.drop (32 * d.val)).take 32) →
          t.on (PMC_OPP_CD.CLAMPED d.val) = true ∧ t.rd (PMC_OPP_CD.TARGET d.val) = 0)
      ∧ (∀ d : Fin 2, (s.die d.val).powered = true → s.on (PMC_OPP_CD.CLAMPED d.val) = true →
          hottest ((ts.drop (32 * d.val)).take 32) ≤ (s.rd PMC_LIMIT_PKG.TJ_CLAMP_C : Int) - 5 →
          t.on (PMC_OPP_CD.CLAMPED d.val) = false)
      ∧ (∀ d : Fin 2, (s.die d.val).powered = true → s.rd (PMC_OPP_CD.CUR d.val) = 0 → 20 ≤ (s.die d.val).clampSamples →
          (s.rd PMC_LIMIT_PKG.TJ_CLAMP_C : Int) + 3 ≤ hottest ((ts.drop (32 * d.val)).take 32) → (t.die d.val).heatHalt = true)
      ∧ (∀ d : Fin 2, (s.die d.val).powered = true → s.on (PMC_OPP_CD.CLAMPED d.val) = true →
          hottest ((ts.drop (32 * d.val)).take 32) ≤ (s.rd PMC_LIMIT_PKG.TJ_CLAMP_C : Int) - 5 →
          (∀ r ∈ dieRails d.val, bit (s.rd PMC_RAIL_STATUS.BELOW) r = false) → s.checkHeld d.val = false → s.domainOn (36 + 4 * d.val) = true →
          s.domainOn (37 + 4 * d.val) = true → (∀ e : Fin 2, e ≠ d → s.on (PMC_OPP_CD.CLAMPED e.val) = false ∨ (s.die e.val).dipHalt = false) →
          (t.die d.val).dipHalt = false ∧ (t.die d.val).heatHalt = false)
      ∧ (135 ≤ hottest ts → s.pwr.shutdown = false → t.pwr.shutdown = true
          ∧ (s.underTest srcThermShutdown = false → t.Raised srcThermShutdown))
      ∧ ((∀ d : Fin 2, s.on (PMC_OPP_CD.CLAMPED d.val) = false ∨ (s.die d.val).dipHalt = false) →
          SameBut [.regs, .pins, .fcu, .dies, .pwr, .proc] s t))) ∧
  (∀ (s : State) (x : PowerSample), s.Awake → Answers (.powerSample x) s (fun t =>
    t.rd PMC_ENERGY.ENERGY_UJ = (s.rd PMC_ENERGY.ENERGY_UJ + x.energyUj) % PMC_ENERGY.ENERGY_UJ.span
    ∧ (s.rd PMC_LIMIT_PKG.P_EXC_W < x.avg100W → ∀ d : Fin 2, t.rd (PMC_OPP_CD.TARGET d.val) = 0)
    ∧ (∀ d : Fin 2, t.rd (PMC_OPP_CD.TARGET d.val) ≤ s.rd (PMC_OPP_CD.TARGET d.val) ∧ (t.die d.val).govCeil ≤ (s.die d.val).govCeil)
    ∧ SameBut [.regs, .pins, .fcu, .dies, .pwr, .proc] s t)) ∧
  (∀ (s : State) (w : Initiator) (d : Fin 2) (v : Word), s.Awake → s.Reaches w .pmc_limit_cd d.val 0 true →
    Answers (.pmcLimitWrite w (.cd d) v) s (fun t => t.bus = .done
      ∧ t.rd (PMC_LIMIT_CD.IMAX_A d.val) = min (bits v.toNat 31 16) (s.rd (PMC_LIMIT_CD.IMAX_A d.val))
      ∧ t.rd (PMC_LIMIT_CD.OPP_MAX d.val) = min (bits v.toNat 2 0) (s.rd (PMC_LIMIT_CD.OPP_MAX d.val))
      ∧ t.rd (PMC_OPP_CD.TARGET d.val) = min (s.rd (PMC_OPP_CD.TARGET d.val)) (t.rd (PMC_LIMIT_CD.OPP_MAX d.val))
      ∧ SameBut [.bus, .regs, .dies] (s.through w .pmc_limit_cd d.val 0) t ∧ RegsBut [PMC_LIMIT_CD d.val, PMC_OPP_CD d.val] s t)) ∧
  (∀ (s : State) (w : Initiator) (v : Word), s.Awake → s.Reaches w .pmc_limit_pkg 0 0 true →
    Answers (.pmcLimitWrite w .pkg v) s (fun t => t.bus = .done
      ∧ (∀ f ∈ [PMC_LIMIT_PKG.P_SUST_W, PMC_LIMIT_PKG.P_EXC_W, PMC_LIMIT_PKG.EXC_MS], t.rd f = min (f.of v.toNat) (s.rd f))
      ∧ t.rd PMC_LIMIT_PKG.TJ_CLAMP_C = (if PMC_LIMIT_PKG.TJ_CLAMP_C.of v.toNat < 85 then s.rd PMC_LIMIT_PKG.TJ_CLAMP_C
          else min (PMC_LIMIT_PKG.TJ_CLAMP_C.of v.toNat) (s.rd PMC_LIMIT_PKG.TJ_CLAMP_C))
      ∧ SameBut [.bus, .regs] (s.through w .pmc_limit_pkg 0 0) t ∧ RegsBut [PMC_LIMIT_PKG] s t))

/-- R292, R293: a hold bit that the Security Core sets restores its unit's clock and power first; clearing a bit ends the hold. A read of the hold log
clears COUNT. -/
def Obligations.SecureHolds : Prop :=
  (∀ (s : State) (w : Initiator) (v : Word), s.Awake → s.Reaches w .pmc_sec_hold 0 0 true →
    Answers (.secHoldWrite w v) s (fun t => t.bus = .done
      ∧ (∀ u < 15, bit v.toNat u = false → t.unitHeld u = false)
      ∧ (∀ u < 15, bit v.toNat u = true → t.unitHeld u = true)
      ∧ (∀ u < 15, bit v.toNat u = true → s.unitHeld u = false → bit t.pwr.gatedPower u = false ∧ bit t.pwr.gatedClock u = false)
      ∧ SameBut [.bus, .regs, .pwr] (s.through w .pmc_sec_hold 0 0) t ∧ RegsBut [PMC_SEC_HOLD] s t)) ∧
  (∀ (s : State) (w : Initiator), s.Awake → s.Reaches w .pmc_hold_log 0 0 false →
    Answers (.pmcHoldLogRead w) s (fun t => t.bus = .data (s.reg64 PMC_HOLD_LOG) ∧ t.rd PMC_HOLD_LOG.COUNT = 0
      ∧ SameBut [.bus, .regs] (s.asked w .pmc_hold_log 0 0) t ∧ RegsBut [PMC_HOLD_LOG] s t))

/-! ### Reset and boot -/

/-- R392, R393: what resets the device and with which cause. Power-on clears the other causes; the reset pin, a soft request and the debug request add
theirs; a pulse of the pin below 1 us is ignored, as are a request without the key and a debug reset without DBG_NS_INV. R384: after THERM_SHUTDOWN
the device powers off and its release waits for the restart, which adds cause THERMAL. That a command which is not enabled leaves the state as it was
is the model's choice (log entry 2). -/
def Obligations.TheDeviceResets : Prop :=
  (∀ s : State, Answers .powerOnReset s (fun t => AtReset false s t ∧ t.rd AON_RESET_CAUSE.CAUSE = 1 ∧ t.rd WMARK_DRAM_CTRL.PRIOR_1M = 0)) ∧
  (∀ (s : State) (n : Nat), (1000 ≤ n → Answers (.resetPin n) s (fun t => AtReset true s t
      ∧ t.rd AON_RESET_CAUSE.CAUSE = setBit (s.rd AON_RESET_CAUSE.CAUSE) 1)) ∧
    (n < 1000 → exec (.resetPin n) s = .next s)) ∧
  (∀ (s : State) (w : Initiator) (d : Word), s.Awake → s.Reaches w .aon_reset_req 0 0 true →
    (bits d.toNat 7 0 = 0xA5 → Answers (.aonResetReq w d) s (fun t => AtReset true s t
      ∧ t.rd AON_RESET_CAUSE.CAUSE = setBit (s.rd AON_RESET_CAUSE.CAUSE) 5)) ∧
    (bits d.toNat 7 0 ≠ 0xA5 → exec (.aonResetReq w d) s = .next { s.through w .aon_reset_req 0 0 with bus := .done })) ∧
  (∀ s : State, s.Awake → (s.on SEC_STATE.DBG_NS_INV = true → Answers .debugReset s (fun t => AtReset true s t
      ∧ t.rd AON_RESET_CAUSE.CAUSE = setBit (s.rd AON_RESET_CAUSE.CAUSE) 6)) ∧
    (s.on SEC_STATE.DBG_NS_INV = false → exec .debugReset s = .next s)) ∧
  (∀ s : State, s.Awake → s.pwr.shutdown = true → Answers .thermalPowerOff s (fun t => AtReset false s t ∧ t.boot.thermOff = 1
    ∧ t.rd AON_RESET_CAUSE.CAUSE = s.rd AON_RESET_CAUSE.CAUSE ∧ t.rd WMARK_DRAM_CTRL.PRIOR_1M = s.priorNext)) ∧
  (∀ s : State, s.boot.inReset = true → s.boot.thermOff = 1 → exec .resetRelease s = .next s
    ∧ Answers .thermalRestart s (fun t => t.boot = { s.boot with thermOff := 0 }
      ∧ t.rd AON_RESET_CAUSE.CAUSE = setBit (s.rd AON_RESET_CAUSE.CAUSE) 3 ∧ SameBut [.regs, .boot] s t ∧ RegsBut [AON_RESET_CAUSE] s t))

/-- R35, R301, R302, R395: the release of reset samples the straps, starts Vehicle Time at zero, shows the lifecycle state, sets the debug enables
that it gives without a certificate, and completes a lifecycle transition cut short. R307, R395, R396: the boot ROM starts the Security Core on an
image that verifies and otherwise stops for good; the Security Core starts a firmware processor on an image that verifies and is not older than its
minimum version, measures it, and otherwise holds that processor in reset and raises FW_AUTH_FAIL. R28, R96, R113, R288, R291, R300, R410: compute
dies join once authenticated, or are held; their memories are zero-filled and tested; LPDDR5X is wiped below PRIOR_1M before it serves; the
application complex leaves reset once its cache partition is locked. R410, R413: PWR_EN_CDn goes high only after the FCU self-check, for a die that is
neither held nor gated off, and 10 ms after it went low. That a command which is not enabled leaves the state as it was is the model's
choice (log entry 2). -/
def Obligations.TheDeviceBoots : Prop :=
  (∀ s : State, s.boot.inReset = true → s.boot.thermOff = 0 →
    Answers .resetRelease s (fun t => t.Awake ∧ t.boot.strapEn = s.pins.pairEn ∧ t.boot.strapRole = s.pins.pairRole
      ∧ t.clock = ⟨0, 0, true, 0⟩
      ∧ t.fuses = (match s.fuses.transition with | some k => s.fuses.moved k | none => s.fuses)
      ∧ t.rd SEC_STATE.LIFECYCLE = t.fuses.lifecycle % 8
      ∧ (t.fuses.lifecycle = 0 ∨ t.fuses.lifecycle = 3 → ∀ f ∈ [SEC_STATE.DBG_NS_NONINV, SEC_STATE.DBG_NS_INV, SEC_STATE.DBG_S_NONINV,
          SEC_STATE.DBG_S_INV], t.on f = true)
      ∧ (t.fuses.lifecycle = 1 → ∀ f ∈ [SEC_STATE.DBG_NS_NONINV, SEC_STATE.DBG_NS_INV], t.on f = true)
      ∧ (t.fuses.lifecycle = 2 ∨ t.fuses.lifecycle = 4 → ∀ f ∈ [SEC_STATE.DBG_NS_NONINV, SEC_STATE.DBG_NS_INV, SEC_STATE.DBG_S_NONINV,
          SEC_STATE.DBG_S_INV], t.on f = s.on f)
      ∧ (∀ p ∈ [(PMC_LIMIT_CD.IMAX_A 0, t.fuses.imaxA0), (PMC_LIMIT_CD.OPP_MAX 0, t.fuses.oppMax0), (PMC_LIMIT_CD.IMAX_A 1, t.fuses.imaxA1),
          (PMC_LIMIT_CD.OPP_MAX 1, t.fuses.oppMax1), (PMC_LIMIT_PKG.TJ_CLAMP_C, t.fuses.tjClamp), (PMC_LIMIT_PKG.EXC_MS, t.fuses.excMs),
          (PMC_LIMIT_PKG.P_EXC_W, t.fuses.pExcW), (PMC_LIMIT_PKG.P_SUST_W, t.fuses.pSustW)], t.rd p.1 = p.2 % p.1.span)
      ∧ SameBut [.regs, .fuses, .boot, .clock] s t
      ∧ RegsBut [SEC_STATE, PMC_LIMIT_CD 0, PMC_LIMIT_CD 1, PMC_LIMIT_PKG] s t)) ∧
  (∀ (s : State) (v : BitVec 16) (dig : BitVec 384) (fl : Word), s.Awake →
    (s.rd SEC_STATE.SC_STATE = 0 → s.boot.scFailed = false → s.fuses.lifecycle ≠ 4 →
      (s.fuses.minVersion.getD 0 0 ≤ v.toNat → Answers (.bootSecFwLoad ⟨true, v⟩ dig fl) s (fun t => t.rd SEC_STATE.SC_STATE = 1
        ∧ t.on SEC_STATE.SEALED = false ∧ t.boot.firstSecDigest = some dig ∧ t.boot.bootFlags = fl.toNat
        ∧ t.boot.measure = s.boot.measure.set 0 dig ∧ t.boot.secretShut.contains 0 = true
        ∧ (s.boot.secretShut.contains 0 = false → Table.find t.boot.cdi 0 = some (compoundId (s.fuses.secrets.getD 0 0) dig))
        ∧ SameBut [.regs, .boot, .fresh] s t ∧ RegsBut [SEC_STATE] s t)) ∧
      (∀ ok, ok = false ∨ v.toNat < s.fuses.minVersion.getD 0 0 → Answers (.bootSecFwLoad ⟨ok, v⟩ dig fl) s (fun t =>
        t.boot = { s.boot with scFailed := true } ∧ (s.underTest srcFwAuthFail = false → t.Raised srcFwAuthFail)
        ∧ t.rd SEC_STATE.SC_STATE = 0 ∧ SameBut (.boot :: eventParts) s t))) ∧
    (∀ ok, s.rd SEC_STATE.SC_STATE ≠ 0 ∨ s.boot.scFailed = true ∨ s.fuses.lifecycle = 4 →
      exec (.bootSecFwLoad ⟨ok, v⟩ dig fl) s = .next s)) ∧
  (∀ (s : State) (i : FwImage) (v : BitVec 16) (dig : BitVec 384), s.Awake → s.scRunning = true → s.fwSettled i = false →
    (s.fuses.minVersion.getD (fwPlace i) 0 ≤ v.toNat → Answers (.fwImageVerify i true v dig) s (fun t =>
      t.boot.measure = s.boot.measure.set (fwPlace i) dig ∧ t.fwSettled i = true ∧ SameBut [.regs, .boot] s t)) ∧
    (∀ ok, ok = false ∨ v.toNat < s.fuses.minVersion.getD (fwPlace i) 0 →
      Answers (.fwImageVerify i ok v dig) s (fun t => (s.underTest srcFwAuthFail = false → t.Raised srcFwAuthFail) ∧ t.fwSettled i = true
        ∧ t.rd MLMB_FW_STATE.PMC = s.rd MLMB_FW_STATE.PMC ∧ t.rd MLMB_FW_STATE.REGISTRAR = s.rd MLMB_FW_STATE.REGISTRAR
        ∧ t.rd MLMB_FW_STATE.PROCTOR = s.rd MLMB_FW_STATE.PROCTOR ∧ SameBut (.boot :: eventParts) s t))) ∧
  (∀ (s : State) (d : Fin 2), s.Awake → s.scRunning = true → (s.die d.val).powered = false → (s.die d.val).held = false →
    s.pwrEn d.val = true ∨ s.mayDrive d.val = true →
    Answers (.diePowerUp d true) s (fun t => (t.die d.val).powered = true ∧ (t.die d.val).filled = false
      ∧ bit t.pwr.linksUp (d.val + 1) = true ∧ (s.boot.cccVerified = true → ∀ i < 8, t.cccState (8 * d.val + i) = 1)
      ∧ t.pwrEn d.val = true ∧ SameBut [.regs, .pins, .boot, .dies, .pwr, .seats, .bridges] s t) ∧
    Answers (.diePowerUp d false) s (fun t => (t.die d.val).powered = false
      ∧ (t.die d.val).held = true ∧ t.pwrEn d.val = false ∧ t.on (FCU_SRC_STATE.ASSERTING (srcCdAuthFail d.val)) = true ∧ SameBut (.dies :: eventParts) s t)) ∧
  (∀ (s : State) (d : Fin 2) (v : Bool), s.pwrEn d.val = false → s.boot.fcuPassed = false ∨ s.pmcRunning = false ∨ (s.die d.val).held = true
      ∨ bit s.pwr.gatedPower d.val = true ∨ (∃ t, (s.die d.val).offAt = some t ∧ s.passed t 10000000 = false) →
    exec (.diePowerUp d v) s = .next s) ∧
  (∀ (s : State) (d : Fin 2), s.Awake → s.pwrEn d.val = true → (s.die d.val).powered = false → s.passed (s.die d.val).enAt 5000000 = true →
    Answers (.diePowerTimeout d) s (fun t => (t.die d.val).held = true ∧ t.pwrEn d.val = false ∧ t.on (FCU_SRC_STATE.ASSERTING (srcDieLinkDownH d.val)) = true
      ∧ SameBut (.dies :: eventParts) s t)) ∧
  (∀ (s : State) (d : Fin 2), s.Awake → (s.die d.val).powered = true → (s.die d.val).filled = false →
    Answers (.zeroFillEnd d) s (fun t => (t.die d.val).filled = true
      ∧ (∀ i < 8, (t.cluster (8 * d.val + i)).march
          = ⟨[1, 2, 3, 4, 5, 6, 7, 8], 0, 0, 0, 31, bit s.boot.bootFlags 0, false, [], some (0, 0), true⟩)
      ∧ SameBut [.regs, .dies, .clusters] s t)) ∧
  (∀ (s : State) (nz : Bool), s.Awake → s.boot.dramTrained = false →
    Answers (.lpddr5xTrainingEnd ⟨true, nz⟩) s (fun t => t.boot.dramTrained = true ∧ t.boot.dramServing = true
      ∧ (∀ a, dramBase ≤ a → a < dramBase + s.rd WMARK_DRAM_CTRL.PRIOR_1M * 0x100000 → t.byte a = 0#8)
      ∧ (s.sec.tamperDram = false → MemBut dramBase (s.rd WMARK_DRAM_CTRL.PRIOR_1M * 0x100000) s t)
      ∧ (s.sec.tamperDram = true → s.sec.dramWipe = none → ∀ a, dramBase ≤ a → a < dramBase + s.dramLevel → t.byte a = 0#8)
      ∧ (s.sec.tamperDram = true → s.sec.dramWipe = none → nz = true → t.sec.dramShut = true ∧ t.on WMARK_DRAM_CTRL.WIPE_FAIL = true
          ∧ t.on (FCU_SRC_STATE.ASSERTING srcSlateWipeFail) = true)
      ∧ t.sec.tamperDram = false ∧ SameBut [.regs, .mem, .ecc, .pins, .boot, .fcu, .sec, .proc] s t) ∧
    Answers (.lpddr5xTrainingEnd ⟨false, nz⟩) s (fun t => t.on (FCU_SRC_STATE.ASSERTING srcDramTrainFail) = true ∧ t.boot = s.boot
      ∧ SameBut eventParts s t)) ∧
  (∀ s : State, s.Awake → (s.on APC_LLC_PART.LOCK = true → Answers .apcResetRelease s (fun t => t.boot.apcOut = true ∧ SameBut [.regs, .boot] s t)) ∧
    (s.on APC_LLC_PART.LOCK = false → exec .apcResetRelease s = .next s))

/-! ### Watermarks, wipes and the Security Core -/

/-- R114-R116, R289, R290: a level written while its register is not locked starts a wipe of the range between the old and the new level, which
applies only once the wipe has ended; a locked or too large level changes nothing; WIPE_REQ starts a wipe of the partition, and LOCK stays. R115,
R116, R290, R303: the end of a wipe has zeroed its range and nothing else, counts it, and puts the waiting level in force; a Slate that reads back
non-zero is shut and SLATE_WIPE_FAIL asserts. A tamper event raises its source and wipes both partitions. R115, R290, R302: the end of the last wipe
of a lifecycle transition moves the fuses and resets the device with cause LIFECYCLE. -/
def Obligations.WatermarksAndWipes : Prop :=
  (∀ (s : State) (w : Initiator) (d : Word), s.Awake → s.Reaches w .wmark_slate 0 0 true →
    (s.on WMARK_SLATE_CTRL.LOCK = false → bits d.toNat 8 0 ≤ 256 → bits d.toNat 8 0 ≠ s.rd WMARK_SLATE.LEVEL_64K → s.sec.slateWipe = none →
      Answers (.wmarkSlateLevelWrite w d) s (fun t => t.bus = .done
        ∧ t.sec.slateWipe = some (min (bits d.toNat 8 0) (s.rd WMARK_SLATE.LEVEL_64K) * 0x10000,
            max (bits d.toNat 8 0) (s.rd WMARK_SLATE.LEVEL_64K) * 0x10000)
        ∧ t.sec.slateLevel = some (bits d.toNat 8 0) ∧ t.slateLevel = s.slateLevel ∧ t.on WMARK_SLATE_CTRL.WIPE_BUSY = true
        ∧ SameBut [.bus, .regs, .sec] (s.through w .wmark_slate 0 0) t ∧ RegsBut [WMARK_SLATE_CTRL] s t)) ∧
    (s.on WMARK_SLATE_CTRL.LOCK = true ∨ 256 < bits d.toNat 8 0 ∨ (bits d.toNat 8 0 = s.rd WMARK_SLATE.LEVEL_64K ∧ s.sec.slateLevel = none) →
      exec (.wmarkSlateLevelWrite w d) s = .next { s.through w .wmark_slate 0 0 with bus := .done })) ∧
  (∀ (s : State) (w : Initiator) (d : Word), s.Awake → s.Reaches w .wmark_dram 0 0 true →
    (s.on WMARK_DRAM_CTRL.LOCK = false → bits d.toNat 13 0 ≤ 8192 → bits d.toNat 13 0 ≤ s.pins.fittedMiB →
      bits d.toNat 13 0 ≠ s.rd WMARK_DRAM.LEVEL_1M → s.sec.dramWipe = none →
      Answers (.wmarkDramLevelWrite w d) s (fun t => t.bus = .done
        ∧ t.sec.dramWipe = some (min (bits d.toNat 13 0) (s.rd WMARK_DRAM.LEVEL_1M) * 0x100000,
            max (bits d.toNat 13 0) (s.rd WMARK_DRAM.LEVEL_1M) * 0x100000)
        ∧ t.sec.dramLevel = some (bits d.toNat 13 0) ∧ t.dramLevel = s.dramLevel ∧ t.on WMARK_DRAM_CTRL.WIPE_BUSY = true
        ∧ SameBut [.bus, .regs, .sec] (s.through w .wmark_dram 0 0) t ∧ RegsBut [WMARK_DRAM_CTRL] s t)) ∧
    (s.on WMARK_DRAM_CTRL.LOCK = true ∨ 8192 < bits d.toNat 13 0 ∨ s.pins.fittedMiB < bits d.toNat 13 0
        ∨ (bits d.toNat 13 0 = s.rd WMARK_DRAM.LEVEL_1M ∧ s.sec.dramLevel = none) →
      exec (.wmarkDramLevelWrite w d) s = .next { s.through w .wmark_dram 0 0 with bus := .done })) ∧
  (∀ (s : State) (w : Initiator) (d : Word), s.Awake → s.Reaches w .wmark_slate_ctrl 0 0 true →
    ∀ c ∈ [Instr.slateWipeReq w d, .slateWmarkLock w d], Answers c s (fun t => t.bus = .done
      ∧ t.on WMARK_SLATE_CTRL.LOCK = (s.on WMARK_SLATE_CTRL.LOCK || bit d.toNat 0)
      ∧ (bit d.toNat 3 = true → s.sec.slateWipe = none → t.sec.slateWipe = some (0, s.slateLevel)
          ∧ t.on WMARK_SLATE_CTRL.WIPE_BUSY = true ∧ t.on WMARK_SLATE_CTRL.WIPE_REQ = true)
      ∧ (bit d.toNat 3 = false → t.sec = s.sec)
      ∧ SameBut [.bus, .regs, .sec] (s.through w .wmark_slate_ctrl 0 0) t ∧ RegsBut [WMARK_SLATE_CTRL] s t)) ∧
  (∀ (s : State) (w : Initiator) (d : Word), s.Awake → s.Reaches w .wmark_dram_ctrl 0 0 true →
    ∀ c ∈ [Instr.dramWipeReq w d, .dramWmarkLock w d], Answers c s (fun t => t.bus = .done
      ∧ t.on WMARK_DRAM_CTRL.LOCK = (s.on WMARK_DRAM_CTRL.LOCK || bit d.toNat 0)
      ∧ (bit d.toNat 3 = true → s.sec.dramWipe = none → t.sec.dramWipe = some (0, s.dramLevel)
          ∧ t.on WMARK_DRAM_CTRL.WIPE_BUSY = true ∧ t.on WMARK_DRAM_CTRL.WIPE_REQ = true)
      ∧ (bit d.toNat 3 = false → t.sec = s.sec)
      ∧ SameBut [.bus, .regs, .sec] (s.through w .wmark_dram_ctrl 0 0) t ∧ RegsBut [WMARK_DRAM_CTRL] s t)) ∧
  (∀ (s : State) (lo hi : Nat), s.Awake → s.sec.slateWipe = some (lo, hi) →
    s.sec.dramWipe.isSome = true ∨ (s.sec.pendingLife = none ∧ s.sec.pendingDebug = none ∧ s.sec.pendingFail = false) →
    Answers (.slateWipeEnd []) s (fun t => t.sec.slateWipe = none ∧ t.sec.slateLevel = none ∧ t.on WMARK_SLATE_CTRL.WIPE_BUSY = false
      ∧ t.rd WMARK_SLATE_CTRL.WIPE_COUNT = min (s.rd WMARK_SLATE_CTRL.WIPE_COUNT + 1) 65535
      ∧ t.rd WMARK_SLATE.LEVEL_64K = (match s.sec.slateLevel with | some v => v % 512 | none => s.rd WMARK_SLATE.LEVEL_64K)
      ∧ (∀ n < 16, ∀ a, slateAddr n lo ≤ a → a < slateAddr n hi → t.byte a = 0#8)
      ∧ (∀ a, (∀ n < 16, a < slateAddr n lo ∨ slateAddr n hi ≤ a) → t.byte a = s.byte a)
      ∧ SameBut [.regs, .mem, .ecc, .sec] s t ∧ RegsBut [WMARK_SLATE_CTRL, WMARK_SLATE] s t)
    ∧ (∀ n : Fin 16, (s.die (dieOf n.val)).powered = true → s.sec.slateShut.contains n.val = false →
      Answers (.slateWipeEnd [n]) s (fun t => t.sec.slateShut.contains n.val = true ∧ t.on WMARK_SLATE_CTRL.WIPE_FAIL = true
        ∧ t.on (FCU_SRC_STATE.ASSERTING srcSlateWipeFail) = true ∧ t.sec.slateWipe = none
        ∧ SameBut [.regs, .mem, .ecc, .sec, .fcu, .pins, .proc] s t))) ∧
  (∀ (s : State) (lo hi : Nat), s.Awake → s.sec.dramWipe = some (lo, hi) → s.boot.dramTrained = true →
    s.sec.slateWipe.isSome = true ∨ (s.sec.pendingLife = none ∧ s.sec.pendingDebug = none ∧ s.sec.pendingFail = false) →
    Answers (.dramWipeEnd false) s (fun t => t.sec.dramWipe = none ∧ t.sec.dramLevel = none ∧ t.sec.dramFull = false
      ∧ t.on WMARK_DRAM_CTRL.WIPE_BUSY = false
      ∧ t.rd WMARK_DRAM_CTRL.WIPE_COUNT = min (s.rd WMARK_DRAM_CTRL.WIPE_COUNT + 1) 65535
      ∧ (∀ a, t.byte a = (if dramBase + lo ≤ a ∧ a < dramBase + hi then 0#8 else s.byte a))
      ∧ SameBut [.regs, .mem, .ecc, .sec] s t ∧ RegsBut [WMARK_DRAM_CTRL, WMARK_DRAM] s t)
    ∧ Answers (.dramWipeEnd true) s (fun t => t.sec.dramShut = true ∧ t.on WMARK_DRAM_CTRL.WIPE_FAIL = true
        ∧ t.on (FCU_SRC_STATE.ASSERTING srcSlateWipeFail) = true ∧ SameBut [.regs, .mem, .ecc, .sec, .fcu, .pins, .proc] s t)) ∧
  (∀ (s : State) (k : TamperKind) (n : Nat), s.Awake → n = (match k with | .lid => srcTamperLid | .glitch => srcTamperGlitch) →
    Answers (.tamperEvent k) s (fun t => (s.underTest n = false → t.Raised n) ∧ t.sec.slateWipe.isSome = true
      ∧ t.on WMARK_SLATE_CTRL.WIPE_BUSY = true
      ∧ (s.boot.dramTrained = true → t.sec.dramWipe.isSome = true ∧ t.on WMARK_DRAM_CTRL.WIPE_BUSY = true)
      ∧ (s.boot.dramTrained = false → t.sec.tamperDram = true) ∧ SameBut (.sec :: eventParts) s t)) ∧
  (∀ (s : State) (r k : Nat × Nat), s.Awake → s.sec.slateWipe = some r → s.sec.dramWipe = none → s.sec.pendingLife = some k →
    Answers (.slateWipeEnd []) s (fun t => t.fuses = s.fuses.moved k.2 ∧ t.boot.inReset = true ∧ bit (t.rd AON_RESET_CAUSE.CAUSE) 4 = true
      ∧ t.pending = s.pending))

/-- R284-R286: a GO on a free SECMB channel has the header and payload of its request read through the owner's checks, and the request is taken; what
cannot be read is answered MS_BADARG, and while the Security Core restarts or has failed a GO is answered at once; a GO while BUSY leaves the channel as
it is, and ADDR without GO is stored. The Security Core's answer ends BUSY and shows its status. R286: a monitor call takes its core into the secure
world with the caller's request on its channel, and returns at once where the request is answered at once; the time-out takes the core out again,
returns MS_TIMEOUT and leaves the request. R347: the partner is authenticated by the answer MS_OK on channel 27. The model's choices: what that moment is
(log entry 31), that a GO whose request cannot be read yet has no effect and what a call returns whose header cannot be read (log entry 81), and that a
time-out which comes early has no effect (log entry 8). -/
def Obligations.SecureMailboxesServe : Prop :=
  (∀ (s x : State) (w : Initiator) (c : Fin 32) (d : Word) (a : Nat), s.Awake → s.Reaches w .secmb_ch_req c.val 0 true →
    x = s.through w .secmb_ch_req c.val 0 → a = bits d.toNat 47 5 * 32 →
    (bit d.toNat 63 = false → Answers (.secmbRequest w c d) s (fun t => t.bus = .done
      ∧ t.rd (SECMB_CH_REQ.ADDR c.val) = a % (SECMB_CH_REQ.ADDR c.val).span ∧ SameBut [.bus, .regs] x t
      ∧ RegsBut [SECMB_CH_REQ c.val] s t)) ∧
    (bit d.toNat 63 = true → s.on (SECMB_CH_RSP.BUSY c.val) = true ∨ x.requestWaits (x.ctx w) a = true →
      exec (.secmbRequest w c d) s = .next { x with bus := .done }) ∧
    (∀ v h b, bit d.toNat 63 = true → s.on (SECMB_CH_RSP.BUSY c.val) = false → x.requestWaits (x.ctx w) a = false →
      (x.wr (SECMB_CH_REQ.ADDR c.val) a).readRequest (x.ctx w) a = (v, h, b) →
      (h = none → Answers (.secmbRequest w c d) s (fun t => t.bus = .done ∧ t.on (SECMB_CH_RSP.DONE c.val) = true
        ∧ t.on (SECMB_CH_RSP.BUSY c.val) = false ∧ t.rd (SECMB_CH_RSP.STATUS c.val) = v.secAway.getD msBadarg ∧ SameBut [.bus, .regs] v t)) ∧
      (∀ h', h = some h' → b = none ∨ v.secAway.isSome = true → Answers (.secmbRequest w c d) s (fun t => t.bus = .done
        ∧ t.on (SECMB_CH_RSP.DONE c.val) = true ∧ t.on (SECMB_CH_RSP.BUSY c.val) = false
        ∧ t.rd (SECMB_CH_RSP.STATUS c.val) = v.secAway.getD msBadarg ∧ SameBut (.bus :: writeParts) v t)) ∧
      (∀ h' b', h = some h' → b = some b' → v.secAway = none → Answers (.secmbRequest w c d) s (fun t => t.bus = .done
        ∧ t.on (SECMB_CH_RSP.BUSY c.val) = true ∧ Table.find t.sec.chans c.val = some ⟨a, h', b', false⟩
        ∧ t.sec.serving = (match v.sec.serving with | some k => some k | none => some c.val) ∧ SameBut [.bus, .regs, .sec] v t)))) ∧
  (∀ (s : State) (c : Fin 32) (st : BitVec 16) (a : Word) (bs : List Byte) (q : SecReq), s.Awake → s.scRunning = true →
    s.sec.serving = some c.val → Table.find s.sec.chans c.val = some q →
    Answers (.secmbReply c st a bs) s (fun t => t.on (SECMB_CH_RSP.BUSY c.val) = false ∧ t.on (SECMB_CH_RSP.DONE c.val) = true
      ∧ (t.rd (SECMB_CH_RSP.STATUS c.val) = st.toNat ∨ (bs ≠ [] ∧ t.rd (SECMB_CH_RSP.STATUS c.val) = msBadarg))
      ∧ Table.find t.sec.chans c.val = none ∧ Table.find t.sec.calls c.val = none
      ∧ (c.val = 27 → st.toNat = msOk → s.boot.strapEn = true → s.pair.trained = true → t.sec.pairAuth = true)
      ∧ SameBut (.boot :: .sec :: writeParts) s t)) ∧
  (∀ (s v : State) (c : Fin 24) (a : PAddr) (h : Option (List Byte)) (b : Option (List Byte)), s.Awake → s.boot.apcOut = true →
    s.worldTag c.val = false → s.unitOn (2 + c.val / 8) = true → s.requestWaits (s.ctx ⟨.apc, c.val, 0⟩) a.toNat = false →
    s.readRequest (s.ctx ⟨.apc, c.val, 0⟩) a.toNat = (v, h, b) →
    (∀ h' b', h = some h' → b = some b' → v.on (SECMB_CH_RSP.BUSY c.val) = false → v.secAway = none →
      Answers (.monitorCall c a) s (fun t => t.worldTag c.val = true ∧ Table.find t.sec.calls c.val = some s.clock.up
        ∧ t.on (SECMB_CH_RSP.BUSY c.val) = true ∧ Table.find t.sec.chans c.val = some ⟨a.toNat, h', b', true⟩
        ∧ SameBut [.fresh, .regs, .sec] v t)) ∧
    (∀ h' b' st, h = some h' → b = some b' → v.on (SECMB_CH_RSP.BUSY c.val) = false → v.secAway = some st →
      Answers (.monitorCall c a) s (fun t => t.worldTag c.val = false ∧ Table.find t.sec.a0 c.val = some st
        ∧ t.on (SECMB_CH_RSP.BUSY c.val) = false ∧ SameBut (.fresh :: .sec :: writeParts) v t)) ∧
    (h = none → Answers (.monitorCall c a) s (fun t => t.worldTag c.val = false ∧ Table.find t.sec.a0 c.val = some msBadarg
      ∧ SameBut [.sec] v t))) ∧
  (∀ (s : State) (c : Fin 24) (n : Nat), s.Awake → Table.find s.sec.calls c.val = some n →
    (s.passed n 60000000 = true → Answers (.monitorTimeout c) s (fun t => t.worldTag c.val = false
      ∧ Table.find t.sec.a0 c.val = some msTimeout ∧ (∀ m, m ≠ c.val → t.worldTag m = s.worldTag m) ∧ t.sec.chans = s.sec.chans
      ∧ SameBut [.sec] s t)) ∧
    (s.passed n 60000000 = false → exec (.monitorTimeout c) s = .next s))

/-- R326: an event of the cycle in which the restart of processor `proc` began raises its source and joins that restart: nothing is counted, sealed
or notified again, and the next event begins the restart anew. -/
def JoinsRestart (s : State) (proc src : Nat) (t : State) : Prop :=
  (s.underTest src = false → t.Raised src) ∧ (∀ c, t.sameCycle proc c = false) ∧ t.sec.causes = s.sec.causes
    ∧ t.rd SEC_STATE.SC_STATE = s.rd SEC_STATE.SC_STATE ∧ t.rd MLMB_FW_RESTARTS.PMC = s.rd MLMB_FW_RESTARTS.PMC
    ∧ t.rd MLMB_FW_RESTARTS.REGISTRAR = s.rd MLMB_FW_RESTARTS.REGISTRAR ∧ t.reg64 MLMB_CCC_RESTARTS = s.reg64 MLMB_CCC_RESTARTS
    ∧ SameBut (.sec :: eventParts) s t

/-- R294-R296: a watchdog expiry or a lockstep difference of the Security Core, while its boot ROM runs too, raises its source, seals the partitions,
counts a restart, answers the channels and a lifecycle request (R322) and ends the monitor calls; one during a restart begins it again (R326). An image that measures as before restarts it, and any other wipes the partitions and
asserts SEC_REMEASURE. The watchdog and lockstep events of one cycle begin one restart (R326). That a cycle is one of the TIME clock, that the boot ROM
goes on where no first image was measured, and what is left of the lifecycle request are the model's choices (log entry 82), as are the answers to a
bad root certificate and to a certificate in DEVELOP (log entry 55). R297, R298, R301: a debug certificate. One that verifies, names the device and comes from an owner root in force sets the
normal-world enables it grants; secure-world enables wait for the wipe; any other leaves every enable as it was and raises DEBUG_AUTH_FAIL. R300-R302,
R304: the requests to the Security Core. CERT_CHAIN returns the chain from its offset, ATTEST the report and its signature, LIFECYCLE_SET starts the
wipes of a transition that its token allows and is otherwise denied, DEV_ROOT_ADD adds a root in DEVELOP only. -/
def Obligations.TheSecurityCoreServesAndRestarts : Prop :=
  (∀ s : State, s.Awake → ∀ p ∈ [(Instr.secWdtExpiry, srcSecWdt, 0), (.secLockstep, srcSecLockstep, 1)],
    (s.boot.scFailed = false → s.rd SEC_STATE.SC_STATE = 0 ∨ s.rd SEC_STATE.SC_STATE = 1 ∨ s.rd SEC_STATE.SC_STATE = 2 ∧ s.sameCycle 0 p.2.2 = false →
      Answers p.1 s (fun t => t.rd SEC_STATE.SC_STATE = 2 ∧ t.on SEC_STATE.SEALED = true
        ∧ t.rd SEC_STATE.RESTARTS = min (s.rd SEC_STATE.RESTARTS + 1) 65535 ∧ t.sec.pendingLife = none
        ∧ t.fuses = (if s.sec.pendingLife.isSome then { s.fuses with transition := none } else s.fuses)
        ∧ (s.underTest p.2.1 = false → t.Raised p.2.1)
        ∧ t.sec.calls = [] ∧ t.sec.pendingDebug = none ∧ (∀ c < 32, Table.find t.sec.chans c = none)
        ∧ t.sameCycle 0 (1 - p.2.2) = true ∧ SameBut (.fresh :: .fuses :: .sec :: replyParts) s t)) ∧
    (s.boot.scFailed = false → s.rd SEC_STATE.SC_STATE = 2 → s.sameCycle 0 p.2.2 = true → Answers p.1 s (JoinsRestart s 0 p.2.1))) ∧
  (∀ (s : State) (dig : BitVec 384), s.Awake → s.rd SEC_STATE.SC_STATE = 2 → s.sec.pendingFail = false →
    (s.boot.firstSecDigest = some dig → Answers (.secRestartEnd true dig) s (fun t => t.rd SEC_STATE.SC_STATE = 1
      ∧ t.on SEC_STATE.SEALED = false ∧ t.rd SEC_STATE.RESTARTS = s.rd SEC_STATE.RESTARTS
      ∧ SameBut (.boot :: replyParts) s t)) ∧
    (s.boot.firstSecDigest = none → Answers (.secRestartEnd true dig) s (fun t => t.rd SEC_STATE.SC_STATE = 0
      ∧ t.on SEC_STATE.SEALED = s.on SEC_STATE.SEALED ∧ SameBut replyParts s t)) ∧
    (∀ ok, ok = false ∨ (∃ d, s.boot.firstSecDigest = some d ∧ d ≠ dig) → Answers (.secRestartEnd ok dig) s (fun t => t.rd SEC_STATE.SC_STATE = 2
      ∧ t.sec.pendingFail = true ∧ t.sec.slateWipe.isSome = true ∧ t.on (FCU_SRC_STATE.ASSERTING srcSecRemeasure) = true
      ∧ SameBut (.sec :: eventParts) s t))) ∧
  (∀ (s : State) (r : SigRoot) (g : BitVec 4), s.Awake → s.scRunning = true → s.sec.serving = some 28 → s.sec.pendingDebug = none →
    (s.ownerRoot r = true → s.fuses.lifecycle = 1 ∨ s.fuses.lifecycle = 2 → g.toNat < 4 →
      Answers (.debugCertificate true true r g) s (fun t => t.on SEC_STATE.DBG_NS_NONINV = (s.on SEC_STATE.DBG_NS_NONINV || bit g.toNat 0)
        ∧ t.on SEC_STATE.DBG_NS_INV = (s.on SEC_STATE.DBG_NS_INV || bit g.toNat 1) ∧ t.on SEC_STATE.DBG_S_INV = s.on SEC_STATE.DBG_S_INV
        ∧ SameBut (.sec :: writeParts) s t)) ∧
    (s.ownerRoot r = true → s.fuses.lifecycle = 1 → 4 ≤ g.toNat →
      Answers (.debugCertificate true true r g) s (fun t => t.sec.pendingDebug = some g.toNat ∧ t.sec.slateWipe.isSome = true
        ∧ t.on SEC_STATE.DBG_S_INV = s.on SEC_STATE.DBG_S_INV ∧ t.on SEC_STATE.DBG_NS_INV = s.on SEC_STATE.DBG_NS_INV
        ∧ SameBut [.regs, .sec] s t)) ∧
    (∀ ok nm, ok = false ∨ nm = false ∨ (s.fuses.lifecycle ≠ 0 ∧ s.fuses.lifecycle ≠ 3 ∧ s.ownerRoot r = false)
        ∨ (s.fuses.lifecycle = 2 ∧ 4 ≤ g.toNat) →
      Answers (.debugCertificate ok nm r g) s (fun t => (s.underTest srcDebugAuthFail = false → t.Raised srcDebugAuthFail)
        ∧ (∀ f ∈ [SEC_STATE.DBG_NS_NONINV, SEC_STATE.DBG_NS_INV, SEC_STATE.DBG_S_NONINV, SEC_STATE.DBG_S_INV], t.on f = s.on f)
        ∧ SameBut (.sec :: writeParts) s t)) ∧
    (s.fuses.lifecycle = 0 ∨ s.fuses.lifecycle = 3 → Answers (.debugCertificate true true r g) s (fun t =>
      (∀ f ∈ [SEC_STATE.DBG_NS_NONINV, SEC_STATE.DBG_NS_INV, SEC_STATE.DBG_S_NONINV, SEC_STATE.DBG_S_INV], t.on f = s.on f)
        ∧ SameBut (.sec :: writeParts) s t))) ∧
  (∀ (s u : State) (mb : Fin 68) (r : Req) (bs : List Byte), s.Due mb.val 0x0200 r u bs →
    Replies (.certChain mb) s mb.val r msOk u.chainLength
      ((List.range (min 4096 (u.chainLength - hArg r.header))).map (fun i => u.chainAt (hArg r.header + i))) u) ∧
  (∀ (s u : State) (mb : Fin 68) (r : Req) (bs : List Byte), s.Due mb.val 0x0201 r u bs →
    Replies (.attest mb) s mb.val r msOk 0 (u.reportBody (hSlice r.header) (hArg r.header) bs
      ++ (List.range 96).map (Config.aliasSign (Table.get u.boot.cdi 0 0) (u.reportBody (hSlice r.header) (hArg r.header) bs) u.fresh))
      { u with fresh := u.fresh + 1 }) ∧
  (∀ (s u : State) (mb : Fin 68) (r : Req) (bs : List Byte) (k : LifecycleToken), s.Due mb.val 0x0202 r u bs →
    (u.sec.pendingLife = none → u.tokenOk k = true → Answers (.lifecycleSet mb k) s (fun t =>
      t.sec.pendingLife = some (mb.val, k.target.val) ∧ t.fuses = { u.fuses with transition := some k.target.val }
      ∧ t.sec.slateWipe.isSome = true ∧ SameBut [.regs, .fuses, .sec] u t)) ∧
    (u.sec.pendingLife.isSome = true ∨ u.tokenOk k = false → Replies (.lifecycleSet mb k) s mb.val r msDenied 0 [] u)) ∧
  (∀ (s u : State) (mb : Fin 68) (r : Req) (bs : List Byte), s.Due mb.val 0x0203 r u bs →
    (u.fuses.lifecycle = 1 → Replies (.devRootAdd mb true) s mb.val r msOk 0 [] { u with boot := { u.boot with devRoots := u.boot.devRoots + 1 } }) ∧
    (u.fuses.lifecycle = 1 → Replies (.devRootAdd mb false) s mb.val r msBadarg 0 [] u) ∧
    (∀ ok, u.fuses.lifecycle ≠ 1 → Replies (.devRootAdd mb ok) s mb.val r msDenied 0 [] u))

/-! ### Slices -/

/-- R327, R329: SLICE_CONFIG. A slice that holds work is refused with MS_BUSY; a payload whose fields, identity, Seats, Slate shares or LPDDR5X range
do not fit with MS_BADARG, and one whose sums do not with MS_NOFIT; otherwise the slice has its configuration and owns its Seats. R331, R332: ATTACH
gives an idle slice a token other than 0 and attaches the host; a slice in grace is reclaimed with its old token, or ended and attached anew; a wrong
token and an unconfigured slice get MS_DENIED, an attached slice MS_BUSY. HEARTBEAT is answered MS_OK and does nothing further. R330, R332-R335:
SLICE_RESET, DETACH and the loss of the heartbeat, after HEARTBEAT_MS without a request, start the sequence of R333, which aborts every job of the
slice that has not ended and keeps the reply; at DRAIN_MS the sequence ends, in grace after a detach; while the Registrar restarts, the sequence waits
for it. GRACE_S later the slice is configured and not attached, and its Roster entries are free. Each strict window renews the quota use. What ATTACH answers
while the Security Core is away is the model's choice (log entry 56). -/
def Obligations.SlicesAreConfiguredAttachedAndEnded : Prop :=
  (∀ (s u : State) (mb : Fin 68) (r : Req) (bs : List Byte) (i : Nat) (x : Slice), s.Due mb.val 0x0006 r u bs →
    i = hSlice r.header → x = sliceOfPayload bs →
    (u.sliceBusy i = true → Replies (.sliceConfig mb) s mb.val r msBusy 0 [] u) ∧
    (u.sliceBusy i = false → 2 < x.kind → Replies (.sliceConfig mb) s mb.val r msBadarg 0 [] u) ∧
    (u.sliceBusy i = false → x.kind = 2 → ∃ v, Replies (.sliceConfig mb) s mb.val r msOk 0 [] v ∧ v.slice i = Slice.zero
      ∧ (∀ k, k ≠ i → v.slice k = u.slice k) ∧ (∀ g ∈ (u.slice i).seats, v.seatSlice g = none) ∧ SameBut [.regs, .seats, .slices] u v) ∧
    (u.sliceBusy i = false → x.kind < 2 → sliceFieldsOk bs x = true → u.identTaken i x = false → u.seatsClash i x = false →
      u.slateClash i x = false → u.dramClash i x = false →
      (u.quotasFit i x = true → ∃ v, Replies (.sliceConfig mb) s mb.val r msOk 0 [] v ∧ v.slice i = x
        ∧ (∀ k, k ≠ i → v.slice k = u.slice k) ∧ (∀ g ∈ x.seats, v.seatSlice g = some (i % 64))
        ∧ (∀ g ∈ (u.slice i).seats, g ∉ x.seats → v.seatSlice g = none) ∧ SameBut [.regs, .seats, .slices] u v) ∧
      (u.quotasFit i x = false → Replies (.sliceConfig mb) s mb.val r msNofit 0 [] u)) ∧
    (u.sliceBusy i = false → x.kind < 2 → sliceFieldsOk bs x = false ∨ u.identTaken i x = true ∨ u.seatsClash i x = true
        ∨ u.slateClash i x = true ∨ u.dramClash i x = true →
      Replies (.sliceConfig mb) s mb.val r msBadarg 0 [] u)) ∧
  (∀ (s u : State) (mb : Fin 68) (r : Req) (bs : List Byte) (i : Nat), s.Due mb.val 0x0004 r u bs → i = hSlice r.header →
    ((u.slice i).kind = 2 → Replies (.attach mb) s mb.val r msDenied 0 [] u) ∧
    ((u.slice i).kind ≠ 2 → r.met = true ∨ (u.slice i).running = true ∨ (u.slice i).phase = 1 → Replies (.attach mb) s mb.val r msBusy 0 [] u) ∧
    ((u.slice i).kind ≠ 2 → r.met = false → (u.slice i).running = false → (u.slice i).phase = 0 → hArg r.header = 0 →
      (u.rd SEC_STATE.SC_STATE = 1 → ∃ v n, Replies (.attach mb) s mb.val r msOk n [] v ∧ 0 < n ∧ n < 2 ^ 64 ∧ (v.slice i).phase = 1
        ∧ (v.slice i).token = BitVec.ofNat 64 n ∧ (v.slice i).lastBeat = u.clock.up ∧ (∀ k, k ≠ i → v.slice k = u.slice k)
        ∧ SameBut [.fresh, .slices] u v) ∧
      (u.rd SEC_STATE.SC_STATE = 3 → Replies (.attach mb) s mb.val r msFault 0 [] u) ∧
      (u.rd SEC_STATE.SC_STATE = 2 → Replies (.attach mb) s mb.val r msRestarting 0 [] u)) ∧
    ((u.slice i).kind ≠ 2 → r.met = false → (u.slice i).running = false → (u.slice i).phase = 2 →
      (hArg r.header = (u.slice i).token.toNat → Replies (.attach mb) s mb.val r msOk (hArg r.header) []
        (u.setSlice i { u.slice i with phase := 1, lastBeat := u.clock.up })) ∧
      (hArg r.header = 0 → (u.slice i).token ≠ 0#64 → (u.graceEnd i).rd SEC_STATE.SC_STATE = 1 →
        ∃ v n, Replies (.attach mb) s mb.val r msOk n [] v ∧ 0 < n ∧ n < 2 ^ 64 ∧ (v.slice i).phase = 1
          ∧ (v.slice i).token = BitVec.ofNat 64 n ∧ (v.slice i).lastBeat = (u.graceEnd i).clock.up
          ∧ SameBut [.fresh, .slices] (u.graceEnd i) v)) ∧
    ((u.slice i).kind ≠ 2 → r.met = false → (u.slice i).running = false → (u.slice i).phase = 2 → hArg r.header ≠ 0 →
      hArg r.header ≠ (u.slice i).token.toNat → Replies (.attach mb) s mb.val r msDenied 0 [] u) ∧
    ((u.slice i).kind ≠ 2 → r.met = false → (u.slice i).running = false → (u.slice i).phase = 0 → hArg r.header ≠ 0 →
      Replies (.attach mb) s mb.val r msDenied 0 [] u)) ∧
  (∀ (s u : State) (mb : Fin 68) (r : Req) (bs : List Byte), s.Due mb.val 0x0002 r u bs →
    Replies (.heartbeat mb) s mb.val r msOk 0 [] u) ∧
  (∀ (s u : State) (mb : Fin 68) (r : Req) (bs : List Byte) (i : Nat), i = hSlice r.header →
    (s.Due mb.val 0x0005 r u bs → (u.slice i).kind = 2 → Replies (.sliceReset mb) s mb.val r msOk 0 [] u) ∧
    (s.Due mb.val 0x0005 r u bs → (u.slice i).kind ≠ 2 → (u.slice i).phase = 2 → (u.slice i).running = false →
      Replies (.sliceReset mb) s mb.val r msOk 0 [] (u.graceEnd i)) ∧
    (∀ p ∈ [(Instr.sliceReset mb, 0x0005, true), (.detach mb, 0x0003, false)], s.Due mb.val p.2.1 r u bs →
      (p.2.2 = true → (u.slice i).kind ≠ 2 ∧ ((u.slice i).phase ≠ 2 ∨ (u.slice i).running = true)) →
      Answers p.1 s (fun t => (t.slice i).running = true ∧ (t.slice i).runReset = ((u.slice i).runReset || p.2.2)
        ∧ (t.slice i).runDetach = ((u.slice i).runDetach || !p.2.2)
        ∧ (t.slice i).runReplies = (u.slice i).runReplies ++ [(mb.val, r.header)]
        ∧ (∀ k, k ≠ i → (t.slice k).plain = (u.slice k).plain)
        ∧ (∀ k j, u.job? k = some j → j.slice = i → j.state < 4 → ∃ j', t.job? k = some j' ∧ j'.state = 6 ∧ j'.status = msAborted
            ∧ (p.2.2 = false → j'.discard = true))
        ∧ (∀ k j, u.job? k = some j → (∀ q ∈ u.jobs, q.1 = k → q.2.slice ≠ i) → t.job? k = some j)
        ∧ SameBut (.seats :: .cores :: .clusters :: .lessons :: .jobs :: .roster :: .reg :: .rast :: replyParts) u t))) ∧
  (∀ (s : State) (i : Fin 64), s.Awake →
    (s.regRunning = true → (s.slice i.val).phase = 1 → s.passed (s.slice i.val).lastBeat ((s.slice i.val).heartbeatMs * 1000000) = true →
      Answers (.hostHeartbeatLost i) s (fun t => (s.underTest srcHeartbeatLost = false → t.Raised srcHeartbeatLost)
        ∧ (t.slice i.val).running = true ∧ (t.slice i.val).runDetach = true
        ∧ (∀ k j, s.job? k = some j → j.slice = i.val → j.state < 4 → ∃ j', t.job? k = some j' ∧ j'.state = 6 ∧ j'.discard = true)
        ∧ SameBut (.seats :: .cores :: .clusters :: .lessons :: .jobs :: .roster :: .reg :: .rast :: replyParts) s t)) ∧
    ((s.slice i.val).running = true → s.passed (s.slice i.val).runAt ((s.slice i.val).drainMs * 1000000) = true →
      (s.regRunning = false → Answers (.sliceDrainEnd i) s (fun t => (t.slice i.val).drained = true
        ∧ (t.slice i.val).running = true ∧ SameBut [.bus, .regs, .ecc, .pins, .fcu, .seats, .slices, .bridges, .proc] s t)) ∧
      (s.regRunning = true → Answers (.sliceDrainEnd i) s (fun t => (t.slice i.val).running = false
        ∧ (t.slice i.val).phase = (if (s.slice i.val).runDetach = true ∧ (s.slice i.val).phase = 1 then 2 else (s.slice i.val).phase)
        ∧ (t.slice i.val).runReplies = []
        ∧ (t.on (MLMB_MB_STATUS.NEGOTIATED i.val) = false
          ∨ (s.slice i.val).runReplies.any (fun p => p.1 = i.val && hOp p.2 = 0x0003) = true ∧ (t.mb i.val).held ≠ [])))) ∧
    (s.regRunning = true → (s.slice i.val).phase = 2 → (s.slice i.val).running = false →
      s.passed (s.slice i.val).graceAt ((s.slice i.val).graceS * 1000000000) = true →
      Answers (.sliceGraceEnd i) s (fun t => (t.slice i.val).phase = 0 ∧ (t.slice i.val).token = 0#64
        ∧ (∀ p ∈ t.roster, p.2.slice ≠ i.val) ∧ t.on (MLMB_MB_STATUS.NEGOTIATED i.val) = false))) ∧
  (∀ s : State, s.Awake → Answers .strictQuotaWindow s (fun t => SameBut [.slices] s t
    ∧ ∀ i x, Table.find s.slices i = some x → (x.strict = true → t.slice i = { x with dramUsed := 0, linkUsed := [] })
        ∧ (x.strict = false → (∀ p ∈ s.slices, p.1 = i → p.2.strict = false) → t.slice i = x)))

/-! ### Mladnel -/

/-- R312-R314, R319, R321, R322, R332, R335, R419: the MLMB block takes the oldest request, consumes its entry and expects the next SEQ; one that
passes the checks waits for its server, or is answered, after the earlier ones to it (R314), where the server is away; one that fails a check is
answered at once. LESSON_LOADs are
taken from the mailboxes in turn and noted in their order (R151). HELLO negotiates version 0x300 and the features offered, and one with a malformed header is
answered MS_BADARG (R318). EVENTS_LOST reports what
was dropped. A read of the status clears EVENTS_DROPPED. -/
def Obligations.MailboxesTakeRequests : Prop :=
  (∀ (s u : State) (mb : Fin 68) (h : List Byte), s.Awake → (s.queue (reqQueue mb.val)).occupancy ≠ 0 → s.repRoom mb.val = true →
    s.qReadWaits (reqQueue mb.val) (s.queue (reqQueue mb.val)).cons = false → s.loadTurn mb.val = true →
    s.qRead (reqQueue mb.val) (s.queue (reqQueue mb.val)).cons = (u, some h) →
    (u.mlmbCheck mb.val h = none → u.serverAway (hOp h) = none → Answers (.mlmbRequestTake mb) s (fun t =>
      (t.mb mb.val).taken = (s.mb mb.val).taken ++ [⟨h, (s.mb mb.val).popSender.1, s.rd (MLMB_MB_FEATURES.FEATURES mb.val),
        decide (mb.val < 64) && (s.slice mb.val).running⟩]
      ∧ t.rd (MLMB_MB_STATUS.EXPECT_SEQ mb.val) = (hSeq h + 1) % 65536
      ∧ (t.queue (reqQueue mb.val)).cons = ((s.queue (reqQueue mb.val)).cons + 1) % 2 ^ 32
      ∧ (mb.val < 64 → (s.slice mb.val).phase = 1 → (t.slice mb.val).lastBeat = s.clock.up)
      ∧ t.reg.arrivals = (if hOp h = 0x0010 then s.reg.arrivals ++ [mb.val] else s.reg.arrivals)
      ∧ SameBut [.regs, .reg, .queues, .mbox, .slices] u t)) ∧
    (∀ st, u.mlmbCheck mb.val h = none → u.serverAway (hOp h) = some st →
      (u.answersLater mb.val (hOp h / 256) = true → Answers (.mlmbRequestTake mb) s (fun t =>
        (t.mb mb.val).taken = (s.mb mb.val).taken ++ [⟨h, (s.mb mb.val).popSender.1, s.rd (MLMB_MB_FEATURES.FEATURES mb.val),
          decide (mb.val < 64) && (s.slice mb.val).running⟩]
        ∧ t.rd (MLMB_MB_STATUS.EXPECT_SEQ mb.val) = (hSeq h + 1) % 65536 ∧ SameBut [.regs, .reg, .queues, .mbox, .slices] u t)) ∧
      (u.answersLater mb.val (hOp h / 256) = false → ∃ v,
        exec (.mlmbRequestTake mb) s = .next (v.sendReply mb.val (replyHeader h st 0 0))
        ∧ (v.mb mb.val).taken = (s.mb mb.val).taken.filter (fun q => hOp q.header / 256 ≠ hOp h / 256)
        ∧ ((∀ q ∈ (s.mb mb.val).taken, hOp q.header / 256 ≠ hOp h / 256) →
            v.rd (MLMB_MB_STATUS.EXPECT_SEQ mb.val) = (hSeq h + 1) % 65536 ∧ SameBut [.regs, .queues, .mbox, .slices] u v)
        ∧ SameBut replyParts u v)) ∧
    (∀ st arg err, u.mlmbCheck mb.val h = some (st, arg, err) → ∃ v,
      exec (.mlmbRequestTake mb) s = .next (v.sendReply mb.val (replyHeader h st 0 arg)) ∧ (v.mb mb.val).taken = (s.mb mb.val).taken
      ∧ v.rd (MLMB_MB_STATUS.EXPECT_SEQ mb.val) = (hSeq h + 1) % 65536 ∧ (err = true → s.underTest srcMlmbProtocol = false →
          v.Raised srcMlmbProtocol)
      ∧ SameBut (.queues :: .mbox :: .slices :: eventParts) u v)) ∧
  (∀ (s u : State) (mb : Fin 68) (r : Req) (bs : List Byte), s.Due mb.val 0x0001 r u bs →
    (bs.length = 16 → leAt bs 4 4 = 0 → leAt bs 0 2 ≤ 0x300 → 0x300 ≤ leAt bs 2 2 → Answers (.hello mb) s (fun t =>
      t.rd (MLMB_MB_STATUS.VERSION mb.val) = 0x300 ∧ t.on (MLMB_MB_STATUS.NEGOTIATED mb.val) = true
      ∧ t.rd (MLMB_MB_FEATURES.FEATURES mb.val) = leAt bs 8 8 &&& offered mb.val
      ∧ (∀ k, k ≠ mb.val → k < 68 → t.rd (MLMB_MB_FEATURES.FEATURES k) = u.rd (MLMB_MB_FEATURES.FEATURES k)
          ∧ t.rd (MLMB_MB_STATUS.NEGOTIATED k) = u.rd (MLMB_MB_STATUS.NEGOTIATED k)))) ∧
    (bs.length ≠ 16 ∨ leAt bs 4 4 ≠ 0 → exec (.hello mb) s
      = .next ((u.reply mb.val (s.ctx r.who) r.header msBadarg 0 []).reportBoot mb.val)) ∧
    (bs.length = 16 → leAt bs 4 4 = 0 → 0x300 < leAt bs 0 2 ∨ leAt bs 2 2 < 0x300 → exec (.hello mb) s
      = .next ((u.reply mb.val (s.ctx r.who) r.header msVersion 0 []).reportBoot mb.val))) ∧
  (∀ (s : State) (mb : Fin 68) (r : Req) (rest : List Req), s.Awake → s.serverUp 1 = true → takeFor 1 [] (s.mb mb.val).taken = some (r, rest) →
    s.standsBehind mb.val 1 r = false → headerOk mb.val r.header helloInfo = false →
    exec (.hello mb) s = .next (((s.setMb mb.val { s.mb mb.val with taken := rest }).sendReply mb.val
      (replyHeader r.header msBadarg 0 0)).reportBoot mb.val)) ∧
  (∀ (s : State) (mb : Fin 68), s.Awake → (s.mb mb.val).lostPending = true → s.repRoom mb.val = true →
    ∃ v, exec (.eventsLost mb) s = .next (v.sendEvent mb.val 0x8003 (s.mb mb.val).lost) ∧ (v.mb mb.val).lost = 0
      ∧ (v.mb mb.val).lostPending = false ∧ SameBut [.mbox] s v) ∧
  (∀ (s : State) (w : Initiator) (mb : Fin 68), s.Awake → s.Reaches w .mlmb_mb_status mb.val 0 false →
    Answers (.mlmbStatusRead w mb) s (fun t => t.bus = .data (s.reg64 (MLMB_MB_STATUS mb.val)) ∧ SameBut [.bus, .regs] (s.asked w .mlmb_mb_status mb.val 0) t
      ∧ RegsBut [MLMB_MB_STATUS mb.val] s t ∧ t.rd (MLMB_MB_STATUS.EVENTS_DROPPED mb.val) = 0
      ∧ t.rd (MLMB_MB_STATUS.EXPECT_SEQ mb.val) = s.rd (MLMB_MB_STATUS.EXPECT_SEQ mb.val)))

/-- R275, R292, R316, R386: the requests to Proctor's fault service and to the PMC. FAULT_ACK and FAULT_CLEAR act on the sources named and the second
counts those that still assert; OPP_LIMIT only lowers a ceiling; POWER_GATE gates and ungates a unit and refuses the normal world one that
the Security Core holds; a compute die without its clock fails its jobs with MS_RESTARTING (R21). -/
def Obligations.FaultAndPowerRequests : Prop :=
  (∀ (s u : State) (mb : Fin 68) (r : Req) (bs : List Byte),
    (s.Due mb.val 0x0302 r u bs →
      (faultSources (hArg r.header) bs = none → Replies (.faultAck mb) s mb.val r msBadarg 0 [] u) ∧
      (∀ l, faultSources (hArg r.header) bs = some l → ∃ v, Replies (.faultAck mb) s mb.val r msOk 0 [] v
        ∧ (∀ n < 512, v.on (ackRef n) = (u.on (ackRef n) || (l.contains n && u.on (stickyRef n))))
        ∧ SameBut [.regs] u v ∧ RegsBut ((List.range 8).map FCU_SRC_ACK) u v)) ∧
    (s.Due mb.val 0x0303 r u bs →
      (faultSources (hArg r.header) bs = none → Replies (.faultClear mb) s mb.val r msBadarg 0 [] u) ∧
      (∀ l, faultSources (hArg r.header) bs = some l → ∃ v, Replies (.faultClear mb) s mb.val r msOk
          (l.filter (fun n => u.on (FCU_SRC_STATE.ASSERTING n))).length [] v
        ∧ (∀ n ∈ l, u.on (FCU_SRC_STATE.ASSERTING n) = false → v.on (stickyRef n) = false ∧ v.on (ackRef n) = false)
        ∧ (∀ n < 512, n ∉ l ∨ u.on (FCU_SRC_STATE.ASSERTING n) = true → v.on (stickyRef n) = u.on (stickyRef n)
            ∧ v.on (ackRef n) = u.on (ackRef n))
        ∧ SameBut [.regs, .fcu] u v))) ∧
  (∀ (s u : State) (mb : Fin 68) (r : Req) (bs : List Byte) (a : Nat), a = hArg r.header →
    (s.Due mb.val 0x0101 r u bs →
      (bits a 7 1 = 0 → a < 4096 → bits a 11 8 ≤ 4 → ∃ v, Replies (.oppLimit mb) s mb.val r msOk 0 [] v
        ∧ v.rd (PMC_LIMIT_CD.OPP_MAX (a % 2)) = min (bits a 11 8) (u.rd (PMC_LIMIT_CD.OPP_MAX (a % 2)))
        ∧ v.rd (PMC_OPP_CD.TARGET (a % 2)) = min (u.rd (PMC_OPP_CD.TARGET (a % 2))) (v.rd (PMC_LIMIT_CD.OPP_MAX (a % 2)))
        ∧ SameBut [.regs, .dies] u v ∧ RegsBut [PMC_LIMIT_CD (a % 2), PMC_OPP_CD (a % 2)] u v) ∧
      (bits a 7 1 ≠ 0 ∨ 4096 ≤ a ∨ 4 < bits a 11 8 → Replies (.oppLimit mb) s mb.val r msBadarg 0 [] u)) ∧
    (s.Due mb.val 0x0100 r u bs →
      (bits a 7 4 ≠ 0 ∨ 1024 ≤ a ∨ bits a 3 0 = 15 → Replies (.powerGate mb) s mb.val r msBadarg 0 [] u) ∧
      (bits a 7 4 = 0 → a < 1024 → bits a 3 0 ≠ 15 →
        (bit a 9 = false → ∃ v, Replies (.powerGate mb) s mb.val r msOk 0 [] v
          ∧ v.pwr.gatedPower = (if bit a 8 then clearBit u.pwr.gatedPower (bits a 3 0) else u.pwr.gatedPower)
          ∧ v.pwr.gatedClock = (if bit a 8 then u.pwr.gatedClock else clearBit u.pwr.gatedClock (bits a 3 0)) ∧ SameBut [.pwr] u v) ∧
        (bit a 9 = true → u.unitHeld (bits a 3 0) = true → u.isSecure r.who = false →
          ∃ v, Replies (.powerGate mb) s mb.val r msDeniedHold 0 [] v ∧ v.pwr = u.pwr
            ∧ (u.underTest srcSecHoldDenied = false → v.Raised srcSecHoldDenied)
            ∧ v.on PMC_HOLD_LOG.VALID = true ∧ SameBut eventParts u v) ∧
        (bit a 9 = true → u.unitHeld (bits a 3 0) = false ∨ u.isSecure r.who = true → ∃ v, Replies (.powerGate mb) s mb.val r msOk 0 [] v
          ∧ bit (if bit a 8 then v.pwr.gatedPower else v.pwr.gatedClock) (bits a 3 0) = true
          ∧ (bit a 8 = true → bits a 3 0 ≤ 1 → (u.die (bits a 3 0)).powered = true → (v.die (bits a 3 0)).powered = false
              ∧ (v.die (bits a 3 0)).held = false)
          ∧ (bit a 8 = false → bits a 3 0 ≤ 1 → SameBut [.regs, .pwr, .seats, .cores, .lessons, .jobs] u v
              ∧ ∀ k j, u.job? k = some j → j.fb = none → j.origStopped = false → j.state < 4 → (u.die (bits a 3 0)).powered = true →
                  (∃ x ∈ j.seats, dieOf (clusterOf x.1) = bits a 3 0) → ∃ j', v.job? k = some j' ∧ j'.state = 7 ∧ j'.status = msRestarting)
          ∧ (2 ≤ bits a 3 0 → SameBut [.pwr] u v)))))

/-! ### Firmware restarts -/

/-- R234, R322, R326: a watchdog expiry or a lockstep mismatch restarts the PMC, the Registrar or a CCC alone, raises its source and counts one restart,
which an event of the other kind in the same cycle joins; a CCC's jobs fail with MS_RESTARTING. Proctor is held instead. R307, R308: the end of a restart depends on the private SRAM: a good
instruction region and a persistent copy that verifies let the processor run, no good copy leaves it FAILED, and a bad instruction word raises
FW_SRAM_UE and waits for the reload of the image by a running Security Core, which measures it, and whose failure (a bad signature, or an older version
than the processor's minimum) raises FW_AUTH_FAIL. R323-R325: the Registrar pays the
replies that it owes; a CCC waits for a running Registrar and for what holds its content. That a command which is not enabled leaves the state as it was is the model's choice (log
entry 2), and so is that a cycle is one of the TIME clock (log entry 82). -/
def Obligations.FirmwareProcessorsRestart : Prop :=
  (∀ s : State, s.Awake → ∀ p ∈ [(Instr.fwWatchdogExpiry .pmc, srcPmcWdt, 0), (.fwLockstepMismatch .pmc, srcPmcLockstep, 1)],
    (s.rd MLMB_FW_STATE.PMC = 1 ∨ s.rd MLMB_FW_STATE.PMC = 2 ∧ s.sameCycle 1 p.2.2 = false →
      Answers p.1 s (fun t => t.rd MLMB_FW_STATE.PMC = 2 ∧ t.rd MLMB_FW_RESTARTS.PMC = min (s.rd MLMB_FW_RESTARTS.PMC + 1) 65535
        ∧ t.rd MLMB_FW_STATE.REGISTRAR = s.rd MLMB_FW_STATE.REGISTRAR ∧ (s.underTest p.2.1 = false → t.Raised p.2.1)
        ∧ t.sameCycle 1 (1 - p.2.2) = true ∧ (∀ i < 68, ∀ r ∈ (t.mb i).taken, hOp r.header / 256 ≠ 1)
        ∧ SameBut (.fresh :: .sec :: replyParts) s t)) ∧
    (s.rd MLMB_FW_STATE.PMC = 2 → s.sameCycle 1 p.2.2 = true → Answers p.1 s (JoinsRestart s 1 p.2.1))) ∧
  (∀ s : State, s.Awake → ∀ p ∈ [(Instr.fwWatchdogExpiry .registrar, srcRegWdt, 0), (.fwLockstepMismatch .registrar, srcRegLockstep, 1)],
    (s.rd MLMB_FW_STATE.REGISTRAR = 1 →
      Answers p.1 s (fun t => t.rd MLMB_FW_STATE.REGISTRAR = 2
        ∧ t.rd MLMB_FW_RESTARTS.REGISTRAR = min (s.rd MLMB_FW_RESTARTS.REGISTRAR + 1) 65535
        ∧ t.rd MLMB_FW_STATE.PMC = s.rd MLMB_FW_STATE.PMC ∧ (s.underTest p.2.1 = false → t.Raised p.2.1)
        ∧ t.sameCycle 2 (1 - p.2.2) = true
        ∧ t.reg.owed = s.registrarOpen ∧ t.reg.loading = none ∧ t.reg.arrivals = []
        ∧ (∀ i < 68, (t.mb i).taken = (s.mb i).taken.filter (fun r => hOp r.header / 256 ≠ 0))
        ∧ (s.reg.loading = none → SameBut (.fresh :: .lessons :: .reg :: .slices :: .sec :: replyParts) s t))) ∧
    (s.rd MLMB_FW_STATE.REGISTRAR = 2 → s.sameCycle 2 p.2.2 = false →
      Answers p.1 s (fun t => t.rd MLMB_FW_STATE.REGISTRAR = 2
        ∧ t.rd MLMB_FW_RESTARTS.REGISTRAR = min (s.rd MLMB_FW_RESTARTS.REGISTRAR + 1) 65535
        ∧ (s.underTest p.2.1 = false → t.Raised p.2.1) ∧ t.sameCycle 2 (1 - p.2.2) = true ∧ t.reg.owed = s.reg.owed)) ∧
    (s.rd MLMB_FW_STATE.REGISTRAR = 2 → s.sameCycle 2 p.2.2 = true → Answers p.1 s (JoinsRestart s 2 p.2.1))) ∧
  (∀ (s : State) (n : Fin 16), s.Awake →
    ∀ p ∈ [(Instr.fwWatchdogExpiry (.ccc n), srcCluster n.val 13, 0), (.fwLockstepMismatch (.ccc n), srcCluster n.val 12, 1)],
    (s.cccState n.val = 1 ∨ s.cccState n.val = 2 ∧ s.sameCycle (16 + n.val) p.2.2 = false →
      Answers p.1 s (fun t => t.cccState n.val = 2 ∧ (∀ k < 16, k ≠ n.val → t.cccState k = s.cccState k)
        ∧ (∀ k < 16, t.rd ⟨MLMB_CCC_RESTARTS, 4 * k + 3, 4 * k⟩
            = (if k = n.val then min (s.rd ⟨MLMB_CCC_RESTARTS, 4 * k + 3, 4 * k⟩ + 1) 15 else s.rd ⟨MLMB_CCC_RESTARTS, 4 * k + 3, 4 * k⟩))
        ∧ (s.underTest p.2.1 = false → t.Raised p.2.1) ∧ t.sameCycle (16 + n.val) (1 - p.2.2) = true
        ∧ (∀ k j, s.job? k = some j → j.fb = none → j.origStopped = false → j.state < 4 → (∃ x ∈ j.seats, clusterOf x.1 = n.val) →
            ∃ j', t.job? k = some j' ∧ j'.state = 7 ∧ j'.status = msRestarting)
        ∧ SameBut (.fresh :: .seats :: .cores :: .clusters :: .lessons :: .jobs :: .roster :: .reg :: .rast :: .sec :: replyParts) s t)) ∧
    (s.cccState n.val = 2 → s.sameCycle (16 + n.val) p.2.2 = true → Answers p.1 s (JoinsRestart s (16 + n.val) p.2.1))) ∧
  (∀ s : State, s.Awake → s.rd MLMB_FW_STATE.PROCTOR = 1 →
    ∀ c ∈ [Instr.fwWatchdogExpiry .proctor, .fwLockstepMismatch .proctor, .procLockstep],
    Answers c s (fun t => t.rd MLMB_FW_STATE.PROCTOR = 3 ∧ t.on (FCU_SRC_STATE.ASSERTING srcProcLockstep) = true
      ∧ (∀ i < 68, ∀ r ∈ (t.mb i).taken, hOp r.header / 256 ≠ 3) ∧ SameBut (.fresh :: replyParts) s t)) ∧
  (∀ (s : State) (k : Nat) (e : RestartFound),
    (e.instrOk = true → s.sec.reloads.contains k = false →
      s.checkSram k e = (s, if e.copyA = true ∨ e.copyB = true then .runs else .failed)) ∧
    (e.instrOk = false → s.sec.reloads.contains k = false →
      (s.underTest srcFwSramUe = false → (s.checkSram k e).1.Raised srcFwSramUe) ∧
      (s.scRunning = false → (s.checkSram k e).2 = .waits ∧ (s.checkSram k e).1.sec.reloads.contains k = true) ∧
      (s.scRunning = true → ((s.checkSram k e).2 = .runs ↔ (e.sigOk = true ∧ s.fuses.minVersion.getD (procPlace k) 0 ≤ e.version.toNat)
          ∧ (e.copyA = true ∨ e.copyB = true))
        ∧ (s.checkSram k e).2 ≠ .waits ∧ Table.find (s.checkSram k e).1.sec.causes k = some 2
        ∧ (e.sigOk = true → s.fuses.minVersion.getD (procPlace k) 0 ≤ e.version.toNat →
            (s.checkSram k e).1.boot = { s.boot with measure := s.boot.measure.set (procPlace k) e.digest })
        ∧ (e.sigOk = false ∨ e.version.toNat < s.fuses.minVersion.getD (procPlace k) 0 → (s.checkSram k e).1.boot = s.boot
            ∧ (s.underTest srcFwAuthFail = false → (s.checkSram k e).1.Raised srcFwAuthFail))))) ∧
  (∀ (s : State) (e : RestartFound), s.Awake → s.rd MLMB_FW_STATE.PMC = 2 → Answers (.pmcRestartEnd e) s (fun t =>
    t.rd MLMB_FW_STATE.PMC = (match (s.checkSram 1 e).2 with | .runs => 1 | .failed => 3 | .waits => 2)
    ∧ t.rd MLMB_FW_STATE.REGISTRAR = s.rd MLMB_FW_STATE.REGISTRAR ∧ SameBut (.boot :: .sec :: replyParts) s t)) ∧
  (∀ (s : State) (e : RestartFound), s.Awake → s.rd MLMB_FW_STATE.REGISTRAR = 2 → Answers (.registrarRestartEnd e) s (fun t =>
    t.rd MLMB_FW_STATE.REGISTRAR = (match (s.checkSram 2 e).2 with | .runs => 1 | .failed => 3 | .waits => 2)
    ∧ t.reg.owed = (match (s.checkSram 2 e).2 with | .waits => s.reg.owed | _ => [])
    ∧ t.rd MLMB_FW_STATE.PMC = s.rd MLMB_FW_STATE.PMC)) ∧
  (∀ (s : State) (n : Fin 16) (e : RestartFound), s.Awake → s.cccState n.val = 2 → Answers (.cccRestartEnd n e) s (fun t =>
    t.cccState n.val = (match (s.checkSram (16 + n.val) e).2 with | .runs => if s.regRunning && !s.contentHeld n.val then 1 else 2 | .failed => 3 | .waits => 2)
    ∧ (∀ k < 16, k ≠ n.val → t.cccState k = s.cccState k)
    ∧ ((s.checkSram (16 + n.val) e).2 ≠ .runs ∨ s.regRunning = false ∨ s.contentHeld n.val = true →
        SameBut (.boot :: .sec :: replyParts) s t)))

/-! ### The budget and the timetable -/

/-- R185, R385, R387, R388: the budget record at a period boundary: SEQ advances, the energy and the boundary's time are published, and whether a limit
acted in the period is kept for the next; a projection that fits
lifts every step, one that does not makes the period short, rotates over the coolest clusters, and never replaces a SAFETY job. R186, R187, R316:
TIMETABLE_SET takes a timetable whose windows are well formed and cover at most 80% of each period, at once while no window is open and otherwise when
it closes. A window asks for its operating points; 1 us before it opens and when it opens, at its offset modulo its period, other work is parked, but for a Seat
with END in flight, which goes to IDLE (log entry 76); it closes once its length has passed. -/
def Obligations.BudgetsAndTimetables : Prop :=
  (∀ (s : State) (w p t0 e : Nat), s.Awake → s.pmcRunning = true → t0 = s.clock.now - s.clock.now % 1000000 → e = s.energyAllowed w →
    Answers (.budgetRecord w p) s (fun t =>
      t.reg64 (PMC_BUDGET 0) = (s.reg64 (PMC_BUDGET 0) + 1) % 2 ^ 32 + e * 2 ^ 32 ∧ t.reg64 (PMC_BUDGET 1) = t0 % 2 ^ 64
      ∧ t.pwr.acted = false ∧ t.pwr.actedLast = s.pwr.acted
      ∧ (s.regRunning = false → SameBut [.regs, .dies, .pwr] s t)
      ∧ (s.regRunning = true → s.overBudget t0 e = false →
          t.reg = { s.reg with rotation := [], short := false, holdBest := false, holdDisplay := false }
          ∧ SameBut [.regs, .dies, .pwr, .reg] s t)
      ∧ (s.regRunning = true → s.overBudget t0 e = true → t.reg.short = true ∧ t.reg.rotation = s.coolest
          ∧ (∀ k j, s.job? k = some j → (∀ q ∈ s.jobs, q.1 = k → q.2.cls = 0) → t.job? k = some j)
          ∧ (∀ d : Fin 2, t.rd (PMC_OPP_CD.TARGET d.val) ≤ s.rd (PMC_OPP_CD.TARGET d.val))
          ∧ SameBut [.regs, .dies, .pwr, .seats, .cores, .lessons, .jobs, .reg] s t))) ∧
  (∀ (s u : State) (mb : Fin 68) (r : Req) (bs : List Byte), s.Due mb.val 0x0030 r u bs →
    (windowsOf (bs.length / 24) bs = none → Replies (.timetableSet mb) s mb.val r msBadarg 0 [] u) ∧
    (∀ ws, windowsOf (bs.length / 24) bs = some ws →
      (coverageOk ws = false → Replies (.timetableSet mb) s mb.val r msBadarg 0 [] u) ∧
      (coverageOk ws = true → (∀ w ∈ u.reg.windows, w.isOpen = false) → ∃ v, Replies (.timetableSet mb) s mb.val r msOk 0 [] v
        ∧ v.reg = { u.reg with windows := ws, nextWindows := none } ∧ SameBut [.cores, .reg] u v) ∧
      (coverageOk ws = true → (∃ w ∈ u.reg.windows, w.isOpen = true) →
        Replies (.timetableSet mb) s mb.val r msOk 0 [] { u with reg := { u.reg with nextWindows := some ws } }))) ∧
  (∀ (s : State) (i : Fin 16) (w : Window), s.Awake → s.reg.windows[i.val]? = some w →
    (s.regRunning = true → Answers (.windowOppRequest i) s (fun t =>
      t.reg.windows = s.reg.windows.set i.val { w with asked := true }
      ∧ (∀ p ∈ [(0, w.opp0), (1, w.opp1)], bits w.mask (8 * p.1 + 7) (8 * p.1) ≠ 0 → s.pmcRunning = true → (s.die p.1).powered = true →
          (s.die p.1).allowed = true → s.pwr.acted = false → s.pwr.actedLast = false →
          t.rd (PMC_OPP_CD.TARGET p.1) = max (s.rd (PMC_OPP_CD.TARGET p.1)) (min p.2 (s.ceil p.1)))
      ∧ SameBut [.regs, .dies, .reg] s t)) ∧
    (∀ p ∈ [(Instr.windowPark i, { w with soon := true }, s.clock.now / 1000 + 1), (.windowOpen i, { w with isOpen := true }, s.clock.now / 1000)],
      0 < w.periodMs → p.2.2 % (w.periodMs * 1000) = w.offsetUs % (w.periodMs * 1000) →
      Answers p.1 s (fun t => t.reg.windows = s.reg.windows.set i.val p.2.1
        ∧ (∀ m g, m < 128 → bit w.mask (m / 8) = true → s.issuingSeat m = some g → s.seatSafe g = true ∨ s.endPending g = true →
            t.seatState g = 3)
        ∧ ((∀ g, (s.seat g).flight = []) → SameBut [.regs, .seats, .cores, .jobs, .reg] s t
          ∧ ∀ m g, m < 128 → bit w.mask (m / 8) = true → s.issuingSeat m = some g → s.seatSafe g = false → t.seatState g = 5))) ∧
    (∀ l, w.isOpen = true → w.lengthUs ≤ s.windowPhase w →
      l = s.reg.windows.set i.val { w with asked := false, soon := false, isOpen := false } →
      Answers (.windowClose i) s (fun t => SameBut [.cores, .reg] s t
        ∧ (s.reg.nextWindows = none → t.reg.windows = l)
        ∧ (∀ ws, s.reg.nextWindows = some ws → (∀ x ∈ l, x.isOpen = false) → t.reg.windows = ws ∧ t.reg.nextWindows = none))))

/-! ### Lessons -/

/-- R145-R154, R308: a LESSON_LOAD that is due checks frame, format, root and fields in their order, each with its status; an image that passes every
check and can be placed takes its Seats, and the load is in progress; then its content is written, and a readback that agrees makes the Lesson resident
with its placement and its queues, which the reply names, while one that does not, or one with a region that the secure partition has shut meanwhile
(R114), leaves nothing of it and is answered MS_FAULT. What the bytes of an image are found to be stays (log entry 90). A load whose slice runs the
sequence of R333 is answered MS_ABORTED (R159). R158: LESSON_UNLOAD. An unknown Lesson is MS_BADARG; one with unfinished jobs is MS_BUSY unless
FORCE is set, which aborts them and answers when the last has ended; otherwise it goes with its Roster entries at once. That a command which is not
enabled leaves the state as it was, and the two steps of a load, are the model's choices (log entries 2, 83). -/
def Obligations.LessonsComeAndGo : Prop :=
  (∀ (s u : State) (mb : Fin 68) (r : Req) (bs : List Byte) (i : Nat) (root : SigRoot) (rb : Bool), s.Due mb.val 0x0010 r u bs →
    i = hSlice r.header → s.reg.loading = none → s.loadDue mb.val = true → s.imageWaits mb.val 0x0010 = false →
    s.rd SEC_STATE.SC_STATE = 1 → u.rd SEC_STATE.SC_STATE = 1 →
    (r.met = true ∨ (u.slice i).running = true → u.hostGone i = false → ∀ w : State, w = u.reply mb.val (s.ctx r.who) r.header msAborted 0 [] →
      exec (.lessonLoad mb root rb) s = .next { w with reg := { w.reg with arrivals := s.reg.arrivals.erase mb.val } }) ∧
    (∀ v m f, r.met = false → (u.slice i).running = false → u.ctxRead (u.ctx r.who) (leAt bs 0 8) (leAt bs 8 4) = (v, some m) →
      f = v.findImage m root none →
      f.2.bytes = m ∧ SameBut [.found] v f.1 ∧ (∀ e ∈ v.found, e.bytes = m → f.1 = v) ∧ (∀ r' c, f.1.findImage m r' c = f) ∧
      (∀ (st : Nat) (rep : List Byte) (w : State), f.1.admitImage i m (leAt bs 12 4) f.2.root = .refused st rep →
        w = f.1.reply mb.val (s.ctx r.who) r.header st 0 rep →
        exec (.lessonLoad mb root rb) s = .next { w with reg := { w.reg with arrivals := s.reg.arrivals.erase mb.val } }) ∧
      (∀ x l, f.1.admitImage i m (leAt bs 12 4) f.2.root = .placed x l → Answers (.lessonLoad mb root rb) s (fun t =>
        t.reg.loading = some ⟨mb.val, r.header, r.who, l⟩ ∧ t.reg.arrivals = s.reg.arrivals.erase mb.val ∧ SameBut [.reg] x t)))) ∧
  (∀ (s : State) (i opts : Nat) (m : List Byte) (root : SigRoot),
    (imFrameOk m m.length = false → s.admitImage i m opts root = .refused msBadarg []) ∧
    (imFrameOk m m.length = true → imFormat m ≠ 1 → s.admitImage i m opts root = .refused msVersion []) ∧
    (imFrameOk m m.length = true → imFormat m = 1 → s.rootOk root = false → s.admitImage i m opts root = .refused msDenied []) ∧
    (imFrameOk m m.length = true → imFormat m = 1 → s.rootOk root = true → s.imFieldsOk i m opts = false →
      s.admitImage i m opts root = .refused msBadarg []) ∧
    (∀ w c, imFrameOk m m.length = true → imFormat m = 1 → s.rootOk root = true → s.imFieldsOk i m opts = true →
      (∀ d ∈ imDescs m, s.imDescOk m d.2.2 = true) → firstDesc (imShapeFails m) = none → (s.placeAll i m).2 ++ s.sliceReport i m = [] →
      (lowestPlaces 1 (imQueues m) s.freeWork).head? = some w → (lowestPlaces 1 (imQueues m) s.freeCompletion).head? = some c →
      ∃ x l, s.admitImage i m opts root = .placed x l ∧ l.slice = i ∧ l.id = imId m ∧ l.image = m.take (imLen m)
        ∧ l.places = (s.placeAll i m).1.map (·.place) ∧ l.queueFirst = w ∧ l.cqFirst = c ∧ l.releasing = false ∧ l.quizFailed = false
        ∧ SameBut [.regs, .seats, .clusters] s x)) ∧
  (∀ (s : State) (mb : Fin 68) (root : SigRoot) (d : Loading) (k : Nat), s.Awake → s.reg.loading = some d → d.mb = mb.val →
    s.regRunning = true → s.contentWaits d.lesson = false → k = lessonKey d.lesson.slice d.lesson.id →
    ((∀ h ∈ s.homes d.lesson.image d.lesson.places, s.regionShut h.2.2.1 h.2.2.2.1 = false) →
      ∃ (v : State) (l : Lesson), exec (.lessonLoad mb root true) s = .next (v.reply mb.val (v.ctx d.who) d.header msOk
        (d.lesson.cqFirst * 2 ^ 32 + d.lesson.queueFirst) (placementBytes d.lesson.places))
      ∧ v.lesson? k = some l ∧ l.image = d.lesson.image ∧ l.places = d.lesson.places ∧ (∀ j, j ≠ k → v.lesson? j = s.lesson? j)
      ∧ v.reg.loading = none ∧ SameBut [.mem, .ecc, .lessons, .reg, .queues] s v) ∧
    (∀ rb, rb = false ∨ (∃ h ∈ s.homes d.lesson.image d.lesson.places, s.regionShut h.2.2.1 h.2.2.2.1 = true) →
      ∃ v : State, exec (.lessonLoad mb root rb) s = .next (v.reply mb.val (v.ctx d.who) d.header msFault 0 [])
      ∧ v.lesson? k = none ∧ v.reg.loading = none ∧ (s.underTest srcLessonVerify = false → v.Raised srcLessonVerify))) ∧
  (∀ (s u : State) (mb : Fin 68) (r : Req) (bs : List Byte) (k : Nat), s.Due mb.val 0x0011 r u bs →
    k = lessonKey (hSlice r.header) (hArg r.header) →
    (u.lesson? k = none → Replies (.lessonUnload mb) s mb.val r msBadarg 0 [] u) ∧
    (∀ l, u.lesson? k = some l →
      ((u.unfinished k).isEmpty = true → ∃ v, Replies (.lessonUnload mb) s mb.val r msOk 0 [] v
        ∧ v.lesson? k = none ∧ (∀ j, j ≠ k → v.lesson? j = u.lesson? j) ∧ (∀ e ∈ v.roster, ¬(e.2.slice = l.slice ∧ e.2.lesson = l.id))
        ∧ SameBut (.mem :: .ecc :: .seats :: .cores :: .clusters :: .lessons :: .jobs :: .roster :: .reg :: .queues :: .rast :: eventParts) u v) ∧
      ((u.unfinished k).isEmpty = false → bit (hFlags r.header) 2 = false → Replies (.lessonUnload mb) s mb.val r msBusy 0 [] u) ∧
      ((u.unfinished k).isEmpty = false → bit (hFlags r.header) 2 = true → Answers (.lessonUnload mb) s (fun t =>
        (∃ l', t.lesson? k = some l' ∧ l'.releasing = true ∧ l'.releaseMb = some (mb.val, r.header) ∧ l'.places = l.places)
        ∧ (∀ x j, u.job? x = some j → j.lesson = k → j.state < 4 → ∃ j', t.job? x = some j' ∧ j'.state = 6 ∧ j'.status = msAborted)
        ∧ SameBut [.regs, .seats, .cores, .lessons, .jobs] u t)))) ∧
  (∀ (s : State) (i : Fin 64) (d : Word) (k : Nat) (l : Lesson), s.Awake → s.regRunning = true → k = lessonKey i.val d.toNat →
    s.lesson? k = some l → l.releasing = true →
    ((s.unfinished k).isEmpty = false → exec (.lessonRelease i d) s = .next s) ∧
    (∀ mb h, (s.unfinished k).isEmpty = true → l.releaseMb = some (mb, h) →
      ∃ v : State, exec (.lessonRelease i d) s = .next (v.sendReply mb (replyHeader h msOk 0 0)) ∧ v.lesson? k = none
        ∧ (∀ j, j ≠ k → v.lesson? j = s.lesson? j)))

/-! ### Jobs and the Roster -/

/-- R160-R170, R243: the queue that is due gives its record a tag and a handle and becomes a job with the record's fields; the best waiting job of a
Lesson takes its group, whose Seats become READY. R174, R183, R198, R259: a RUNNING job whose run meets the commit conditions becomes COMMITTING with
MS_OK and the signature of that run, the original before the fallback; its Seats are free, and a batch source bound to its Lesson is owed a copy;
otherwise the job stays as it is. A tile job is the matter of the raster rules. R163, R174-R177, R182-R184: a job that has ended writes its completion
record once the queue has room, and frees its tag; ABORT ends a job of the slice that runs; the Bell boosts a job predicted to miss and starts its
fallback where one can start, from ARM on; from DEADLINE on the deadline ends the job, and with a tile job its pass (R229), or marks it late. That a
command which is not enabled leaves the state as it was, and that an ABORT of a handle of another slice or of a step job is MS_BADARG, are the model's
choices (log entries 2, 42). -/
def Obligations.JobsRun : Prop :=
  (∀ (s : State) (q : Fin 32768) (k tag : Nat) (l : Lesson) (b : Bool) (bs : List Byte), s.Awake → s.intakeDue = some q.val →
    s.queueLesson q.val = some (k, l) → s.intakeNext q.val = some (1, b) → s.nextTag = some tag →
    s.qRead q.val (s.queue q.val).cons = (s, some bs) →
    Answers (.jobIntake q) s (fun t => ∃ j, t.job? tag = some j ∧ j.slice = l.slice ∧ j.lesson = k ∧ j.cls = l.cls ∧ j.queue = q.val
      ∧ j.index = (s.queue q.val).cons ∧ j.cq = l.pairedCq q.val ∧ j.jobRef = leAt bs 8 4 ∧ j.deadline = leAt bs 0x10 8
      ∧ j.arm = leAt bs 0x18 8 ∧ j.gen = Table.get s.reg.gens 0 tag % 63 + 1 ∧ j.intake = s.reg.nextIntake
      ∧ (j.state, j.status) = s.intakeState l q.val (s.queue q.val).cons b (some bs) ∧ j.seats = []
      ∧ (t.queue q.val).cons = ((s.queue q.val).cons + 1) % 2 ^ 32 ∧ t.reg.nextIntake = s.reg.nextIntake + 1
      ∧ (∀ x, x ≠ tag → t.job? x = s.job? x)
      ∧ SameBut (.seats :: .cores :: .lessons :: .jobs :: .reg :: .queues :: .rast :: writeParts) s t)) ∧
  (∀ (s : State) (q : Fin 32768), s.Awake → s.intakeDue ≠ some q.val → exec (.jobIntake q) s = .next s) ∧
  (∀ (s : State) (i : Fin 64) (d : Word) (k : Nat) (l : Lesson), s.Awake → s.regRunning = true → k = lessonKey i.val d.toNat →
    s.lesson? k = some l → l.releasing = false → s.sliceStopped l.slice = false →
    (s.bestJob k l = none → exec (.jobSeat i d) s = .next s) ∧
    (∀ tag j g seats, s.bestJob k l = some (tag, j, g, seats) → Answers (.jobSeat i d) s (fun t =>
      t.job? tag = some { j with group := g, seats := seats, state := if j.state = 0 then 1 else j.state }
      ∧ (∀ p ∈ seats, t.seatState p.1 = 2 ∧ ∃ rep, (t.seat p.1).job = some ⟨false, tag, false, rep⟩)
      ∧ (∀ x, (∀ p ∈ seats, p.1 ≠ x) → t.seat x = s.seat x)
      ∧ SameBut [.regs, .seats, .cores, .jobs, .rast] s t))) ∧
  (∀ (s : State) (tag : Fin 1024) (j : Job), s.Awake → s.job? tag.val = some j →
  (j.state ≠ 2 ∨ j.voltage = true ∨ (s.originalReady tag.val j = false ∧ s.fallbackReady tag.val j = false) →
    exec (.jobCommit tag) s = .next s) ∧
  (∀ b, j.state = 2 → j.voltage = false → j.tile = none → b = !s.originalReady tag.val j →
    s.originalReady tag.val j = true ∨ s.fallbackReady tag.val j = true → Answers (.jobCommit tag) s (fun t => ∃ j', t.job? tag.val = some j'
      ∧ j'.state = 4 ∧ j'.status = msOk ∧ j'.usedFallback = (j.usedFallback || b) ∧ j'.late = (j.late || (j.deadlineEn && j.deadline < s.clock.now))
      ∧ j'.sigOut = BitVec.ofNat 64 (s.jobSig (if b then (match j.fb with | some f => f.seats | none => []) else j.seats) 0)
      ∧ (∀ x ∈ j.liveSeats, (t.seat x.1).job = none)
      ∧ (s.planOn = true → (s.planSource j.slice (j'.committed % 2 ^ 64)).isSome = true → tag.val ∈ t.plan.copies)
      ∧ SameBut (.fresh :: .seats :: .cores :: .jobs :: .plan :: queueParts) s t))) ∧
  (∀ (s : State) (tag : Fin 1024) (j : Job), s.Awake → s.job? tag.val = some j → 4 ≤ j.state → s.plan.copies.contains tag.val = false →
    j.discard = false → j.entries = [] → j.home = none →
    (s.cqRoom j.cq = false → exec (.completionWrite tag) s = .next s) ∧
    (∀ u, s.cqRoom j.cq = true →
      u = s.qNotice j.cq (j.compRecord tag.val j.jobRef j.queue (if j.state = 4 then s.clock.now else j.endTime)) →
      Answers (.completionWrite tag) s (fun t => t.job? tag.val = none
        ∧ (j.tile = none → t.reg = { s.reg with freeTags := s.reg.freeTags ++ [tag.val] }
            ∧ (∀ g r, (t.seat g).job = some r → r.quiz = false → r.ref ≠ tag.val)
            ∧ (∀ x, x ≠ tag.val → t.job? x = s.job? x) ∧ SameBut [.regs, .seats, .cores, .jobs, .reg] u t)))) ∧
  (∀ (s u : State) (mb : Fin 68) (r : Req) (bs : List Byte) (h tag : Nat), s.Due mb.val 0x0012 r u bs → h = hArg r.header → h < 65536 →
    tag = h % 1024 → 1024 ≤ h → Table.get u.reg.gens 0 tag = h / 1024 →
    (u.job? tag = none → Replies (.abort mb) s mb.val r msAlreadyDone 0 [] u) ∧
    (∀ j, u.job? tag = some j → j.slice ≠ hSlice r.header ∨ j.home.isSome = true → Replies (.abort mb) s mb.val r msBadarg 0 [] u) ∧
    (∀ j, u.job? tag = some j → j.slice = hSlice r.header → j.home = none → 4 ≤ j.state →
      Replies (.abort mb) s mb.val r msAlreadyDone 0 [] u) ∧
    (∀ j, u.job? tag = some j → j.slice = hSlice r.header → j.home = none → j.state < 4 →
      ∃ v j', Replies (.abort mb) s mb.val r msOk 0 [] v ∧ v.job? tag = some j' ∧ j'.state = 6 ∧ j'.status = msAborted
        ∧ j'.endTime = u.clock.now ∧ (∀ p ∈ j.liveSeats, (v.seat p.1).job = none ∧ v.seatState p.1 ≤ 1)
        ∧ (∀ x, x ≠ tag → v.job? x = u.job? x) ∧ SameBut [.regs, .seats, .cores, .jobs] u v)) ∧
  (∀ (s : State) (tag : Fin 1024) (j : Job), s.Awake → s.job? tag.val = some j → j.armed = true → j.state < 4 →
    (s.clock.now < j.arm → exec (.bellArm tag) s = .next s) ∧
    (s.clock.now < j.deadline → exec (.bellDeadline tag) s = .next s) ∧
    (j.passedArm = false → j.arm ≤ s.clock.now → s.missPredicted j = false → Answers (.bellArm tag) s (fun t =>
      t.job? tag.val = some { j with passedArm := true } ∧ SameBut [.cores, .jobs] s t)) ∧
    (j.passedArm = false → j.arm ≤ s.clock.now → s.missPredicted j = true → s.fallbackFor j = none → Answers (.bellArm tag) s (fun t =>
      t.job? tag.val = some { j with passedArm := true, boosted := true, fbUnavail := true } ∧ SameBut [.cores, .jobs] s t)) ∧
    (∀ k f seats, j.passedArm = false → j.arm ≤ s.clock.now → s.missPredicted j = true → s.fallbackFor j = some (k, f, seats) →
      Answers (.bellArm tag) s (fun t => t.job? tag.val = some { j with
          passedArm := true, boosted := true, fb := some ⟨k, seats, false⟩, state := if j.state = 0 then 1 else j.state }
        ∧ (∀ p ∈ seats, t.seatState p.1 = 2 ∧ ∃ rep, (t.seat p.1).job = some ⟨false, tag.val, true, rep⟩)
        ∧ SameBut [.regs, .seats, .cores, .jobs] s t)) ∧
    (j.abortAtDeadline = true → j.deadline ≤ s.clock.now → Answers (.bellDeadline tag) s (fun t =>
      (∃ j', t.job? tag.val = some j' ∧ j'.state = 7 ∧ j'.status = msTimeout)
      ∧ (∀ r, j.tile = some r → (s.passOf r.pass).isSome = true → t.rast.pass = none)
      ∧ ((∀ r, j.tile = some r → s.passOf r.pass = none) → SameBut [.regs, .seats, .cores, .jobs] s t))) ∧
    (j.abortAtDeadline = false → j.deadline ≤ s.clock.now → Answers (.bellDeadline tag) s (fun t =>
      t.job? tag.val = some { j with late := true } ∧ SameBut [.jobs] s t)))

/-- R178-R181: SEQ_ADD takes the lowest free entry, in the home group with the fewest entries; SEQ_FEED makes a waiting entry READY and notes the feed
of a running one; SEQ_RETIRE frees an entry, or marks it while it runs; a step job takes the READY entries of a home group, at most a batch. That a
command which is not enabled leaves the state as it was is the model's choice (log entry 2). -/
def Obligations.TheRosterRuns : Prop :=
  (∀ (s u : State) (mb : Fin 68) (r : Req) (bs : List Byte) (l : Lesson) (e slot : Nat), s.Due mb.val 0x0020 r u bs →
    u.lesson? (lessonKey (hSlice r.header) (leAt bs 0 8)) = some l → imSequence l.image = true → l.releasing = false → leAt bs 20 4 < 2 →
    (List.range (ceilDiv (imSeqMax l.image) l.groups)).find? (fun k =>
      !(((u.entriesOf l).filter (fun p => p.2.group = u.homeGroup l)).map (·.2.slot)).contains k) = some slot →
    (List.range 8192).find? (fun k => (Table.find u.roster k).isNone) = some e →
    (u.rosterLeft (hSlice r.header) = 0 → Replies (.seqAdd mb) s mb.val r msNofit 0 [] u) ∧
    (u.rosterLeft (hSlice r.header) ≠ 0 → ∃ v, Replies (.seqAdd mb) s mb.val r msOk e [] v
      ∧ (v.entry e).state = (if bit (leAt bs 20 4) 0 then 2 else 1) ∧ (v.entry e).slice = hSlice r.header ∧ (v.entry e).lesson = l.id
      ∧ (v.entry e).group = u.homeGroup l ∧ (v.entry e).slot = slot ∧ (v.entry e).step = 0 ∧ (v.entry e).position = leAt bs 12 4
      ∧ (∀ x, x ≠ e → v.entry x = u.entry x) ∧ SameBut [.roster] u v)) ∧
  (∀ (s u : State) (mb : Fin 68) (r : Req) (bs : List Byte),
    (s.Due mb.val 0x0021 r u bs → u.namedEntry (hSlice r.header) r = none → Replies (.seqFeed mb) s mb.val r msBadarg 0 [] u) ∧
    (s.Due mb.val 0x0022 r u bs → u.namedEntry (hSlice r.header) r = none → Replies (.seqRetire mb) s mb.val r msBadarg 0 [] u) ∧
    (∀ a e, u.namedEntry (hSlice r.header) r = some (a, e) →
      (s.Due mb.val 0x0021 r u bs → e.state = 2 → ∃ v, Replies (.seqFeed mb) s mb.val r msOk 0 [] v
        ∧ v.entry a = { e with state := 1, readyTime := u.clock.now } ∧ (∀ x, x ≠ a → v.entry x = u.entry x) ∧ SameBut [.roster] u v) ∧
      (s.Due mb.val 0x0021 r u bs → e.state = 3 → ∃ v, Replies (.seqFeed mb) s mb.val r msOk 0 [] v
        ∧ v.entry a = { e with feedPending := true } ∧ (∀ x, x ≠ a → v.entry x = u.entry x) ∧ SameBut [.roster] u v) ∧
      (s.Due mb.val 0x0022 r u bs → e.state = 3 → ∃ v, Replies (.seqRetire mb) s mb.val r msOk 0 [] v
        ∧ v.entry a = { e with state := 4 } ∧ (∀ x, x ≠ a → v.entry x = u.entry x) ∧ SameBut [.roster] u v) ∧
      (s.Due mb.val 0x0022 r u bs → e.state = 1 ∨ e.state = 2 → ∃ v, Replies (.seqRetire mb) s mb.val r msOk 0 [] v
        ∧ v.entry a = RosterEntry.zero ∧ (∀ x, x ≠ a → v.entry x = u.entry x) ∧ SameBut [.roster] u v))) ∧
  (∀ (s : State) (i : Fin 64) (d : Word) (k g tag : Nat) (l : Lesson) (es : List (Nat × RosterEntry)), s.Awake →
    k = lessonKey i.val d.toNat → s.lesson? k = some l → es = (s.readyEntries l g).take (imBatch l.image) →
    (es = [] → exec (.rosterStepBuild i d g) s = .next s) ∧
    (l.releasing = false → s.sliceStopped l.slice = false → es ≠ [] → (s.groupFree l g).isSome = true → s.tagsFree l.slice ≠ 0 →
      s.nextTag = some tag → Answers (.rosterStepBuild i d g) s (fun t =>
        (∃ j, t.job? tag = some j ∧ j.state = 0 ∧ j.home = some g ∧ j.entries = es.map (·.1) ∧ j.lesson = k ∧ j.slice = l.slice)
        ∧ (∀ e ∈ es, (t.entry e.1).state = 3) ∧ (∀ x, (∀ e ∈ es, e.1 ≠ x) → t.entry x = s.entry x)
        ∧ t.reg.nextIntake = s.reg.nextIntake + 1 ∧ (∀ x, x ≠ tag → t.job? x = s.job? x)
        ∧ SameBut [.regs, .seats, .cores, .lessons, .jobs, .roster, .reg] s t)))

/-! ### Bridges -/

/-- R338, R339, R341-R343: a read completion answers its read and frees the tags that it holds, a late one is discarded, and one over a Die Bridge waits
behind the write-error messages of its link; the completion of an atomic operation of the peripheral bus writes its result; READ_TIMEOUT_US after it went out
a read is answered with an error and counted; the lock of a granule goes to one sequence at a time, the loser of a crossing releases its locks and
retries when the winner's sequence has ended, and the lock limit ends the sequence that has held its lock longest; side-band signals arrive by the way
that the mode gives. That a command which is not enabled leaves the state as it was is the model's choice (log entry 2). The form of a response that
waits is the model's (log entry 3), and so are what a request crosses, that other granules' locks stay, and the start-up cases of the side-band (log
entry 31). -/
def Obligations.BridgesReadLockAndSignal : Prop :=
  (∀ (s : State) (b : Fin 5) (n : Nat) (d : List Byte) (r : BridgeRead), s.Awake →
    (s.bridge b.val).reads.find? (fun x => x.tag = n) = some r →
    (s.behindMessage b.val r = true → exec (.bridgeCompletion b n d) s = .next s) ∧
    (b.val = 0 ∨ b.val = 4 → s.behindMessage b.val r = false →
      (r.kind = .bus → Answers (.bridgeCompletion b n d) s (fun t =>
        (t.bridge b.val).reads = (s.bridge b.val).reads.filter (· ≠ r)
        ∧ (t.bridge b.val).posted = (s.bridge b.val).posted.filter (fun p => r.after ≤ p.num)
        ∧ (∀ k ∈ [1, 2, 3], ∀ q ∈ (t.bridge k).reads, q.legOf r = false)
        ∧ ((r.timedOut || r.squashed) = true → t.bus = s.bus)
        ∧ ((r.timedOut || r.squashed) = false → (∀ k ∈ [1, 2, 3], ∀ q ∈ (s.bridge k).reads, q.legOf r = true → q.timedOut = false) →
            t.bus = .bytes (d.take r.bytes))
        ∧ SameBut [.bus, .bridges] s t)) ∧
      (∀ f v, r.kind = .atomic f v → (r.timedOut || r.squashed) = false → s.lapsedAt r.who r.addr = false →
        (∀ k ∈ [1, 2, 3], ∀ q ∈ (s.bridge k).reads, q.legOf r = true → q.timedOut = false) →
        Answers (.bridgeCompletion b n d) s (fun t => t.bus = .bytes (d.take r.bytes)
          ∧ (b.val = 0 → ∃ p ∈ (t.bridge 0).posted, p.init = s.initId r.who ∧ p.addr = r.addr ∧ p.target = r.target
              ∧ p.bytes = leBytes r.bytes (amoResult f r.bytes (leNat (d.take r.bytes)) (leNat v)))
          ∧ (∀ k ∈ lockBridges r.who r.addr, ∀ l ∈ (t.bridge k).locks, l.isOf (s.initId r.who) (granuleOf k r.addr) = false)
          ∧ SameBut [.bus, .ecc, .bridges] s t))) ∧
    (b.val ≠ 0 → b.val ≠ 4 → s.behindMessage b.val r = false → r.kind = .bus → ∀ v, v = s.freeReadTagOf b.val r →
      ((r.timedOut || r.squashed) = true → exec (.bridgeCompletion b n d) s = .next v) ∧
      ((r.timedOut || r.squashed) = false →
        (v.memCheck (s.ctx r.who) r.addr r.bytes false = .waits → exec (.bridgeCompletion b n d) s = .next s) ∧
        (∀ u o, v.memCheck (s.ctx r.who) r.addr r.bytes false ≠ .waits →
          v.getNow (s.ctx r.who) r.addr r.bytes (v.memCheck (s.ctx r.who) r.addr r.bytes false) = (u, o) →
          exec (.bridgeCompletion b n d) s = .next { u with bus := match o with | some x => .bytes x | none => .error })))) ∧
  (∀ (s : State) (b : Fin 5) (n : Nat) (r : BridgeRead), s.Awake →
    (s.bridge b.val).reads.find? (fun x => x.tag = n && !x.timedOut && !x.squashed && s.readOver b.val x) = some r →
    Answers (.bridgeReadTimeout b n) s (fun t =>
      t.rd (BRG_STATUS.READ_TIMEOUTS b.val) = min (s.rd (BRG_STATUS.READ_TIMEOUTS b.val) + 1) 65535
      ∧ ((b.val ≠ 0 ∧ b.val ≠ 4) ∨ (∀ k ∈ [1, 2, 3], ∀ q ∈ (s.bridge k).reads, q.legOf r = true → q.timedOut = false) → t.bus = .error)
      ∧ { r with timedOut := true } ∈ (t.bridge b.val).reads ∧ (t.bridge b.val).reads.length = (s.bridge b.val).reads.length
      ∧ (b.val = 0 ∨ b.val = 4 → ∀ k ∈ [1, 2, 3], ∀ q ∈ (t.bridge k).reads, q.legOf r = false)
      ∧ (r.kind = .barrier → (t.bridge b.val).barriers.contains (s.initId r.who) = false)
      ∧ ((∀ f v, r.kind ≠ .atomic f v) → t.ecc = s.ecc)
      ∧ SameBut [.bus, .regs, .ecc, .bridges] s t ∧ RegsBut [BRG_STATUS b.val] s t)) ∧
  (∀ (s : State) (b : Fin 5) (w : Initiator) (a : PAddr) (x : Option Crossing) (i g : Nat) (met : List BridgeLock), s.Awake → i = s.initId w →
    g = granuleOf b.val a.toNat → met = s.crossers b.val w a.toNat x → lockWay b.val w a.toNat = true →
    (s.lockShut b.val w a.toNat = true → exec (.bridgeLockRequest b w a x) s = .next { s with bus := .error }) ∧
    (s.lockShut b.val w a.toNat = false → s.lockWindow b.val w a.toNat = true → Answers (.bridgeLockRequest b w a x) s (fun t =>
      t.bus = .error ∧ Logged windowViol (s.ctx w) a.toNat true s t ∧ SameBut (.bus :: eventParts) s t)) ∧
    (s.lockShut b.val w a.toNat = false → s.lockWindow b.val w a.toNat = false →
      (s.freeReadTag b.val (linkOf b.val a.toNat) = none → exec (.bridgeLockRequest b w a x) s = .next { s with bus := .wait 256 }) ∧
      ((s.freeReadTag b.val (linkOf b.val a.toNat)).isSome = true → s.losesCrossing b.val w a.toNat x = true →
        Answers (.bridgeLockRequest b w a x) s (fun t => t.bus = .wait 256
          ∧ (∀ k < 5, (t.bridge k).locks = (s.bridge k).locks.filter (fun h => h.holder ≠ i))
          ∧ (⟨i, g, s.clock.up⟩, met.head?.map (·.holder)) ∈ (t.bridge b.val).retry ∧ (∀ e ∈ t.ecc.resv, e.1 ≠ i)
          ∧ SameBut [.bus, .ecc, .bridges] s t)) ∧
      ((s.freeReadTag b.val (linkOf b.val a.toNat)).isSome = true → s.losesCrossing b.val w a.toNat x = false →
        Answers (.bridgeLockRequest b w a x) s (fun t =>
          (∀ l ∈ met, l.holder ≠ i → (∀ k < 5, ∀ h ∈ (t.bridge k).locks, h.holder ≠ l.holder)
            ∧ (l, some i) ∈ (t.bridge (farBridge b.val a.toNat)).retry)
          ∧ (∀ h ∈ (s.bridge b.val).locks, (∀ l ∈ met, l.holder ≠ h.holder) → h ∈ (t.bridge b.val).locks)
          ∧ ((∃ h ∈ (s.bridge b.val).locks, h.holder ≠ i ∧ h.granule = g ∧ ∀ l ∈ met, l.holder ≠ h.holder) → t.bus = .wait 256)
          ∧ (met = [] → s.retryWaits b.val w a.toNat = true → t.bus = .wait 256)
          ∧ ((∀ h ∈ (s.bridge b.val).locks, h.granule = g → h.holder = i ∨ ∃ l ∈ met, l.holder = h.holder) →
              (met = [] ∧ s.retryWaits b.val w a.toNat = false) ∨ (∀ p ∈ (s.bridge b.val).retry, p.1.isOf i g = false) →
              t.bus = .done ∧ (∃ h ∈ (t.bridge b.val).locks, h.isOf i g = true) ∧ (∀ p ∈ (t.bridge b.val).retry, p.1.isOf i g = false)
                ∧ (∀ h ∈ (t.bridge b.val).lapsed, h.isOf i g = false))
          ∧ (met = [] → t.ecc = s.ecc) ∧ SameBut [.bus, .ecc, .bridges] s t)))) ∧
  (∀ (s : State) (b : Fin 5) (l : BridgeLock) (rest : List BridgeLock), s.Awake → (s.bridge b.val).locks = l :: rest →
    (s.clock.up ≤ l.since + lockLimit b.val → exec (.bridgeLockTimeout b) s = .next s) ∧
    (l.since + lockLimit b.val < s.clock.up → Answers (.bridgeLockTimeout b) s (fun t =>
      (t.bridge b.val).locks = rest ∧ l ∈ (t.bridge b.val).lapsed
      ∧ (∀ e ∈ t.ecc.resv, ¬(e.1 = l.holder ∧ l.covers b.val (e.2 * 64) 64 = true))
      ∧ t.rd (BRG_STATUS.LOCK_TIMEOUTS b.val) = min (s.rd (BRG_STATUS.LOCK_TIMEOUTS b.val) + 1) 65535
      ∧ SameBut [.regs, .ecc, .bridges] s t ∧ RegsBut [BRG_STATUS b.val] s t))) ∧
  (∀ (s : State) (b : Fin 5) (d : Word), s.Awake →
    (s.bridgeOn b.val = true → s.msgMode b.val = true →
      Answers (.bridgeSidebandMessage b d) s (fun t => (t.bridge b.val).sideband = d ∧ SameBut [.bridges] s t)
        ∧ exec (.bridgeSidebandPoll b d) s = .next s) ∧
    (s.bridgeOn b.val = true → s.msgMode b.val = false →
      Answers (.bridgeSidebandPoll b d) s (fun t => (t.bridge b.val).sideband = d ∧ SameBut [.bridges] s t)
        ∧ exec (.bridgeSidebandMessage b d) s = .next s) ∧
    (b.val = 4 → s.boot.strapEn = false → exec (.bridgeSidebandMessage b d) s = .next s ∧ exec (.bridgeSidebandPoll b d) s = .next s))

/-- R14, R36, R345, R346: the write-error message of an outstanding posted write fills the next entry of the Posted Error Log with its tag, its initiator
and its REASON, or is counted while the log is full, and raises the bridge's source; a barrier read waits, with a read tag on every link, and then
answers with ERR and ENTRIES; CLEAR empties the log; reads of the status clear its counts. That a command which is not enabled leaves the state as it was
is the model's choice (log entry 2). The form of a response that waits is the model's (log entry 3). Messages come in the order of their writes (R338).
-/
def Obligations.PostedErrorsAndBarriers : Prop :=
  (∀ (s : State) (b : Fin 5) (w : Initiator) (a : PAddr) (g : Byte) (r : Fin 10), s.Awake →
    ((s.bridge b.val).posted.find? (fun p => p.init = s.initId w && p.num % 256 = g.toNat && p.addr = a.toNat) = none →
      exec (.postedWriteError b w a g r) s = .next s) ∧
    (∀ p n why, (s.bridge b.val).posted.find? (fun p => p.init = s.initId w && p.num % 256 = g.toNat && p.addr = a.toNat) = some p →
      n = s.rd (BRG_BARRIER.ENTRIES b.val) → why = (if p.reason = 0 then r.val else p.reason) → why ≠ 0 → why < 10 → s.bridgeOn b.val = true →
      (b.val ≠ 0 → b.val ≠ 4 → (∃ q ∈ (s.bridge b.val).posted, q.link = p.link ∧ q.num < p.num) → exec (.postedWriteError b w a g r) s = .next s) ∧
      (b.val = 0 ∨ b.val = 4 ∨ (∀ q ∈ (s.bridge b.val).posted, q.link = p.link → p.num ≤ q.num) →
      (b.val = 0 ∨ b.val = 4 → ∀ q ∈ (s.bridge b.val).posted, q.link = p.link → q.num < p.num → Answers (.postedWriteError b w a g r) s (fun t =>
        q ∉ (t.bridge b.val).posted)) ∧
      (n < 64 → Answers (.postedWriteError b w a g r) s (fun t => t.rd (BRG_BARRIER.ENTRIES b.val) = n + 1
        ∧ t.reg64 (BRG_PEL_ADDR b.val n) = 2 ^ 63 + g.toNat * 2 ^ 48 + a.toNat
        ∧ t.rd (BRG_PEL_INFO.REASON b.val n) = why ∧ t.rd (BRG_PEL_INFO.INITIATOR b.val n) = s.initId w
        ∧ t.rd (BRG_PEL_INFO.TIME_US b.val n) = s.clock.now / 1024 % 2 ^ 32
        ∧ (t.bridge b.val).failed.contains (s.initId w) = true ∧ p ∉ (t.bridge b.val).posted
        ∧ (s.underTest (postedSrc b.val) = false → t.Raised (postedSrc b.val)) ∧ SameBut (.bridges :: eventParts) s t)) ∧
      (64 ≤ n → Answers (.postedWriteError b w a g r) s (fun t =>
        t.rd (BRG_PEL_STATUS.OVERFLOW b.val) = min (s.rd (BRG_PEL_STATUS.OVERFLOW b.val) + 1) 65535
        ∧ t.rd (BRG_BARRIER.ENTRIES b.val) = n ∧ p ∉ (t.bridge b.val).posted
        ∧ (s.underTest (postedSrc b.val) = false → t.Raised (postedSrc b.val)) ∧ SameBut (.bridges :: eventParts) s t))))) ∧
  (∀ (s : State) (w : Initiator) (b : Fin 5), s.Awake →
    (s.Reaches w .brg_barrier b.val 0 false →
      (s.bridgeOn b.val = false → exec (.brgBarrierRead w b) s = .next { s.asked w .brg_barrier b.val 0 with bus := .data 0 }) ∧
      (s.bridgeOn b.val = true → (s.bridge b.val).barriers.contains (s.initId w) = true ∨ (∃ k ∈ linksOf b.val, s.freeReadTag b.val k = none) →
        exec (.brgBarrierRead w b) s = .next { s.asked w .brg_barrier b.val 0 with bus := .wait 256 }) ∧
      (s.bridgeOn b.val = true → (s.bridge b.val).barriers.contains (s.initId w) = false →
        (∀ k ∈ linksOf b.val, (s.freeReadTag b.val k).isSome = true) → Answers (.brgBarrierRead w b) s (fun t => t.bus = .wait 256 ∧ (t.bridge b.val).barriers.contains (s.initId w) = true
          ∧ (t.bridge b.val).reads.length = (s.bridge b.val).reads.length + (linksOf b.val).length
          ∧ SameBut [.bus, .bridges] (s.asked w .brg_barrier b.val 0) t))) ∧
    ((s.bridge b.val).barriers.contains (s.initId w) = false → Answers (.brgBarrierComplete w b) s (fun t =>
      (t.bridge b.val).reads = (s.bridge b.val).reads.filter (fun r => !(s.barrierOf (s.initId w) r && (r.timedOut || r.squashed)))
      ∧ SameBut [.bridges] s t)) ∧
    ((s.bridge b.val).barriers.contains (s.initId w) = true →
      (s.barrierHeld b.val (s.initId w) = true → exec (.brgBarrierComplete w b) s = .next s) ∧
      (s.barrierHeld b.val (s.initId w) = false → Answers (.brgBarrierComplete w b) s (fun t =>
        t.bus = .data (b2n ((s.bridge b.val).failed.contains (s.initId w)) * 2 ^ 63 + s.rd (BRG_BARRIER.ENTRIES b.val))
        ∧ (t.bridge b.val).failed.contains (s.initId w) = false ∧ (t.bridge b.val).barriers.contains (s.initId w) = false
        ∧ (t.bridge b.val).posted = (s.bridge b.val).posted.filter (fun p => !s.beforeBarrier b.val (s.initId w) p)
        ∧ (∀ r ∈ (t.bridge b.val).reads, s.barrierOf (s.initId w) r = false)
        ∧ SameBut [.bus, .bridges] s t)))) ∧
  (∀ (s : State) (w : Initiator) (b : Fin 5) (d : Word), s.Awake → s.Reaches w .brg_pel_status b.val 0 true →
    (bit d.toNat 0 = true → Answers (.pelClear w b d) s (fun t => t.bus = .done ∧ t.rd (BRG_BARRIER.ENTRIES b.val) = 0
      ∧ (∀ e < 64, t.on (BRG_PEL_ADDR.VALID b.val e) = false) ∧ SameBut [.bus, .regs] (s.through w .brg_pel_status b.val 0) t
      ∧ RegsBut (BRG_BARRIER b.val :: (List.range 64).map (BRG_PEL_ADDR b.val)) s t)) ∧
    (bit d.toNat 0 = false → exec (.pelClear w b d) s = .next { s.through w .brg_pel_status b.val 0 with bus := .done })) ∧
  (∀ (s : State) (w : Initiator) (b : Fin 5), s.Awake →
    (s.Reaches w .brg_status b.val 0 false → Answers (.brgStatusRead w b) s (fun t => t.bus = .data (s.brgStatusWord b.val)
      ∧ t.rd (BRG_STATUS.READ_TIMEOUTS b.val) = 0 ∧ t.rd (BRG_STATUS.LOCK_TIMEOUTS b.val) = 0
      ∧ t.rd (BRG_STATUS.LINK_UP b.val) = s.rd (BRG_STATUS.LINK_UP b.val) ∧ SameBut [.bus, .regs] (s.asked w .brg_status b.val 0) t ∧ RegsBut [BRG_STATUS b.val] s t)) ∧
    (s.Reaches w .brg_pel_status b.val 0 false → Answers (.brgPelStatusRead w b) s (fun t =>
      t.bus = .data (s.rd (BRG_PEL_STATUS.OVERFLOW b.val) * 2 ^ 48) ∧ t.rd (BRG_PEL_STATUS.OVERFLOW b.val) = 0
      ∧ SameBut [.bus, .regs] (s.asked w .brg_pel_status b.val 0) t ∧ RegsBut [BRG_PEL_STATUS b.val] s t)))

/-! ### The Pair Link and the die links -/

/-- R33, R341, R347: a window register takes a write, but for one that would enable a window that overlaps another or exceeds its space; an access that
no window covers is refused and logged; a write goes out posted, with its address at the partner, and a read takes a tag while the partner is
available; with the link down a write fails with REASON LINK_DOWN; an exclusive access waits for its lock. The form of a response that waits is the
model's (log entry 3), and so are the answers of a conditional store and its reservation (log entry 68), that an exclusive access without its lock waits
for the command that takes it (log entry 31), and the halt of a Seat at an error response outside memory (log entry 88). -/
def Obligations.PairWindowsAndOutboundAccesses : Prop :=
  (∀ (s : State) (w : Initiator) (k : Fin 8) (d : Word), s.Awake → s.boot.strapEn = true →
    (s.Reaches w .pair_out_cfg k.val 0 true →
      (bit d.toNat 63 = false ∨ windowOk (bits d.toNat 15 0 * 0x100000, bits d.toNat 32 16 * 0x100000) 0x1000000000
          (s.otherWindows k.val PAIR_OUT_CFG.ENABLE s.outRange) = true →
        Answers (.pairWindowWrite w (.outCfg k) d) s (fun t => t.bus = .done ∧ t.on (PAIR_OUT_CFG.ENABLE k.val) = bit d.toNat 63
          ∧ t.outRange k.val = (bits d.toNat 15 0 * 0x100000, bits d.toNat 32 16 * 0x100000) ∧ SameBut [.bus, .regs] (s.through w .pair_out_cfg k.val 0) t
          ∧ RegsBut [PAIR_OUT_CFG k.val] s t)) ∧
      (bit d.toNat 63 = true → windowOk (bits d.toNat 15 0 * 0x100000, bits d.toNat 32 16 * 0x100000) 0x1000000000
          (s.otherWindows k.val PAIR_OUT_CFG.ENABLE s.outRange) = false →
        exec (.pairWindowWrite w (.outCfg k) d) s = .next { s.through w .pair_out_cfg k.val 0 with bus := .done })) ∧
    (s.Reaches w .pair_out_remote k.val 0 true → Answers (.pairWindowWrite w (.outRemote k) d) s (fun t => t.bus = .done
      ∧ t.rd (PAIR_OUT_REMOTE.REMOTE k.val) = bits d.toNat 47 20 ∧ SameBut [.bus, .regs] (s.through w .pair_out_remote k.val 0) t ∧ RegsBut [PAIR_OUT_REMOTE k.val] s t)) ∧
    (s.Reaches w .pair_in_base k.val 0 true → Answers (.pairWindowWrite w (.inBase k) d) s (fun t => t.bus = .done
      ∧ t.rd (PAIR_IN_BASE.BASE k.val) = bits d.toNat 47 20 ∧ SameBut [.bus, .regs] (s.through w .pair_in_base k.val 0) t ∧ RegsBut [PAIR_IN_BASE k.val] s t)) ∧
    (s.Reaches w .pair_in_cfg k.val 0 true →
      (bit d.toNat 63 = false ∨ windowOk (s.rd (PAIR_IN_BASE.BASE k.val) * 0x100000, bits d.toNat 16 0 * 0x100000) (2 ^ 48)
          (s.otherWindows k.val PAIR_IN_CFG.ENABLE s.inRange) = true →
        Answers (.pairWindowWrite w (.inCfg k) d) s (fun t => t.bus = .done ∧ t.on (PAIR_IN_CFG.ENABLE k.val) = bit d.toNat 63
          ∧ t.rd (PAIR_IN_CFG.SIZE_1M k.val) = bits d.toNat 16 0 ∧ t.on (PAIR_IN_CFG.WRITE_OK k.val) = bit d.toNat 62
          ∧ t.on (PAIR_IN_CFG.READ_OK k.val) = bit d.toNat 61 ∧ SameBut [.bus, .regs] (s.through w .pair_in_cfg k.val 0) t ∧ RegsBut [PAIR_IN_CFG k.val] s t)) ∧
      (bit d.toNat 63 = true → windowOk (s.rd (PAIR_IN_BASE.BASE k.val) * 0x100000, bits d.toNat 16 0 * 0x100000) (2 ^ 48)
          (s.otherWindows k.val PAIR_IN_CFG.ENABLE s.inRange) = false →
        exec (.pairWindowWrite w (.inCfg k) d) s = .next { s.through w .pair_in_cfg k.val 0 with bus := .done }))) ∧
  (∀ (s : State) (w : Initiator) (a : PAddr) (op : MemOp) (off : Nat), s.Awake → placeOf s.pins.fittedMiB a.toNat = .pairWin off →
    w.kind ≠ .pair → s.arrives w.kind w.index a.toNat = true →
    (∀ v, (a.toNat + opBytes op > 0x3000000000 ∧ v = hubViol 1) ∨
        (a.toNat + opBytes op ≤ 0x3000000000 ∧ s.outTarget off (opBytes op) = none ∧ v = windowViol) →
      Answers (.pairOutboundAccess w a op) s (fun t =>
      (startDie w = 0 ∨ w.kind = .seat ∨ (∀ bs, op ≠ .write bs) → t.bus = .error)
      ∧ (w.kind ≠ .seat → Logged v (s.ctx w) a.toNat (opWrites op) s t ∧ SameBut (.bus :: .ecc :: .bridges :: eventParts) s t)
      ∧ (w.kind = .seat → w.index < 1024 → s.LoneRun w.index → t.seatState w.index = 6))) ∧
    (∀ far use, a.toNat + opBytes op ≤ 0x3000000000 → s.outTarget off (opBytes op) = some far →
      use = (dramBytes a.toNat (opBytes op), linkBytes (startDie w) a.toNat (opBytes op) (opWrites op)) →
      (s.held w a.toNat (opBytes op) (opWrites op) = true ∨ s.strictFirst (s.sliceOf w) use = true →
        exec (.pairOutboundAccess w a op) s = .next { s with bus := .wait 256 }) ∧
      (s.held w a.toNat (opBytes op) (opWrites op) = false → s.strictFirst (s.sliceOf w) use = false →
        (opExclusive op = true → s.lapsedAt w a.toNat = false → s.holdsLocks w a.toNat = false →
          exec (.pairOutboundAccess w a op) s = .next { s with bus := .wait 256 }) ∧
        (∀ bs, op = .storeCond bs → s.lapsedAt w a.toNat = true →
          exec (.pairOutboundAccess w a op) s = .next { s.endSequence w a.toNat with bus := .data 1 }) ∧
        (s.pairAvail = true → s.pairCarries far = true) ∧
        (s.pairCarries far = true →
          (∀ n p g, op = .read n p → s.freeReadTag 4 0 = some g →
            (startDie w = 0 → Answers (.pairOutboundAccess w a op) s (fun t => t.bus = .wait g
              ∧ (t.bridge 4).reads = (s.bridge 4).reads ++ [⟨g, w, a.toNat, far, n, .bus, (s.bridge 4).sent, s.clock.up, false, false⟩]
              ∧ SameBut [.bus, .bridges] (s.useQuota (s.sliceOf w) use.1 use.2) t)) ∧
            (∀ d u, crossing w a.toNat = some d → s.freeReadTag d 0 = some u → Answers (.pairOutboundAccess w a op) s (fun t => t.bus = .wait g
              ∧ (t.bridge 4).reads = (s.bridge 4).reads ++ [⟨g, w, a.toNat, far, n, .bus, (s.bridge 4).sent, s.clock.up, false, false⟩]
              ∧ (t.bridge d).reads = (s.bridge d).reads ++ [⟨u, w, a.toNat, far, n, .leg g, (s.bridge d).sent, s.clock.up, false, false⟩]
              ∧ SameBut [.bus, .bridges] (s.useQuota (s.sliceOf w) use.1 use.2) t))) ∧
          (∀ bs, op = .write bs → Answers (.pairOutboundAccess w a op) s (fun t => t.bus = .done
            ∧ (∃ own, (t.bridge 4).posted = (s.bridge 4).posted ++ [⟨s.initId w, own, (s.bridge 4).sent, 0, a.toNat, far, bs, 0⟩])
            ∧ (t.bridge 4).sent = (s.bridge 4).sent + 1 ∧ SameBut [.bus, .bridges] (s.useQuota (s.sliceOf w) use.1 use.2) t)) ∧
          (∀ n g, op = .loadReserved n → startDie w = 0 → s.lapsedAt w a.toNat = false → s.holdsLocks w a.toNat = true →
            s.freeReadTag 4 0 = some g → Answers (.pairOutboundAccess w a op) s (fun t => t.bus = .wait g
              ∧ t.reserved? w a.toNat = true ∧ SameBut [.bus, .ecc, .bridges] (s.useQuota (s.sliceOf w) use.1 use.2) t)) ∧
          (∀ bs, op = .storeCond bs → s.lapsedAt w a.toNat = false → s.holdsLocks w a.toNat = true →
            (s.reserved? w a.toNat = true → Answers (.pairOutboundAccess w a op) s (fun t => t.bus = .data 0
              ∧ (t.bridge 4).sent = (s.bridge 4).sent + 1 ∧ t.reserved? w a.toNat = false
              ∧ SameBut [.bus, .ecc, .bridges] (s.useQuota (s.sliceOf w) use.1 use.2) t)) ∧
            (s.reserved? w a.toNat = false → exec (.pairOutboundAccess w a op) s
              = .next { (s.endSequence w a.toNat).useQuota (s.sliceOf w) use.1 use.2 with bus := .data 1 })) ∧
          (∀ f bs g, op = .atomic f bs → startDie w = 0 → s.lapsedAt w a.toNat = false → s.holdsLocks w a.toNat = true →
            s.freeReadTag 4 0 = some g → Answers (.pairOutboundAccess w a op) s (fun t => t.bus = .wait g ∧ t.holdsLocks w a.toNat = true
              ∧ (∃ r ∈ (t.bridge 4).reads, r.tag = g ∧ r.kind = .atomic f bs ∧ r.target = far)
              ∧ SameBut [.bus, .bridges] (s.useQuota (s.sliceOf w) use.1 use.2) t))) ∧
        (∀ n p, op = .read n p → s.pairCarries far = false → w.kind ≠ .seat →
          exec (.pairOutboundAccess w a op) s = .next { s.useQuota (s.sliceOf w) use.1 use.2 with bus := .error }) ∧
        (∀ bs, op = .write bs → s.boot.strapEn = true → s.pair.trained = false → s.rd (BRG_BARRIER.ENTRIES 4) < 64 →
          Answers (.pairOutboundAccess w a op) s (fun t => t.bus = .done ∧ (s.underTest srcPairPosted = false → t.Raised srcPairPosted)
            ∧ t.rd (BRG_PEL_INFO.REASON 4 (s.rd (BRG_BARRIER.ENTRIES 4))) = 9
            ∧ t.rd (BRG_BARRIER.ENTRIES 4) = s.rd (BRG_BARRIER.ENTRIES 4) + 1
            ∧ SameBut (.bus :: .bridges :: eventParts) (s.useQuota (s.sliceOf w) use.1 use.2) t)))))

/-- R18, R280, R339, R344, R348, R379: the Pair Link and the die links train and go down, the partner's life sign arrives or is missed, and the start
allowance ends. That a command which is not enabled leaves the state as it was is the model's choice (log entry 2), and so is what of the partner's
accesses the loss of the link ends (log entry 31). -/
def Obligations.LinksTrainAndGoDown : Prop :=
  (∀ s : State, s.Awake → s.boot.strapEn = true → s.pair.trained = false → Answers .pairLinkUp s (fun t => t.pair.trained = true
    ∧ t.pair.everTrained = true ∧ t.on (BRG_STATUS.LINK_UP 4) = true ∧ t.on (FCU_SRC_STATE.ASSERTING srcPairLinkDown) = false
    ∧ (t.bridge 4).reads = (s.bridge 4).reads.filter (fun r => !r.timedOut) ∧ SameBut [.regs, .boot, .bridges, .pair] s t)) ∧
  (∀ s : State, s.Awake → s.pair.trained = true → Answers .pairLinkDown s (fun t => t.pair = { s.pair with trained := false }
    ∧ t.on (BRG_STATUS.LINK_UP 4) = false ∧ t.on (FCU_SRC_STATE.ASSERTING srcPairLinkDown) = true
    ∧ (∀ r ∈ (t.bridge 4).reads, r.timedOut = true) ∧ (t.bridge 4).barriers = []
    ∧ ((∃ r ∈ (s.bridge 4).reads, r.timedOut = false ∧ r.squashed = false) → t.bus = .error)
    ∧ (∀ k < 5, (∀ l ∈ (t.bridge k).locks, l.holder ≠ 0x6000) ∧ (∀ p ∈ (t.bridge k).posted, p.init ≠ 0x6000))
    ∧ ((∃ k < 4, ∃ r ∈ (s.bridge k).reads, r.who.kind = .pair ∧ r.kind = .bus ∧ r.timedOut = false ∧ r.squashed = false) →
        t.bus = .error ∧ (s.underTest srcSliceSquash = false → t.Raised srcSliceSquash))
    ∧ SameBut [.bus, .regs, .ecc, .pins, .fcu, .bridges, .pair, .proc] s t)) ∧
  (∀ s : State, s.Awake → s.boot.strapEn = true → s.pair.allowanceOver = false → s.passed 0 (s.rd PAIR_ALIVE.START_10MS * 10000000) = true →
    Answers .pairStartAllowanceEnd s (fun t =>
    t.pair = { s.pair with allowanceOver := true }
    ∧ (s.pair.edgeSeen = false → t.on PAIR_ALIVE.LOST = true ∧ t.on (FCU_SRC_STATE.ASSERTING srcPairAliveLost) = true)
    ∧ (s.pair.everTrained = false → t.on (FCU_SRC_STATE.ASSERTING srcPairLinkDown) = true)
    ∧ (s.pair.edgeSeen = true → s.pair.everTrained = true → SameBut [.pair] s t)
    ∧ SameBut [.regs, .pins, .fcu, .pair, .proc] s t)) ∧
  (∀ s : State, s.Awake → s.boot.strapEn = true → Answers .aliveInEdge s (fun t =>
    t.pair = { s.pair with edgeSeen := true, lastEdge := s.clock.up } ∧ t.rd PAIR_ALIVE.EDGES = (s.rd PAIR_ALIVE.EDGES + 1) % 2 ^ 32
    ∧ (s.pair.edgeSeen = true → s.passed s.pair.lastEdge (s.rd PAIR_ALIVE.TIMEOUT_US * 1000) = false →
        t.on PAIR_ALIVE.LOST = false ∧ t.on (FCU_SRC_STATE.ASSERTING srcPairAliveLost) = false)
    ∧ (s.pair.edgeSeen = false ∨ s.passed s.pair.lastEdge (s.rd PAIR_ALIVE.TIMEOUT_US * 1000) = true →
        t.on PAIR_ALIVE.LOST = s.on PAIR_ALIVE.LOST) ∧ SameBut [.regs, .pair] s t)) ∧
  (∀ s : State, s.Awake → s.boot.strapEn = true → s.pair.edgeSeen = true →
    s.passed s.pair.lastEdge (s.rd PAIR_ALIVE.TIMEOUT_US * 1000) = true → Answers .aliveInTimeout s (fun t =>
    t.on PAIR_ALIVE.LOST = true ∧ t.on (FCU_SRC_STATE.ASSERTING srcPairAliveLost) = true ∧ SameBut eventParts s t)) ∧
  (∀ s : State, s.Awake → s.boot.strapEn = false → ∀ c ∈ [Instr.pairLinkUp, .pairStartAllowanceEnd, .aliveInEdge, .aliveInTimeout],
    exec c s = .next s) ∧
  (∀ s : State, s.Awake →
    (bit s.pwr.linksUp 0 = true → Answers (.dieLinkDown .compute) s (fun t => bit t.pwr.linksUp 0 = false
      ∧ t.on (FCU_SRC_STATE.ASSERTING srcDieLinkDownC) = true ∧ t.dies = s.dies ∧ SameBut [.regs, .pins, .fcu, .pwr, .proc, .bridges] s t)) ∧
    (∀ p ∈ [(DieLink.hub0, 0), (.hub1, 1)], bit s.pwr.linksUp (p.2 + 1) = true → Answers (.dieLinkDown p.1) s (fun t =>
      (t.die p.2).powered = false ∧ (t.die p.2).held = true ∧ bit t.pwr.linksUp (p.2 + 1) = false ∧ bit t.pwr.linksUp 0 = false
      ∧ t.on (FCU_SRC_STATE.ASSERTING (srcDieLinkDownH p.2)) = true)) ∧
    (bit s.pwr.linksUp 0 = false → (s.die 0).powered = true → (s.die 1).powered = true → Answers (.dieLinkTrained .compute) s (fun t =>
      bit t.pwr.linksUp 0 = true ∧ t.on (FCU_SRC_STATE.ASSERTING srcDieLinkDownC) = false ∧ SameBut [.regs, .pwr, .bridges] s t)) ∧
    (∀ p ∈ [(DieLink.hub0, 0), (.hub1, 1)], bit s.pwr.linksUp (p.2 + 1) = false → (s.die p.2).powered = true →
      Answers (.dieLinkTrained p.1) s (fun t => bit t.pwr.linksUp (p.2 + 1) = true
        ∧ t.on (FCU_SRC_STATE.ASSERTING (srcDieLinkDownH p.2)) = false ∧ SameBut [.regs, .pwr, .bridges] s t)))

/-! ### Queues, the gateway and time -/

/-- R353-R357, R359: a write of QMGR_QCFG enables a queue with PROD and CONS at 0, unless its minimum does not fit the cell pool; a read clears
DROPPED; a doorbell that the checks accept moves its count and no other, and any other is refused and logged. R362, R418: the device consumes a
transmit entry in ring order; a malformed one, or one whose read is refused, is consumed and counted; a DIRECT frame joins the queue that it names
where that queue admits it, and CONS passes its entry at once only where no timestamp was requested. The error response of a doorbell while the Queue
Manager does not work is the model's (log entry 24), and so is which entry is one of a CAN frame (log entry 32). -/
def Obligations.QueuesServeTheHost : Prop :=
  (∀ (s : State) (w : Initiator) (d : Word) (n : Nat), s.Awake → s.Reaches w .qmgr_qcfg 0 0 true → n = s.qSelected w →
    Answers (.qmgrQcfgWrite w d) s (fun t => t.bus = .done
      ∧ (bit d.toNat 15 = false → (t.queue n).enabled = false)
      ∧ (bit d.toNat 15 = true → (s.queue n).enabled = true ∨ isNetQueue n = false → (t.queue n).enabled = true)
      ∧ (bit d.toNat 15 = true → (s.queue n).enabled = false → isNetQueue n = false → (t.queue n).prod = 0 ∧ (t.queue n).cons = 0)
      ∧ (bit d.toNat 15 = true → (s.queue n).enabled = false → isNetQueue n = true → 65536 < s.reservedBut n 14 + (s.queue n).minCells →
          (t.queue n).enabled = false)
      ∧ (bit d.toNat 15 = true → (s.queue n).enabled = false → isNetQueue n = true →
          s.reservedBut n 14 + (s.queue n).minCells + (if isHostQueue n then hostCells else 0) ≤ 65536 →
          (t.queue n).enabled = true ∧ (t.queue n).prod = 0 ∧ (t.queue n).cons = 0)
      ∧ (bit d.toNat 15 = false ∨ (s.queue n).enabled = true → (t.queue n).prod = (s.queue n).prod ∧ (t.queue n).cons = (s.queue n).cons
          ∧ t.mbox = s.mbox)
      ∧ bits (t.queue n).c 35 24 = bits d.toNat 35 24 ∧ (∀ k, k ≠ n → t.queue k = s.queue k)
      ∧ SameBut (.bus :: .queues :: .mbox :: .gw :: eventParts) (s.through w .qmgr_qcfg 0 0) t)) ∧
  (∀ (s : State) (w : Initiator) (n : Nat), s.Awake → s.Reaches w .qmgr_qcfg 0 0 false → n = s.qSelected w →
    Answers (.qmgrQcfgRead w) s (fun t => t.bus = .data (s.queue n).c ∧ (t.queue n).dropped = 0 ∧ (t.queue n).c = (s.queue n).c % 2 ^ 48
      ∧ (t.queue n).prod = (s.queue n).prod ∧ (t.queue n).cons = (s.queue n).cons ∧ (∀ k, k ≠ n → t.queue k = s.queue k)
      ∧ SameBut [.bus, .queues] (s.asked w .qmgr_qcfg 0 0) t)) ∧
  (∀ (s v : State) (w : Initiator) (d : Word) (n c : Nat) (b : Bool), s.Awake → s.Reaches w .qmgr_doorbell 0 0 true → n = bits d.toNat 47 32 →
    c = bits d.toNat 31 0 → b = bit d.toNat 63 → v = s.through w .qmgr_doorbell 0 0 →
    (s.qmgrUp = false → exec (.qmgrDoorbell w d) s = .next { v with bus := .error }) ∧
    (s.qmgrUp = true →
      (∀ r, s.bellRefused w n b c = some r → Answers (.qmgrDoorbell w d) s (fun t => (startDie w = 0 → t.bus = .error)
        ∧ Logged (hubViol r) (s.ctx w) QMGR_DOORBELL.addr true s t ∧ SameBut (.bus :: .bridges :: eventParts) v t)) ∧
      (s.bellRefused w n b c = none → isMladnel n = false → Answers (.qmgrDoorbell w d) s (fun t => t.bus = .done
        ∧ (b = false → (t.queue n).prod = c ∧ (t.queue n).cons = (s.queue n).cons)
        ∧ (b = true → (t.queue n).cons = c ∧ (t.queue n).prod = (s.queue n).prod)
        ∧ (∀ k, k ≠ n → t.queue k = s.queue k) ∧ SameBut [.bus, .irqOut, .queues] v t)) ∧
      (s.bellRefused w n b c = none → isMladnel n = true → n % 2 = 0 → b = false → Answers (.qmgrDoorbell w d) s (fun t => t.bus = .done
        ∧ (t.queue n).prod = c ∧ (t.mb ((n - 57344) / 2)).senders = (s.mb ((n - 57344) / 2)).senders
            ++ List.replicate ((c + 2 ^ 32 - (s.queue n).prod) % 2 ^ 32) w
        ∧ SameBut [.bus, .irqOut, .queues, .mbox] v t)))) ∧
  (∀ (s u : State) (n : Fin 24576) (x : StdVerdict) (q : Nat) (o : Option (List Byte)), s.Awake → s.gwUp = true → q = 32768 + n.val →
    isHostQueue q = true → (s.queue q).enabled = true → (s.queue q).hostTx = true → (s.queue q).occupancy ≠ 0 →
    Table.get s.gw.txWait [] q = [] → s.qReadWaits q ((s.queue q).cons % 2 ^ 32) = false → s.qRead q ((s.queue q).cons % 2 ^ 32) = (u, o) →
    (o = none ∨ (∃ e, o = some e ∧ txEntryOk e = false) → Answers (.hostTxConsume n x) s (fun t =>
      (t.queue q).cons = ((s.queue q).cons + 1) % 2 ^ 32 ∧ (t.queue q).dropped = min ((s.queue q).dropped + 1) 65535
      ∧ SameBut [.queues, .gw] u t)) ∧
    (∀ e v d p c, o = some e → txEntryOk e = true → u.ctxWaits (s.queue q).devCtx (leAt e 0 8) (leAt e 8 2) false = false →
      u.ctxRead (s.queue q).devCtx (leAt e 0 8) (leAt e 8 2) = (v, some d) →
      p = leAt e 10 1 → c = leAt e 11 1 → bit (leAt e 12 1) 0 = true → txIsCan e = false → x.cellUe = false → s.portTakes p = true →
      s.admits (ethQueue p c) hostCells = true → Answers (.hostTxConsume n x) s (fun t =>
        (t.queue q).cons = (if bit (leAt e 12 1) 1 then (s.queue q).cons else ((s.queue q).cons + 1) % 2 ^ 32)
        ∧ Table.get t.gw.txWait [] q = (if bit (leAt e 12 1) 1 then [1] else [])
        ∧ t.heldBy (ethQueue p c) = s.heldBy (ethQueue p c) ++ [s.gw.nextFrame]
        ∧ (∃ g, t.frame? s.gw.nextFrame = some g ∧ g.bytes = d ∧ g.port = 32)
        ∧ SameBut (.queues :: .gw :: readParts) s t)))

/-- R363-R366: the operations on the classification table. They act on the inactive bank only, each with its RESULT; SWITCH makes it the active one; a
GO while a copy runs does nothing; the gateway image is loaded once, and only where it verifies. That an INSERT sets VALID is the model's choice (log
entry 32), and so are that a command which is not enabled leaves the state as it was (log entry 2) and where the grandmaster comes from (log entry 95). -/
def Obligations.TheClassificationTable : Prop :=
  (∀ (s v : State) (w : Initiator) (d : Word) (b : Nat) (e : List Byte), s.Awake → s.Reaches w .gw_gct_ctrl 0 0 true → bit d.toNat 63 = true →
    b = 1 - s.activeBank → e = s.gctData → v = s.through w .gw_gct_ctrl 0 0 →
    (s.gw.copyBusy = true → ∀ p ∈ [(0, Instr.gctInsert w d), (1, .gctDelete w d), (2, .gctRead w d), (3, .gctCopy w d), (4, .gctSwitch w d)],
      bits d.toNat 62 60 = p.1 → Answers p.2 s (fun t => t.bus = .done ∧ t.activeBank = s.activeBank
        ∧ t.rd GW_GCT_CTRL.RESULT = s.rd GW_GCT_CTRL.RESULT ∧ SameBut [.bus, .regs] v t ∧ RegsBut [GW_GCT_CTRL] s t)) ∧
    (s.gw.copyBusy = false →
      (bits d.toNat 62 60 = 0 →
        (∀ r, (entryOk e = false ∧ r = 4) ∨ (entryOk e = true ∧ (s.keyIndex b (keyOf e)).isSome = true ∧ r = 2)
            ∨ (entryOk e = true ∧ s.keyIndex b (keyOf e) = none ∧ s.freeWay b (keyOf e) = none ∧ r = 1) →
          Answers (.gctInsert w d) s (fun t => t.bus = .done ∧ t.rd GW_GCT_CTRL.RESULT = r ∧ SameBut [.bus, .regs] v t ∧ RegsBut [GW_GCT_CTRL] s t)) ∧
        (∀ i, entryOk e = true → s.keyIndex b (keyOf e) = none → s.freeWay b (keyOf e) = some i →
          Answers (.gctInsert w d) s (fun t => t.bus = .done ∧ t.rd GW_GCT_CTRL.RESULT = 0 ∧ t.rd GW_GCT_CTRL.INDEX = i
            ∧ Table.find (t.bank b) i = some (validEntry e) ∧ (∀ k, k ≠ i → Table.find (t.bank b) k = Table.find (s.bank b) k)
            ∧ t.rd GW_GCT_CTRL.ENTRIES = (t.bank b).length % 2 ^ 17 ∧ t.bank (1 - b) = s.bank (1 - b) ∧ t.activeBank = s.activeBank
            ∧ SameBut [.bus, .regs, .gw] v t ∧ RegsBut [GW_GCT_CTRL] s t))) ∧
      (bits d.toNat 62 60 = 1 →
        (s.keyIndex b (keyOf e) = none → Answers (.gctDelete w d) s (fun t => t.bus = .done ∧ t.rd GW_GCT_CTRL.RESULT = 3
          ∧ SameBut [.bus, .regs] v t ∧ RegsBut [GW_GCT_CTRL] s t)) ∧
        (∀ i, s.keyIndex b (keyOf e) = some i → Answers (.gctDelete w d) s (fun t => t.bus = .done ∧ t.rd GW_GCT_CTRL.RESULT = 0
          ∧ Table.find (t.bank b) i = none ∧ (∀ k, k ≠ i → Table.find (t.bank b) k = Table.find (s.bank b) k)
          ∧ t.rd GW_GCT_CTRL.ENTRIES = (t.bank b).length % 2 ^ 17 ∧ t.bank (1 - b) = s.bank (1 - b)
          ∧ SameBut [.bus, .regs, .gw] v t ∧ RegsBut [GW_GCT_CTRL] s t))) ∧
      (bits d.toNat 62 60 = 2 →
        Answers (.gctRead w d) s (fun t => t.bus = .done ∧ t.rd GW_GCT_CTRL.RESULT = 0
          ∧ (∀ k < 4, t.reg64 (GW_GCT_DATA k) = leAt ((Table.find (s.bank (bits d.toNat 16 16)) (bits d.toNat 15 0)).getD (List.replicate 32 0#8))
              (8 * k) 8) ∧ SameBut [.bus, .regs] v t ∧ RegsBut (GW_GCT_CTRL :: (List.range 4).map GW_GCT_DATA) s t)) ∧
      (bits d.toNat 62 60 = 3 → Answers (.gctCopy w d) s (fun t => t.bus = .done ∧ t.gw = { s.gw with copyBusy := true }
        ∧ t.on GW_GCT_CTRL.GO = true ∧ SameBut [.bus, .regs, .gw] v t ∧ RegsBut [GW_GCT_CTRL] s t)) ∧
      (bits d.toNat 62 60 = 4 → Answers (.gctSwitch w d) s (fun t => t.bus = .done ∧ t.activeBank = b ∧ t.rd GW_GCT_CTRL.RESULT = 0
        ∧ SameBut [.bus, .regs] v t ∧ RegsBut [GW_GCT_CTRL] s t)))) ∧
  (∀ s : State, s.Awake → s.gw.copyBusy = true → Answers .gctCopyEnd s (fun t => t.gw.copyBusy = false ∧ t.on GW_GCT_CTRL.GO = false
    ∧ t.bank (1 - s.activeBank) = (s.bank s.activeBank).filter (fun p => !s.wayBad s.activeBank p.1)
    ∧ t.bank s.activeBank = s.bank s.activeBank ∧ t.activeBank = s.activeBank ∧ SameBut [.regs, .gw] s t ∧ RegsBut [GW_GCT_CTRL] s t)) ∧
  (∀ (s : State) (i : GatewayImage), s.Awake → s.scRunning = true → s.boot.gwDone = false →
    Answers (.gatewayImageLoad i) s (fun t => t.boot.gwDone = true
      ∧ (i = .absent → SameBut [.regs, .boot] s t)
      ∧ (∀ r c, i = .good r c → s.rootOk r = true → t.on TIME_CTRL.SYNC_EN = c.time.syncEn
          ∧ (c.time.syncEn = true → c.time.master = true → t.rd TIME_STATUS.STATE = tsGrandmaster))
      ∧ (i = .invalid ∨ (∃ r c, i = .good r c ∧ s.rootOk r = false) →
          (s.underTest srcFwAuthFail = false → t.Raised srcFwAuthFail) ∧ SameBut (.boot :: eventParts) s t)
      ∧ SameBut (.boot :: .queues :: .mbox :: .gw :: eventParts) s t)) ∧
  (∀ (s : State) (i : GatewayImage), s.Awake → s.boot.gwDone = true → exec (.gatewayImageLoad i) s = .next s)

/-- R21, R349-R351, R359-R368, R401: while the domains of the gateway run, a received frame is counted, and one that its entry forwards joins each queue that
admits it, one copy to each; a frame that misses or is filtered joins none; the head of a queue is sent when it is the turn of its class, with an inverted
FCS where its own was bad, is counted, and leaves the queue; one with an uncorrectable cell is dropped, but for a copy that goes cut-through; bus-off and
link state are kept, and the frames of a port whose link goes down are freed; a gate control list moves to its next entry when the present one has ended;
ENABLE of a port holds only where the reservations fit. A port or controller whose domain is stopped neither receives nor sends. That a command which
is not enabled leaves the state as it was is the model's choice (log entry 2), and so are the line times (log entry 93) and what is counted (log entry
94). -/
def Obligations.FramesAreForwarded : Prop :=
  (∀ (s m u v : State) (p : Fin 14) (f : EthFrame) (x : StdVerdict) (e : List Byte) (cls c : Nat), s.Awake → s.ethUp p.val = true →
    s.portTakes p.val = true → 14 ≤ f.bytes.length → f.bytes.length + 4 ≤ s.rd (GW_PORT_CFG.MTU p.val) → x.cellUe = false →
    cls = (if isTagged f.bytes then tciOf f.bytes / 8192 else s.rd (GW_PORT_CFG.UNTAGGED_PCP p.val)) →
    c = s.judgedCells p.val f.bytes.length → m = s.mibRx p.val (f.bytes.length + 4) (!f.fcsOk) →
    (m.markWays x.wayUe).lookup (fun k => ethKey k f.bytes (vidOf f.bytes)) p.val = (u, some e) →
    (Table.get m.gw.mib 0 (8 * p.val) = (Table.get s.gw.mib 0 (8 * p.val) + 1) % 2 ^ 64
      ∧ Table.get m.gw.mib 0 (8 * p.val + 1) = (Table.get s.gw.mib 0 (8 * p.val + 1) + (f.bytes.length + 4)) % 2 ^ 64) ∧
    (∀ b, u.policed e x = (v, b) → b = false ∨ eAction e = 1 → Answers (.ethFrameReceive p f x) s (fun t =>
      t.gw = (m.markWays x.wayUe).gw ∧ SameBut (.gw :: eventParts) s t)) ∧
    (u.policed e x = (v, true) → eAction e ≠ 1 → entryOk e = true → eFlag e 0 = false → eFlag e 2 = false → f.fcsOk = true →
      Answers (.ethFrameReceive p f x) s (fun t =>
        (∀ q ∈ ethQueues (eEthMask e) cls, s.portTakes (portOf q) = true → s.admits q c = true →
          t.heldBy q = s.heldBy q ++ [s.gw.nextFrame]
          ∧ ∃ g, t.frame? s.gw.nextFrame = some g ∧ g.bytes = f.bytes ∧ g.port = p.val ∧ g.stamp = s.clock.now)
        ∧ (∀ q ∈ ethQueues (eEthMask e) cls, s.portTakes (portOf q) = false ∨ s.admits q c = false → t.heldBy q = s.heldBy q)
        ∧ t.gw.mib = m.gw.mib ∧ SameBut (.gw :: queueParts) s t))) ∧
  (∀ (s m u v : State) (k : Fin 16) (f : CanFrame) (x : StdVerdict), s.Awake → s.canUp = true → s.gw.canOn.contains k.val = true →
    s.gw.busOff.contains k.val = false → m = s.mibRx (16 + k.val) f.data.length false →
    (x.cellUe = true → Answers (.canFrameReceive k f x) s (fun t =>
      t.gw = m.gw ∧ (s.underTest srcGwBufUe = false → t.Raised srcGwBufUe) ∧ SameBut (.gw :: eventParts) s t)) ∧
    (x.cellUe = false → (m.markWays x.wayUe).lookup (fun n => canKey n f) (16 + k.val) = (u, none) → Answers (.canFrameReceive k f x) s (fun t =>
      t.gw = (m.markWays x.wayUe).gw ∧ SameBut (.gw :: eventParts) s t)) ∧
    (∀ e, x.cellUe = false → (m.markWays x.wayUe).lookup (fun n => canKey n f) (16 + k.val) = (u, some e) → u.policed e x = (v, true) →
      eAction e ≠ 1 → entryOk e = true → Answers (.canFrameReceive k f x) s (fun t =>
        (∀ q ∈ canQueues (eCanMask e) (eClass e), s.gw.canOn.contains ((q - 32880) / 4) = true → s.admits q canCells = true →
          t.heldBy q = s.heldBy q ++ [s.gw.nextFrame]
          ∧ ∃ g, t.frame? s.gw.nextFrame = some g ∧ g.can = some (if eFlag e 3 then { f with ident := eNewId e } else f)
            ∧ g.port = 16 + k.val ∧ g.stamp = s.clock.now)
        ∧ SameBut (.gw :: queueParts) s t))) ∧
  (∀ (s : State) (p : Fin 14) (cls : Fin 8) (x : TxEnd), s.Awake →
    (s.classTurn p.val cls.val = false → exec (.ethFrameTransmit p cls x) s = .next s) ∧
    (∀ i l f, s.ethUp p.val = true → s.portTakes p.val = true → s.classTurn p.val cls.val = true →
      s.heldBy (ethQueue p.val cls.val) = i :: l → s.frame? i = some f →
      (x.cellUe = false → Answers (.ethFrameTransmit p cls x) s (fun t => t.gw.sent = some ⟨p.val, f.payload, !f.fcsOk⟩
        ∧ t.heldBy (ethQueue p.val cls.val) = (s.heldBy (ethQueue p.val cls.val)).filter (· ≠ i)
        ∧ Table.get t.gw.busy 0 p.val = s.clock.now + s.lineTime p.val (f.bytes.length + 4)
        ∧ Table.get t.gw.mib 0 (8 * p.val + 3) = (Table.get s.gw.mib 0 (8 * p.val + 3) + 1) % 2 ^ 64
        ∧ SameBut (.gw :: .queues :: writeParts) s t)) ∧
      (x.cellUe = true → Answers (.ethFrameTransmit p cls x) s (fun t =>
        (s.underTest srcGwBufUe = false → t.Raised srcGwBufUe)
        ∧ (f.cut.contains (ethQueue p.val cls.val) = true → t.gw.sent = some ⟨p.val, f.payload, true⟩)
        ∧ (f.cut.contains (ethQueue p.val cls.val) = false → t.gw.sent = s.gw.sent)
        ∧ (f.copies.contains (ethQueue p.val cls.val) = true → (t.heldBy (ethQueue p.val cls.val)).contains i = false)
        ∧ SameBut (.gw :: .queues :: writeParts) s t)))) ∧
  (∀ (s : State) (x : CanSend) (k n q i : Nat) (f : GwFrame), s.Awake → k = x.ctl.val → s.canUp = true → s.gw.canOn.contains k = true →
    s.gw.busOff.contains k = false → s.canHead k = some (n, q, i) → s.frame? i = some f →
    (x.cellUe = false → Answers (.canFrameTransmit x) s (fun t =>
      t.gw.sent = some ⟨16 + k, f.payload, false⟩ ∧ t.heldBy q = (s.heldBy q).filter (· ≠ i)
      ∧ Table.get t.gw.mib 0 (8 * (16 + k) + 3) = (Table.get s.gw.mib 0 (8 * (16 + k) + 3) + 1) % 2 ^ 64
      ∧ SameBut (.gw :: .queues :: writeParts) s t)) ∧
    (x.cellUe = true → Answers (.canFrameTransmit x) s (fun t =>
      (s.underTest srcGwBufUe = false → t.Raised srcGwBufUe) ∧ (f.copies.contains q = true → (t.heldBy q).contains i = false)
      ∧ t.gw.sent = s.gw.sent ∧ SameBut (.gw :: .queues :: eventParts) s t))) ∧
  (∀ (s : State) (p : Fin 14) (f : EthFrame) (x : StdVerdict) (cls : Fin 8) (y : TxEnd), s.Awake → s.ethUp p.val = false →
    exec (.ethFrameReceive p f x) s = .next s ∧ exec (.ethFrameTransmit p cls y) s = .next s) ∧
  (∀ (s : State) (k : Fin 16) (f : CanFrame) (x : StdVerdict) (y : CanSend), s.Awake → s.canUp = false →
    exec (.canFrameReceive k f x) s = .next s ∧ exec (.canFrameTransmit y) s = .next s) ∧
  (∀ (s : State) (k : Fin 16), s.Awake →
    (s.gw.canOn.contains k.val = true → s.gw.busOff.contains k.val = false →
      Answers (.canBusOff k) s (fun t => t.gw = { s.gw with busOff := s.gw.busOff ++ [k.val] }
        ∧ (s.underTest srcCanBusOff = false → t.Raised srcCanBusOff) ∧ SameBut (.gw :: eventParts) s t)) ∧
    Answers (.canBusOffRecovery k) s (fun t => t.gw = { s.gw with busOff := s.gw.busOff.filter (· ≠ k.val) } ∧ SameBut [.gw] s t)) ∧
  (∀ (s : State) (p : Fin 14), s.Awake →
    Answers (.ethLinkDown p) s (fun t => t.on (GW_PORT_CFG.LINK p.val) = false
      ∧ (s.on (GW_PORT_CFG.ENABLE p.val) = true → t.on (FCU_SRC_STATE.ASSERTING srcGwPortDown) = true)
      ∧ (∀ c < 8, t.heldBy (ethQueue p.val c) = []
          ∧ ∀ i f, i ∈ s.heldBy (ethQueue p.val c) → s.frame? i = some f → f.copies = [ethQueue p.val c] → t.frame? i = none)
      ∧ SameBut (.queues :: .gw :: eventParts) s t) ∧
    Answers (.ethLinkUp p) s (fun t => t.on (GW_PORT_CFG.LINK p.val) = true
      ∧ ((∀ k < 14, k ≠ p.val → s.on (GW_PORT_CFG.ENABLE k) = true → s.on (GW_PORT_CFG.LINK k) = true) →
          t.on (FCU_SRC_STATE.ASSERTING srcGwPortDown) = false) ∧ SameBut eventParts s t)) ∧
  (∀ (s : State) (p : Fin 14), s.Awake →
    (Table.find s.gw.gates p.val = none → exec (.qbvGateChange p) s = .next s) ∧
    (∀ g, Table.find s.gw.gates p.val = some g → Answers (.qbvGateChange p) s (fun t => ∃ h, Table.find t.gw.gates p.val = some h
      ∧ h.list = g.list ∧ h.starts = g.starts
      ∧ (g.place = none → s.clock.now < g.starts → h.place = none)
      ∧ (g.place = none → g.starts ≤ s.clock.now → ∃ e, h.place = some (0, g.starts, e) ∧ e ≤ g.starts + g.list.cycle)
      ∧ (∀ k start stop, g.place = some (k, start, stop) →
          (s.clock.now < stop → h.place = g.place)
          ∧ (stop ≤ s.clock.now → g.list.entries.length ≤ k + 1 → ∃ e, h.place = some (0, start + g.list.cycle, e))
          ∧ (stop ≤ s.clock.now → k + 1 < g.list.entries.length → stop < start + g.list.cycle →
              ∃ e, h.place = some (k + 1, start, e) ∧ e ≤ start + g.list.cycle))
      ∧ (∀ k, k ≠ p.val → Table.find t.gw.gates k = Table.find s.gw.gates k) ∧ SameBut [.gw] s t))) ∧
  (∀ (s u : State) (w : Initiator) (p : Fin 14) (d : Word), s.Awake → s.Reaches w .gw_port_cfg p.val 0 true →
    u = s.plainWrite (GW_PORT_CFG p.val) (RegFam.fields .gw_port_cfg) false d.toNat portCfgOk →
    Answers (.gwPortCfgWrite w p d) s (fun t => t.bus = .done ∧ t.rd (GW_PORT_CFG.MTU p.val) = u.rd (GW_PORT_CFG.MTU p.val)
      ∧ t.rd (GW_PORT_CFG.LINK p.val) = s.rd (GW_PORT_CFG.LINK p.val)
      ∧ (64 ≤ bits d.toNat 49 36 → bits d.toNat 49 36 ≤ 9216 → t.rd (GW_PORT_CFG.MTU p.val) = bits d.toNat 49 36)
      ∧ t.on (GW_PORT_CFG.ENABLE p.val) = (bit d.toNat 0 && (s.on (GW_PORT_CFG.ENABLE p.val)
          || decide (u.reservedBut 65536 p.val + mtuCells (u.rd (GW_PORT_CFG.MTU p.val)) ≤ 65536)))
      ∧ SameBut (.bus :: .gw :: eventParts) (s.through w .gw_port_cfg p.val 0) t))

/-- R370-R373, R397: a Sync that comes after the last one gives a measurement, with the PHY delay of its port in the path delay; the first may step
Vehicle Time forward and is refused where it would step it back; one within the threshold locks Vehicle Time at a bounded rate, one beyond it is refused
into HOLDOVER, or caught up with; the receipt timeout enters HOLDOVER and ACCEPT leaves it. A time-triggered output is armed only far enough ahead, and
pulses at its times. That a command which is not enabled leaves the state as it was (log entries 2, 8), and that an old Sync gives no measurement (log
entry 95), are the model's choices. -/
def Obligations.VehicleTimeAndPulses : Prop :=
  (∀ (s : State) (x : SyncMeasure) (m : Bool), s.Awake →
    (s.on TIME_CTRL.SYNC_EN = false ∨ s.rd TIME_STATUS.STATE = tsGrandmaster ∨ s.syncNew x.seq m = false → exec (.gptpSync x m) s = .next s) ∧
    (m = true ∨ s.time.seq = none → s.syncNew x.seq m = true) ∧
    (∀ k, m = false → s.time.seq = some k → (s.syncNew x.seq m = true ↔ 0 < (x.seq.toNat + 65536 - k.toNat) % 65536 ∧ (x.seq.toNat + 65536 - k.toNat) % 65536 < 32768))) ∧
  (∀ (s : State) (x : SyncMeasure) (m : Bool) (o : Int), s.Awake → s.on TIME_CTRL.SYNC_EN = true → s.rd TIME_STATUS.STATE ≠ tsGrandmaster →
    s.syncNew x.seq m = true → o = x.offset + (Table.get s.gw.phy 0 x.port.val : Nat) →
    Answers (.gptpSync x m) s (fun t => signedOf 32 (t.rd TIME_STATUS.OFFSET_NS) = max (-2147483648) (min o 2147483647)
      ∧ t.time.seq = some x.seq
      ∧ (m = true → s.underTest srcTimeGm = false → t.Raised srcTimeGm)
      ∧ (s.rd TIME_STATUS.STATE = tsUnsynced → s.on TIME_CTRL.INIT_STEP = true → 0 < o → t.clock = { s.clock with now := s.clock.now + o.toNat }
          ∧ t.rd TIME_STATUS.STATE = tsLocked ∧ t.on TIME_CTRL.INIT_STEP = false
          ∧ (∀ n < 8, ∀ e, Table.find s.time.next n = some e → e < s.clock.now + o.toNat → s.underTest srcTtoMissed = false → t.Raised srcTtoMissed))
      ∧ (s.rd TIME_STATUS.STATE ≠ tsUnsynced ∨ s.on TIME_CTRL.INIT_STEP = false ∨ o ≤ 0 → t.clock = s.clock ∧ t.gw = s.gw ∧ t.rast = s.rast)
      ∧ (s.rd TIME_STATUS.STATE = tsUnsynced → s.on TIME_CTRL.INIT_STEP = true → o < 0 → t.rd TIME_STATUS.STATE = tsHoldover
          ∧ (s.underTest srcTimeJump = false → t.Raised srcTimeJump) ∧ t.rd TIME_STATUS.RATE_PPB = s.rd TIME_STATUS.RATE_PPB
          ∧ t.on (FCU_SRC_STATE.ASSERTING srcTimeHoldover) = true)
      ∧ (s.rd TIME_STATUS.STATE ≠ tsUnsynced ∨ s.on TIME_CTRL.INIT_STEP = false ∨ o = 0 →
          (o.natAbs ≤ s.rd TIME_CTRL.JUMP_THR_US * 1000 → t.rd TIME_STATUS.STATE = tsLocked
              ∧ (signedOf 21 (t.rd TIME_STATUS.RATE_PPB)).natAbs ≤ 500000)
          ∧ (s.rd TIME_CTRL.JUMP_THR_US * 1000 < o.natAbs → s.rd TIME_STATUS.STATE = tsCatchup → t.rd TIME_STATUS.STATE = tsCatchup
              ∧ signedOf 21 (t.rd TIME_STATUS.RATE_PPB) = (if 0 ≤ o then 500000 else -500000))
          ∧ (s.rd TIME_CTRL.JUMP_THR_US * 1000 < o.natAbs → s.rd TIME_STATUS.STATE ≠ tsCatchup → t.rd TIME_STATUS.STATE = tsHoldover
              ∧ (s.underTest srcTimeJump = false → t.Raised srcTimeJump) ∧ t.rd TIME_STATUS.RATE_PPB = s.rd TIME_STATUS.RATE_PPB
              ∧ t.on (FCU_SRC_STATE.ASSERTING srcTimeHoldover) = true))
      ∧ SameBut [.fresh, .regs, .pins, .clock, .fcu, .rast, .proc, .gw, .time] s t)) ∧
  (∀ s : State, s.Awake → s.on TIME_CTRL.SYNC_EN = true → s.rd TIME_STATUS.STATE ≠ tsGrandmaster → Answers .gptpSyncTimeout s (fun t =>
    t.rd TIME_STATUS.STATE = tsHoldover ∧ t.rd TIME_STATUS.RATE_PPB = s.rd TIME_STATUS.RATE_PPB ∧ t.time = { s.time with seq := none }
    ∧ t.on (FCU_SRC_STATE.ASSERTING srcTimeHoldover) = true ∧ SameBut (.time :: eventParts) s t)) ∧
  (∀ (s : State) (w : Initiator) (d : Word), s.Awake → s.Reaches w .time_ctrl 0 0 true → bit d.toNat 1 = true →
    Answers (.timeAccept w d) s (fun t => t.bus = .done ∧ SameBut [.bus, .regs] (s.through w .time_ctrl 0 0) t ∧ RegsBut [TIME_CTRL, TIME_STATUS] s t
      ∧ (s.rd TIME_STATUS.STATE = tsHoldover → t.rd TIME_STATUS.STATE = tsCatchup ∧ signedOf 21 (t.rd TIME_STATUS.RATE_PPB)
          = (if 0 ≤ signedOf 32 (s.rd TIME_STATUS.OFFSET_NS) then 500000 else -500000))
      ∧ (s.rd TIME_STATUS.STATE ≠ tsHoldover → t.reg64 TIME_STATUS = s.reg64 TIME_STATUS))) ∧
  (∀ (s u : State) (w : Initiator) (n : Fin 8) (d : Word), s.Awake → s.Reaches w .time_tto_cfg n.val 0 true →
    u = s.plainWrite (TIME_TTO_CFG n.val) (RegFam.fields .time_tto_cfg) false d.toNat (fun x k => if x.lo = 4 then k ≠ 0 else x.lo ≠ 0) →
    (s.on (TIME_TTO_CFG.ENABLE n.val) = true → bit d.toNat 0 = false → Answers (.ttoEnable w n d) s (fun t => t.bus = .done
      ∧ t.on (TIME_TTO_CFG.ENABLE n.val) = false ∧ Table.find t.time.next n.val = none ∧ SameBut [.bus, .regs, .time] (s.through w .time_tto_cfg n.val 0) t)) ∧
    (s.on (TIME_TTO_CFG.ENABLE n.val) = false → bit d.toNat 0 = true → u.rd (TIME_TTO_CFG.WIDTH_NS n.val) ≠ 0 →
      u.rd (TIME_TTO_CFG.PERIOD_NS n.val) = 0 ∨ u.rd (TIME_TTO_CFG.WIDTH_NS n.val) < u.rd (TIME_TTO_CFG.PERIOD_NS n.val) →
      (s.clock.now + 1000 ≤ s.rd (TIME_TTO_START.START n.val) → Answers (.ttoEnable w n d) s (fun t => t.bus = .done
        ∧ t.on (TIME_TTO_CFG.ENABLE n.val) = true ∧ Table.find t.time.next n.val = some (s.rd (TIME_TTO_START.START n.val))
        ∧ SameBut [.bus, .regs, .time] (s.through w .time_tto_cfg n.val 0) t)) ∧
      (s.rd (TIME_TTO_START.START n.val) < s.clock.now + 1000 →
        Answers (.ttoEnable w n d) s (fun t => t.bus = .done ∧ (s.underTest srcTtoMissed = false → t.Raised srcTtoMissed)
          ∧ (u.rd (TIME_TTO_CFG.PERIOD_NS n.val) = 0 → t.on (TIME_TTO_CFG.ENABLE n.val) = false ∧ t.time = s.time)
          ∧ (u.rd (TIME_TTO_CFG.PERIOD_NS n.val) ≠ 0 → t.on (TIME_TTO_CFG.ENABLE n.val) = true ∧ Table.find t.time.next n.val
              = some (nextPulse (s.rd (TIME_TTO_START.START n.val)) (u.rd (TIME_TTO_CFG.PERIOD_NS n.val)) (s.clock.now + 1000)))
          ∧ SameBut [.bus, .regs, .pins, .fcu, .proc, .time] (s.through w .time_tto_cfg n.val 0) t)))) ∧
  (∀ (s : State) (n : Fin 8) (e : Nat), s.Awake → Table.find s.time.next n.val = some e →
    (s.clock.now < e → exec (.ttoPulse n) s = .next s) ∧
    (e ≤ s.clock.now → Answers (.ttoPulse n) s (fun t =>
    t.ttoActive n.val = decide (s.clock.now < e + s.rd (TIME_TTO_CFG.WIDTH_NS n.val))
    ∧ t.ttoLevel n.val = (t.ttoActive n.val != s.on (TIME_TTO_CFG.POLARITY n.val))
    ∧ (s.rd (TIME_TTO_CFG.PERIOD_NS n.val) = 0 → Table.find t.time.next n.val = none ∧ t.on (TIME_TTO_CFG.ENABLE n.val) = false)
    ∧ (s.rd (TIME_TTO_CFG.PERIOD_NS n.val) ≠ 0 → Table.find t.time.next n.val = some (e + s.rd (TIME_TTO_CFG.PERIOD_NS n.val)))
    ∧ SameBut [.regs, .time] s t)))

/-! ### Motion Planner -/

/-- R197-R202: a source is bound unless the Lesson has another in its slice; the batch of a committing job is copied while staging is free; a batch is
refused whole with the source that R201 gives, or built beside the live epochs and made newest with a single swap, which releases a cycle of each
ON_EPOCH channel. That a copy whose memory must wait leaves the state as it was is the model's choice (log entry 64). -/
def Obligations.TheStoreIsUpdated : Prop :=
  (∀ (s : State) (w : Initiator) (n : Fin 8) (d : Word) (other : Bool), s.Awake → s.Reaches w .plan_src_lesson n.val 0 true →
    (other = true ↔ d.toNat ≠ 0 ∧ ∃ k < 8, k ≠ n.val ∧ s.reg64 (PLAN_SRC_LESSON k) = d.toNat
      ∧ s.rd (PLAN_SRC_ADDR.SLICE k) = s.rd (PLAN_SRC_ADDR.SLICE n.val)) →
    Answers (.planSrcBind w n d) s (fun t => t.bus = .done
      ∧ t.reg64 (PLAN_SRC_LESSON n.val) = (if other then s.reg64 (PLAN_SRC_LESSON n.val) else d.toNat)
      ∧ SameBut [.bus, .regs] (s.through w .plan_src_lesson n.val 0) t ∧ RegsBut [PLAN_SRC_LESSON n.val] s t)) ∧
  (∀ (s : State) (tag : Fin 1024), s.Awake → s.planOn = true → s.plan.copies.contains tag.val = true → s.plan.staging = none →
    ((∀ j, s.job? tag.val = some j → s.planSource j.slice (j.committed % 2 ^ 64) = none) → Answers (.planBatchCopy tag) s (fun t =>
      t.plan = { s.plan with copies := s.plan.copies.filter (· ≠ tag.val) } ∧ SameBut [.plan] s t)) ∧
    (∀ j k u o, s.job? tag.val = some j → s.planSource j.slice (j.committed % 2 ^ 64) = some k → s.readBatch k = (u, o) →
      (s.batchWaits k = true → exec (.planBatchCopy tag) s = .next s) ∧
      (s.batchWaits k = false → Answers (.planBatchCopy tag) s (fun t =>
        t.plan = { s.plan with copies := s.plan.copies.filter (· ≠ tag.val), staging := some o }
        ∧ SameBut (.plan :: readParts) s t)))) ∧
  (∀ (s : State) (copy : Option (List Byte)), s.Awake → s.planOn = true → s.plan.built = none → s.plan.staging = some copy →
    (∀ src, (match copy with | none => Except.error srcPlanBatchRefused | some b => s.judgeBatch b) = .error src →
      Answers .planBatchApply s (fun t => t.plan = { s.plan with staging := none } ∧ (s.underTest src = false → t.Raised src)
        ∧ SameBut (.plan :: eventParts) s t)) ∧
    (∀ b e, copy = some b → s.judgeBatch b = .ok e → Answers .planBatchApply s (fun t =>
      t.plan = { s.plan with staging := none, built := some e, nextSerial := e.serial + 1 } ∧ e.number = leAt b 0 4
      ∧ e.full = bit (leAt b 4 4) 0 ∧ SameBut [.plan] s t))) ∧
  (∀ (s : State) (b : List Byte),
    (s.on PLAN_STORE_STATUS.WORLD = true → leAt b 0 4 ≤ s.rd PLAN_STORE_STATUS.NEWEST_EPOCH → s.judgeBatch b = .error srcPlanEpochStale) ∧
    (s.on PLAN_STORE_STATUS.WORLD = false → s.newest = none → bit (leAt b 4 4) 0 = false → s.judgeBatch b = .error srcPlanBatchRefused) ∧
    (s.on PLAN_STORE_STATUS.WORLD = false ∨ s.rd PLAN_STORE_STATUS.NEWEST_EPOCH < leAt b 0 4 → 65534 < leAt b 0x18 4 →
      s.judgeBatch b = .error srcPlanBatchRefused)) ∧
  (∀ (s : State) (e : PlanEpoch), s.Awake → s.planOn = true → s.plan.built = some e → e.number < 2 ^ 32 →
    Answers .planEpochSwap s (fun t => t.newest = some e ∧ t.plan.built = none ∧ t.rd PLAN_STORE_STATUS.NEWEST_EPOCH = e.number
      ∧ t.on PLAN_STORE_STATUS.WORLD = true
      ∧ ((∀ ch < 16, ¬(s.on (PLAN_CH_CTRL.ENABLE ch) = true ∧ s.rd (PLAN_CH_CTRL.TRIGGER ch) = 2)) → t.plan.chans = s.plan.chans
          ∧ SameBut [.regs, .plan] s t ∧ RegsBut [PLAN_STORE_STATUS] s t)
      ∧ (∀ ch < 16, s.on (PLAN_CH_CTRL.ENABLE ch) = true → s.rd (PLAN_CH_CTRL.TRIGGER ch) = 2 → s.planPriv ch = false →
          planCfgOk (s.planCfg ch) false (s.reg64 (PLAN_CH_CTRL ch)) = true → (s.chan ch).cycle = none → PlanReleased s ch t)))

/-- R203-R205: a PERIODIC channel releases at the Vehicle Times of its phase only. PLAN_PRIV takes a mask of at most two channels until it is locked. A release of a channel is refused where its configuration is out of
range, dropped and counted while a cycle stands, answered NO_WORLD at once while no epoch exists, and otherwise leaves a pending cycle with the
records latched. START releases an enabled ON_DEMAND channel. A read of the status clears OVERRUNS. That a release which is not due leaves the state
as it was is the model's choice (log entries 2, 8). -/
def Obligations.PlannerChannelsRelease : Prop :=
  (∀ (s : State) (w : Initiator) (d : Word), s.Awake → s.Reaches w .plan_priv 0 0 true → Answers (.planPrivWrite w d) s (fun t =>
    t.bus = .done
    ∧ t.rd PLAN_PRIV.MASK = (if s.on PLAN_PRIV.LOCK = true ∨ 2 < popCount 16 (bits d.toNat 15 0) then s.rd PLAN_PRIV.MASK else bits d.toNat 15 0)
    ∧ t.on PLAN_PRIV.LOCK = (s.on PLAN_PRIV.LOCK || bit d.toNat 16)
    ∧ (∀ ch < 16, t.on (PLAN_CH_CTRL.PRIVILEGED ch) = bit (t.rd PLAN_PRIV.MASK) ch) ∧ SameBut [.bus, .regs] (s.through w .plan_priv 0 0) t
    ∧ RegsBut (PLAN_PRIV :: (List.range 16).map PLAN_CH_CTRL) s t)) ∧
  (∀ (s : State) (ch : Fin 16), s.Awake → s.planDue ch.val = false → exec (.planPeriodicRelease ch) s = .next s) ∧
  (∀ (s : State) (ch : Fin 16), s.Awake → s.planOn = true → s.on (PLAN_CH_CTRL.ENABLE ch.val) = true → s.rd (PLAN_CH_CTRL.TRIGGER ch.val) = 1 →
    s.planDue ch.val = true →
    (planCfgOk (s.planCfg ch.val) (s.planPriv ch.val) (s.reg64 (PLAN_CH_CTRL ch.val)) = false → Answers (.planPeriodicRelease ch) s (fun t =>
      t.on (PLAN_CH_STATUS.CFG_ERR ch.val) = true ∧ SameBut [.regs] s t ∧ RegsBut [PLAN_CH_STATUS ch.val] s t)) ∧
    (planCfgOk (s.planCfg ch.val) (s.planPriv ch.val) (s.reg64 (PLAN_CH_CTRL ch.val)) = true →
      (∀ q, (s.chan ch.val).cycle = some q → Answers (.planPeriodicRelease ch) s (fun t =>
        t.rd (PLAN_CH_STATUS.OVERRUNS ch.val) = min (s.rd (PLAN_CH_STATUS.OVERRUNS ch.val) + 1) 65535
        ∧ (s.underTest srcPlanOverrun = false → t.Raised srcPlanOverrun) ∧ SameBut eventParts s t)) ∧
      ((s.chan ch.val).cycle = none → s.on PLAN_STORE_STATUS.WORLD = true → Answers (.planPeriodicRelease ch) s (fun t =>
        PlanReleased s ch.val t ∧ (∀ k, k ≠ ch.val → t.chan k = s.chan k) ∧ SameBut (.plan :: readParts) s t)) ∧
      ((s.chan ch.val).cycle = none → s.on PLAN_STORE_STATUS.WORLD = false → Answers (.planPeriodicRelease ch) s (fun t =>
        t.rd (PLAN_CH_STATUS.LAST_STATUS ch.val) = 3 ∧ t.rd (PLAN_CH_STATUS.STATE ch.val) = 0 ∧ t.chan ch.val = s.chan ch.val
        ∧ t.on (PLAN_CH_STATUS.CFG_ERR ch.val) = false
        ∧ t.rd (PLAN_CH_STATUS.CYCLES ch.val) = (s.rd (PLAN_CH_STATUS.CYCLES ch.val) + 1) % 2 ^ 32
        ∧ SameBut (.fresh :: .plan :: queueParts) s t)))) ∧
  (∀ (s u : State) (w : Initiator) (ch : Fin 16) (d : Word), s.Awake → s.Reaches w .plan_ch_ctrl ch.val 0 true → bit d.toNat 1 = true →
    u = (s.through w .plan_ch_ctrl ch.val 0).planCtrlWrite w ch.val (clearBit d.toNat 1) →
    (s.planOn = false ∨ u.on (PLAN_CH_CTRL.ENABLE ch.val) = false ∨ u.rd (PLAN_CH_CTRL.TRIGGER ch.val) ≠ 0 →
      exec (.planStart w ch d) s = .next { u with bus := .done }) ∧
    (s.planOn = true → u.on (PLAN_CH_CTRL.ENABLE ch.val) = true → u.rd (PLAN_CH_CTRL.TRIGGER ch.val) = 0 → s.planPriv ch.val = false →
      planCfgOk (u.planCfg ch.val) false (u.reg64 (PLAN_CH_CTRL ch.val)) = true → (s.chan ch.val).cycle = none →
      s.on PLAN_STORE_STATUS.WORLD = true → Answers (.planStart w ch d) s (fun t => t.bus = .done ∧ PlanReleased u ch.val t
        ∧ (∀ k, k ≠ ch.val → t.chan k = s.chan k) ∧ SameBut (.bus :: .plan :: readParts) (s.through w .plan_ch_ctrl ch.val 0) t))) ∧
  (∀ (s : State) (w : Initiator) (ch : Fin 16), s.Awake → s.Reaches w .plan_ch_status ch.val 0 false →
    Answers (.planChStatusRead w ch) s (fun t => t.bus = .data (s.reg64 (PLAN_CH_STATUS ch.val))
      ∧ t.rd (PLAN_CH_STATUS.OVERRUNS ch.val) = 0 ∧ t.rd (PLAN_CH_STATUS.CYCLES ch.val) = s.rd (PLAN_CH_STATUS.CYCLES ch.val)
      ∧ t.rd (PLAN_CH_STATUS.LAST_STATUS ch.val) = s.rd (PLAN_CH_STATUS.LAST_STATUS ch.val)
      ∧ SameBut [.bus, .regs] (s.asked w .plan_ch_status ch.val 0) t ∧ RegsBut [PLAN_CH_STATUS ch.val] s t))

/-- R206, R214, R215, R261: the free engine starts the pending cycle that ranks first, with a snapshot of the newest epoch; an ordinary cycle is
suspended for a privileged one and resumes when none is pending; the end of the reduction emits the selection; an ordinary cycle that passes its guard
point, 20 us before its deadline, emits its fallback, a privileged one is reported and goes on; a privileged channel without output for twice its period
is reported stale. R190, R196, R218: a store node that the ECC finds uncorrectable is marked in every epoch that shares it, the one being built among
them, and nowhere else. Which nodes two epochs share is log entry 22; the fetch that comes first at a cycle's start, and the output that waits for its
memory, are log entry 64; that a command which is not enabled leaves the state as it was is log entry 2. -/
def Obligations.PlannerCyclesRun : Prop :=
  (∀ (s u : State) (ch : Nat) (q : PlanCycle) (e : PlanEpoch), s.Awake → s.planOn = true → s.plan.running = none → ch < 16 →
    u = s.fetchOwed → u.firstPending = some (ch, q) → u.newest = some e → q.priv = true ∨ u.suspendedCycle = none →
    Answers .planCycleStart s (fun t =>
      t.plan.running = some ch ∧ (t.chan ch).cycle = some { q with snap := some e.serial } ∧ t.rd (PLAN_CH_STATUS.STATE ch) = 2
      ∧ (∀ k, k ≠ ch → t.chan k = u.chan k) ∧ SameBut [.regs, .plan] u t ∧ RegsBut [PLAN_CH_STATUS ch, PLAN_STORE_STATUS] u t
      ∧ SameBut (.plan :: readParts) s u
      ∧ ((∀ p ∈ s.plan.chans, ∀ x, p.2.cycle = some x → x.owed = false) → u = s))) ∧
  (∀ (s : State) (ch : Nat) (q : PlanCycle), s.Awake → ch < 16 → s.plan.running = some ch → (s.chan ch).cycle = some q →
    (q.priv = true ∨ s.pendingCycles.any (fun p => p.2.priv) = false → exec .planCycleSuspend s = .next s) ∧
    (q.priv = false → s.pendingCycles.any (fun p => p.2.priv) = true → Answers .planCycleSuspend s (fun t => t.plan.running = none
      ∧ (t.chan ch).cycle = some { q with suspended := true } ∧ t.rd (PLAN_CH_STATUS.STATE ch) = 3
      ∧ (∀ k, k ≠ ch → t.chan k = s.chan k) ∧ SameBut [.regs, .plan] s t ∧ RegsBut [PLAN_CH_STATUS ch] s t)) ∧
    (∀ e n i o, s.planOn = true → q.snap = some i → s.epoch? i = some e → s.newest = some n →
      o = (if q.guarded = true ∧ q.priv = false then q.fallback (s.chan ch).prev n 4 [] else q.select (s.chan ch).prev e n) →
      (s.emitWaits ch q = true → exec .planReductionEnd s = .next s) ∧
      (s.emitWaits ch q = false → Answers .planReductionEnd s (fun t =>
      (t.chan ch).cycle = none ∧ t.plan.running = none ∧ t.rd (PLAN_CH_STATUS.STATE ch) = 0
      ∧ t.rd (PLAN_CH_STATUS.LAST_STATUS ch) = o.status % 256
      ∧ t.rd (PLAN_CH_STATUS.CYCLES ch) = (s.rd (PLAN_CH_STATUS.CYCLES ch) + 1) % 2 ^ 32 ∧ (∀ k, k ≠ ch → t.chan k = s.chan k)
      ∧ SameBut (.fresh :: .plan :: queueParts) s t)))) ∧
  (∀ (s : State) (ch : Nat) (q : PlanCycle), s.Awake → s.planOn = true → ch < 16 → s.plan.running = none →
    s.pendingCycles.any (fun p => p.2.priv) = false → s.suspendedCycle = some (ch, q) →
    (q.guarded = false → Answers (.planCycleResume) s (fun t => t.plan.running = some ch ∧ (t.chan ch).cycle = some { q with suspended := false }
      ∧ t.rd (PLAN_CH_STATUS.STATE ch) = 2 ∧ SameBut [.regs, .plan] s t ∧ RegsBut [PLAN_CH_STATUS ch] s t)) ∧
    (q.guarded = true → s.emitWaits ch q = true → Answers (.planCycleResume) s (fun t => t.plan.running = some ch
      ∧ (t.chan ch).cycle = some { q with suspended := false } ∧ t.rd (PLAN_CH_STATUS.STATE ch) = 2 ∧ SameBut [.regs, .plan] s t)) ∧
    (q.guarded = true → s.emitWaits ch q = false → s.newest.isSome = true → Answers (.planCycleResume) s (fun t => t.plan.running = none ∧ (t.chan ch).cycle = none
      ∧ t.rd (PLAN_CH_STATUS.STATE ch) = 0 ∧ (∀ k, k ≠ ch → t.chan k = s.chan k) ∧ SameBut (.fresh :: .plan :: queueParts) s t))) ∧
  (∀ (s : State) (ch : Fin 16) (q : PlanCycle), s.Awake → (s.chan ch.val).cycle = some q →
    (q.guarded = true ∨ s.clock.now + 20000 < q.deadline → exec (.planGuardPoint ch) s = .next s) ∧
    (q.guarded = false → q.deadline ≤ s.clock.now + 20000 → q.priv = true ∨ q.suspended = true → Answers (.planGuardPoint ch) s (fun t =>
      (t.chan ch.val).cycle = some { q with guarded := true }
      ∧ (∀ src, src = (if q.priv then srcPlanPrivTimeout else srcPlanTimeout) → s.underTest src = false → t.Raised src)
      ∧ SameBut (.plan :: eventParts) s t)) ∧
    (q.guarded = false → q.deadline ≤ s.clock.now + 20000 → q.priv = false → q.suspended = false → s.emitWaits ch.val q = true →
      Answers (.planGuardPoint ch) s (fun t => (t.chan ch.val).cycle = some { q with guarded := true }
        ∧ (s.underTest srcPlanTimeout = false → t.Raised srcPlanTimeout) ∧ SameBut (.plan :: eventParts) s t)) ∧
    (q.guarded = false → q.deadline ≤ s.clock.now + 20000 → q.priv = false → q.suspended = false → s.emitWaits ch.val q = false →
      s.newest.isSome = true → Answers (.planGuardPoint ch) s (fun t =>
      (t.chan ch.val).cycle = none ∧ t.rd (PLAN_CH_STATUS.STATE ch.val) = 0 ∧ (s.underTest srcPlanTimeout = false → t.Raised srcPlanTimeout)
      ∧ (∀ k, k ≠ ch.val → t.chan k = s.chan k) ∧ SameBut (.fresh :: .plan :: queueParts) s t))) ∧
  (∀ (s : State) (m : StoreNode) (b : Bool), s.Awake →
    (realNode m = false ∨ (∀ e, s.plan.epochs[m.age]? = some e → hasNode e.tree m.level m.cell = false) →
      exec (.fcuEvent [] ⟨b, [m]⟩) s = .next s) ∧
    (∀ e, s.plan.epochs[m.age]? = some e → realNode m = true → hasNode e.tree m.level m.cell = true →
      Answers (.fcuEvent [] ⟨b, [m]⟩) s (fun t =>
        t.plan.epochs.length = s.plan.epochs.length ∧ t.plan.epochs[m.age]? = some (e.mark m) ∧ (e.mark m).ue.contains (m.level, m.cell) = true
        ∧ (∀ (k : Nat) (x : PlanEpoch), s.plan.epochs[k]? = some x → t.plan.epochs[k]? = some x ∨ t.plan.epochs[k]? = some (x.mark m))
        ∧ (∀ (k : Nat) (x : PlanEpoch), k + 1 = m.age → s.plan.epochs[k]? = some x →
            t.plan.epochs[k]? = some (if x.full = false ∧ sharedNode e.tree x.tree m.level m.cell = true then x.mark m else x))
        ∧ (∀ x : PlanEpoch, s.plan.epochs[m.age + 1]? = some x →
            t.plan.epochs[m.age + 1]? = some (if e.full = false ∧ sharedNode x.tree e.tree m.level m.cell = true then x.mark m else x))
        ∧ (∀ x : PlanEpoch, m.age = 0 → s.plan.built = some x →
            t.plan.built = some (if x.full = false ∧ sharedNode e.tree x.tree m.level m.cell = true then x.mark m else x))
        ∧ (s.plan.built = none → t.plan.built = none)
        ∧ t.plan = { s.plan with built := t.plan.built, epochs := t.plan.epochs } ∧ SameBut [.plan] s t))) ∧
  (∀ (s : State) (ch : Fin 16), s.Awake → s.procRunning = true → s.planPriv ch.val = true → s.on (PLAN_CH_CTRL.ENABLE ch.val) = true →
    s.proc.planStale.contains ch.val = false →
    (s.passed (Table.get s.proc.planOut 0 ch.val) (2000 * s.planPeriod ch.val) = false → exec (.procPlanStale ch) s = .next s) ∧
    (s.passed (Table.get s.proc.planOut 0 ch.val) (2000 * s.planPeriod ch.val) = true → Answers (.procPlanStale ch) s (fun t => t.proc.planStale = s.proc.planStale ++ [ch.val]
      ∧ t.on (FCU_SRC_STATE.ASSERTING srcProcPlanStale) = true
      ∧ (s.on (FCU_SRC_STATE.ASSERTING srcProcPlanStale) = false → s.underTest srcProcPlanStale = false → t.Raised srcProcPlanStale)
      ∧ SameBut eventParts s t)))

/-! ### Rubrics -/

/-- R256, R317: a Rubric from an accepted root that lies within the tables takes the lowest free index; it is refused as R317 orders the checks; an
unload frees the index. R294, R295: while the Security Core restarts or has failed the reply says so. That what the Security Core finds the bytes of an
image to be stays so is log entry 90, and that a load whose image cannot be read yet leaves the state as it was is log entry 64. -/
def Obligations.RubricsLoadAndUnload : Prop :=
  (∀ (s : State) (mb : Fin 68) (root : SigRoot) (c : RubricContent), s.Awake → s.imageWaits mb.val 0x0300 = true →
    exec (.rubricLoad mb root c) s = .next s) ∧
  (∀ (s u v x : State) (mb : Fin 68) (r : Req) (bs : List Byte) (root : SigRoot) (c d : RubricContent) (f : ImageFound) (o : Option (List Byte)),
    s.Due mb.val 0x0300 r u bs → s.imageWaits mb.val 0x0300 = false →
    (leAt bs 14 2 ≠ 0 → Replies (.rubricLoad mb root c) s mb.val r msBadarg 0 [] u) ∧
    (∀ st, leAt bs 14 2 = 0 → u.secAway = some st → Replies (.rubricLoad mb root c) s mb.val r st 0 [] u) ∧
    (leAt bs 14 2 = 0 → u.secAway = none → u.ctxRead (u.ctx r.who) (leAt bs 0 8) (leAt bs 8 4) = (v, o) →
      (o = none → Replies (.rubricLoad mb root c) s mb.val r msBadarg 0 [] v) ∧
      (∀ m, o = some m → v.findImage m root (some c) = (x, f) → d = f.rubric.getD c →
        SameBut [.found] v x ∧ f.bytes = m ∧ (∀ g, v.found.find? (fun h => h.bytes = m) = some g → f = g ∧ x = v) ∧
        (v.found.find? (fun h => h.bytes = m) = none → f.root = root ∧ d = c ∧ x.found.find? (fun h => h.bytes = m) = some f) ∧
        (x.rootOk f.root = false → Replies (.rubricLoad mb root c) s mb.val r msDenied 0 [] x) ∧
        (x.rootOk f.root = true → rubricOk d = false ∨ 8192 ≤ leAt bs 12 2 → Replies (.rubricLoad mb root c) s mb.val r msBadarg 0 [] x) ∧
        (x.rootOk f.root = true → rubricOk d = true → leAt bs 12 2 < 8192 →
          (x.freeRubric = none ∨ d.fits = false → Replies (.rubricLoad mb root c) s mb.val r msNofit 0 [] x) ∧
          (∀ i, x.freeRubric = some i → d.fits = true → ∃ y, Replies (.rubricLoad mb root c) s mb.val r msOk i [] y
            ∧ Table.find y.proc.rubrics i = some ⟨d.signals, d.checks, 57344 + leAt bs 12 2, []⟩
            ∧ (∀ k, k ≠ i → Table.find y.proc.rubrics k = Table.find x.proc.rubrics k)
            ∧ y.rd PROC_STATUS.RUBRICS = min y.proc.rubrics.length 15 ∧ (y.on PROC_STATUS.FULL = true ↔ y.proc.rubrics.length = 16)
            ∧ SameBut [.regs, .proc] x y ∧ RegsBut [PROC_STATUS] x y))))) ∧
  (∀ (s u : State) (mb : Fin 68) (r : Req) (bs : List Byte), s.Due mb.val 0x0301 r u bs →
    (Table.find u.proc.rubrics (hArg r.header) = none → Replies (.rubricUnload mb) s mb.val r msBadarg 0 [] u) ∧
    ((Table.find u.proc.rubrics (hArg r.header)).isSome = true → ∃ x, Replies (.rubricUnload mb) s mb.val r msOk 0 [] x
      ∧ Table.find x.proc.rubrics (hArg r.header) = none
      ∧ (∀ k, k ≠ hArg r.header → Table.find x.proc.rubrics k = Table.find u.proc.rubrics k)
      ∧ x.rd PROC_STATUS.RUBRICS = min x.proc.rubrics.length 15 ∧ SameBut [.regs, .proc] u x ∧ RegsBut [PROC_STATUS] u x))

/-! ### Raster and display -/

/-- R63, R223, R224, R226: a RAST descriptor of a RASTER Lesson that meets its layout issues: SHADE to the vector unit with the tile that its
fragments leave, RESOLVE, SPILL and RELOAD to the DMA engine, the tile buffer filled first where CLEAR is set. R19: the records of SHADE are read from
the Slate of TC0 over the dies, and where that memory does not serve the Seat halts with BUS_ERROR. The layout of words 8 to 14 (log entry 18) and that
halt (log entry 78) are the model's. -/
def Obligations.RasterDescriptorsIssue : Prop :=
  ∀ (s : State) (g : Fin 1024) (ws : List Nat), s.AtDesc g.val ws → dClass ws = 8 →
  (∀ (u : State) (a : Nat) (p : ProgRead) (c : Ctx) (bin : Nat × Nat) (r : Result), a = s.shadeProgram g.val ws →
    c = s.ctx ⟨.seat, g.val, 0⟩ → bin = (rastBin ws, 256 * rastRecords ws) → u = s.ctxUse c bin.1 bin.2 false →
    p = ProgRead.of u [] (s.shareOf g.val).1 ((s.shareOf g.val).1 + (s.shareOf g.val).2) a 16 →
    r = (u.noteIssue g.val).shadeRun g.val (s.shareOf g.val).1 ws p.words → dOp ws = 0 → rastOk g.val s ws = true →
    (s.binCheck c bin.1 bin.2 false = .waits → exec (.rastShade g) s = .next s) ∧
    (s.binCheck c bin.1 bin.2 false = .err → s.LoneRun g.val → Answers (.rastShade g) s (fun t =>
      t.seatState g.val = 6 ∧ t.rd (CLC_SEAT_STATE.LAST_ERR (g.val / 64) (g.val % 64)) = 6 ∧ t.mem = s.mem)) ∧
    (s.binCheck c bin.1 bin.2 false = .ok → p.outside = none → p.waits = false → progOk u p.words = true →
      s.Fits g.val (shadeReads ws (a - (s.shareOf g.val).1) p.words) (shadeWrites ws p.words) →
      Answers (.rastShade g) s (u.Launched g.val ws 0 r.outs r.vregs))) ∧
  (∀ p ∈ [(1, Instr.rastResolve g), (2, .rastSpill g), (3, .rastReload g)], dOp ws = p.1 → rastOk g.val s ws = true →
    (rastClear ws = false → Answers p.2 s (fun t => ∃ f, s.Issued g.val f t ∧ f.words = ws ∧ f.unit = 2 ∧ f.pos = 0
      ∧ f.total = (s.xfer g.val f).total)) ∧
    (rastClear ws = true → outside (s.shareOf g.val).2 (rastTileRanges ws) = none → Answers p.2 s (fun t =>
      (∃ f, (t.seat g.val).flight = [f] ∧ f.words = ws ∧ f.unit = 2 ∧ f.pos = 0)
      ∧ t.mem = (s.putOuts (clearOuts (s.shareOf g.val).1 ws)).mem ∧ (t.descAt g.val).1 = (s.descAt g.val).1 + 64
      ∧ SameBut [.regs, .mem, .ecc, .seats, .jobs] s t ∧ ∀ k, k ≠ g.val → t.seat k = s.seat k)))

/-- R220, R222, R225, R227-R229: the front end takes the commands of its ring in order. PASS_BEGIN begins a pass whose spill slots fit, DRAW bins its
triangles and begins a partial render where bin memory has no room, the resume bins on, PASS_END gives every tile its last jobs, NOP is passed over; a
command that R220 refuses abandons the pass and raises RAST_COMMAND_ERROR, but no PASS_BEGIN is read before the previous pass has ended; a tile's next job record goes to its work queue. R14, R219, R220, R229:
only the Registrar changes SLICE; ENABLE is taken while no Lesson's region overlaps bin memory, and clearing it abandons the pass; a write of HEAD; a
read of the status clears its counts. Which command meets an entry that is refused, and how a strip's triangles face, are the model's (log entry 27); that a
command which is not enabled, or whose memory must wait, leaves the state as it was is the model's choice (log entries 2, 64). -/
def Obligations.RasterPassesAndRegisters : Prop :=
  (∀ (s u : State) (c : List Byte), s.AtRastOp 4 c u → Answers .rastNop s (fun t => RastTaken u t ∧ SameBut [.regs] u t
    ∧ RegsBut [DISP_RAST_PTR] u t)) ∧
  (∀ (s u : State) (c : List Byte) (i : Instr), s.AtRaster c u → i ∈ [Instr.rastPassBegin, .rastDraw, .rastPartialResume, .rastPassEnd, .rastNop] →
    (leAt c 0 1 = 1 → s.rastBusy = true → exec i s = .next s) ∧
    ((leAt c 0 1 = 1 → s.rastBusy = false) → s.rastCmdOk c = false ∨ (i = .rastPassBegin ∧ leAt c 0 1 = 1 ∧ s.rast.pass.isSome = true) →
      Answers i s (fun t => t.rast.pass = none ∧ (s.underTest srcRastError = false → t.Raised srcRastError)
        ∧ SameBut (.seats :: .cores :: .jobs :: .reg :: .rast :: readParts) s t))) ∧
  (∀ (s u : State) (c : List Byte) (p : RastPass) (latch : Option (Nat × Nat)), s.AtRastOp 1 c u → s.rast.pass = none → s.rastJobs = false →
    latch = (if leAt c 1 1 = 0xFF then none else u.rastNext.targetLatch (leAt c 1 1)) →
    p = ⟨c, s.rast.nextId, latch.map (·.1), latch.map (·.2), 0, [], [], none, false⟩ →
    (p.tilesX * p.tilesY * p.slot ≤ u.rd DISP_RAST_SPILL.SIZE_4K * 4096 → Answers .rastPassBegin s (fun t => t.rast.pass = some p
      ∧ t.rast.nextId = (s.rast.nextId + 1) % 65536 ∧ t.rd DISP_RAST_STATUS.PHASE = 1 ∧ RastTaken u t
      ∧ (latch.map (·.2) = some 1 → t.on (DISP_PLANE_ADDR.EXPECT p.pipe p.plane) = true) ∧ SameBut [.regs, .rast] u t)) ∧
    (u.rd DISP_RAST_SPILL.SIZE_4K * 4096 < p.tilesX * p.tilesY * p.slot → Answers .rastPassBegin s (fun t => t.rast.pass = none
      ∧ t.rd DISP_RAST_STATUS.ABANDONED = min (u.rd DISP_RAST_STATUS.ABANDONED + 1) 255 ∧ t.rd DISP_RAST_STATUS.PHASE = 0
      ∧ (s.underTest srcRastAbandoned = false → t.Raised srcRastAbandoned)))) ∧
  (∀ (s u v : State) (c data : List Byte) (p : RastPass), s.AtRastOp 2 c u → s.rast.pass = some p →
    (p.stopped = none → p.ending = false → u.Vertices c v data →
      (∀ q, binTriangles p c data (dTriangles c) 0 0 = (q, none) → Answers .rastDraw s (fun t =>
        t.rast.pass = some { q with seq := p.seq + dTriangles c, stopped := none } ∧ t.rd DISP_RAST_STATUS.PHASE = 1 ∧ RastTaken v t
        ∧ SameBut [.regs, .rast] v t)) ∧
      (∀ q x, binTriangles p c data (dTriangles c) 0 0 = (q, some x) → u.binsWait (binOrder q.recs q.binnedTiles) = true →
        exec .rastDraw s = .next s) ∧
      (∀ q x, binTriangles p c data (dTriangles c) 0 0 = (q, some x) → u.binsWait (binOrder q.recs q.binnedTiles) = false →
        Answers .rastDraw s (fun t =>
        (∃ p', t.rast.pass = some p' ∧ p'.stopped = some x ∧ p'.recs = q.recs ∧ p'.seq = q.seq
          ∧ ∀ i < q.tilesX * q.tilesY, (∃ r ∈ q.recs, r.tile = i) → (p'.tile i).live = true ∧ (p'.tile i).spilled = true
              ∧ (p'.tile i).todo ≠ [])
        ∧ t.rd DISP_RAST_STATUS.PHASE = 2 ∧ t.rd DISP_RAST_STATUS.PARTIALS = min (v.rd DISP_RAST_STATUS.PARTIALS + 1) 65535
        ∧ t.rd DISP_RAST_PTR.TAIL = v.rd DISP_RAST_PTR.TAIL ∧ SameBut (.rast :: writeParts) v t))) ∧
    (∀ i k, p.stopped = some (i, k) →
      (p.quiet = false → exec .rastPartialResume s = .next s) ∧
      (∀ q, p.quiet = true → u.Vertices c v data → binTriangles { p with recs := [] } c data (dTriangles c - i) i k = (q, none) →
        Answers .rastPartialResume s (fun t => t.rast.pass = some { q with seq := p.seq + dTriangles c, stopped := none }
          ∧ t.rd DISP_RAST_STATUS.PHASE = 1 ∧ RastTaken v t ∧ SameBut [.regs, .rast] v t)))) ∧
  (∀ (s u : State) (c : List Byte) (p : RastPass), s.AtRastOp 3 c u → s.rast.pass = some p → p.ending = false →
    (s.binsWait (binOrder p.recs p.allTiles) = true → exec .rastPassEnd s = .next s) ∧
    (s.binsWait (binOrder p.recs p.allTiles) = false → Answers .rastPassEnd s (fun t => (∃ p', t.rast.pass = some p' ∧ p'.ending = true ∧ p'.recs = p.recs ∧ p'.seq = p.seq
        ∧ ∀ i < p.tilesX * p.tilesY, (p'.tile i).live = true ∧ (p'.tile i).todo ≠ [])
      ∧ t.rd DISP_RAST_STATUS.PHASE = 3 ∧ RastTaken u t ∧ SameBut (.rast :: writeParts) u t))) ∧
  (∀ (s v : State) (p : RastPass) (i n e : Nat) (x : RastTile) (l : Lesson) (a : List Nat) (rest : List (List Nat)) (ok : Bool), s.Awake →
    s.rastUp = true → s.rast.pass = some p → s.nextTile p = some (i, x, l) → x.todo = a :: rest → n = l.queueFirst →
    e = (s.queue n).entryAddr n (s.queue n).prod →
    (s.ctxWaits (s.queue n).devCtx e ((s.queue n).entryBytes n) true = true ∨ s.qLate n ≠ 0 → exec .rastTileJobSubmit s = .next s) ∧
    (s.ctxWaits (s.queue n).devCtx e ((s.queue n).entryBytes n) true = false → s.qLate n = 0 →
      s.ctxWrite (s.queue n).devCtx e (s.tileRecord p l.id i a) = (v, ok) →
      Answers .rastTileJobSubmit s (fun t => (∀ k, k ≠ n → t.queue k = s.queue k) ∧ t.mem = v.mem ∧ SameBut (.rast :: queueParts) s t
        ∧ (ok = true → t.rast.pass = some (p.setTile i { x with todo := rest, sub := some (n, (s.queue n).prod) })
            ∧ (t.queue n).prod = ((s.queue n).prod + 1) % 2 ^ 32)
        ∧ (ok = false → t.rast.pass = some (p.setTile i { x with todo := rest }) ∧ (t.queue n).prod = (s.queue n).prod
            ∧ (t.queue n).dropped = min ((s.queue n).dropped + 1) 65535)))) ∧
  (∀ (s : State) (w : Initiator) (d : Word), s.Awake →
    (s.arrives w.kind w.index DISP_RAST_CTRL.addr = true → s.regUp DISP_RAST_CTRL.addr = true → s.rightsOk .disp_rast_ctrl 0 w true = true →
      isRegistrar w = false → bits d.toNat 13 8 ≠ s.rastSlice →
      Answers (.rastCtrlWrite w d) s (fun t => (startDie w = 0 → t.bus = .error)
        ∧ Logged (regViol DISP_RAST_CTRL.addr 3) (s.ctx w) DISP_RAST_CTRL.addr true s t ∧ t.reg64 DISP_RAST_CTRL = s.reg64 DISP_RAST_CTRL
        ∧ SameBut (.bus :: .bridges :: eventParts) s t)) ∧
    (s.Reaches w .disp_rast_ctrl 0 0 true → isRegistrar w = true ∨ bits d.toNat 13 8 = s.rastSlice → Answers (.rastCtrlWrite w d) s (fun t =>
      t.bus = .done ∧ t.rd DISP_RAST_CTRL.SLICE = bits d.toNat 13 8 ∧ t.rd DISP_RAST_CTRL.LESSON_MASK = bits d.toNat 7 4
      ∧ t.on DISP_RAST_CTRL.ENABLE = (bit d.toNat 0 && (s.on DISP_RAST_CTRL.ENABLE || !s.binTaken))
      ∧ (bit d.toNat 0 = false → s.on DISP_RAST_CTRL.ENABLE = true → t.rast.pass = none)
      ∧ (s.rast.skipping = false → bit d.toNat 0 = true ∨ s.on DISP_RAST_CTRL.ENABLE = false ∨ s.rast.pass = none → SameBut [.bus, .regs] (s.through w .disp_rast_ctrl 0 0) t
          ∧ RegsBut [DISP_RAST_CTRL] s t)))) ∧
  (∀ (s : State) (w : Initiator) (d : Word), s.Awake → s.Reaches w .disp_rast_ptr 0 0 true → Answers (.rastHeadWrite w d) s (fun t =>
    t.bus = .done ∧ t.rd DISP_RAST_PTR.HEAD = bits d.toNat 19 0
    ∧ (s.rast.skipping = false → t.rd DISP_RAST_PTR.TAIL = s.rd DISP_RAST_PTR.TAIL ∧ SameBut [.bus, .regs] (s.through w .disp_rast_ptr 0 0) t
        ∧ RegsBut [DISP_RAST_PTR] s t))) ∧
  (∀ (s : State) (w : Initiator), s.Awake → s.Reaches w .disp_rast_status 0 0 false → Answers (.rastStatusRead w) s (fun t =>
    t.bus = .data (s.reg64 DISP_RAST_STATUS) ∧ t.rd DISP_RAST_STATUS.PASSES = s.rd DISP_RAST_STATUS.PASSES
    ∧ t.rd DISP_RAST_STATUS.PARTIALS = 0 ∧ t.rd DISP_RAST_STATUS.ABANDONED = 0
    ∧ t.rd DISP_RAST_STATUS.PHASE = s.rd DISP_RAST_STATUS.PHASE ∧ SameBut [.bus, .regs] (s.asked w .disp_rast_status 0 0) t
    ∧ RegsBut [DISP_RAST_STATUS] s t))

/-- R14, R230-R232: a pipe starts where its fields are in range, and while it runs its fields stand; a post waits for the latch, where each enabled
plane shows its posted buffer or counts a repeat that was not expected, and a pass whose target latch this is is abandoned; an underrun is counted and
raised, and the plane is black for the rest of its line; a link loss is recorded and raised. That black is opaque, and that a line of a plane underruns
once in a frame, is the model's (log entry 86); that a command which is not enabled leaves the state as it was is the model's choice (log entry 2). -/
def Obligations.DisplayPipes : Prop :=
  (∀ (s u : State) (w : Initiator) (p : Fin 4) (d : Word), s.Awake → s.Reaches w .disp_pipe_ctrl p.val 0 true →
    (s.on (DISP_PIPE_CTRL.ENABLE p.val) = true → bit d.toNat 0 = true → exec (.dispPipeEnable w p d) s = .next { s.through w .disp_pipe_ctrl p.val 0 with bus := .done }) ∧
    (s.on (DISP_PIPE_CTRL.ENABLE p.val) = true → bit d.toNat 0 = false → Answers (.dispPipeEnable w p d) s (fun t => t.bus = .done
      ∧ t.on (DISP_PIPE_CTRL.ENABLE p.val) = false ∧ t.on (DISP_PIPE_STATUS.ACTIVE p.val) = false ∧ SameBut [.bus, .regs] (s.through w .disp_pipe_ctrl p.val 0) t
      ∧ RegsBut [DISP_PIPE_CTRL p.val, DISP_PIPE_STATUS p.val] s t)) ∧
    (s.on (DISP_PIPE_CTRL.ENABLE p.val) = false → u = (s.through w .disp_pipe_ctrl p.val 0).pipeCtrlWrite p.val (clearBit d.toNat 0) → bit d.toNat 0 = true →
      (u.pipeFieldsOk p.val = false → exec (.dispPipeEnable w p d) s = .next { u with bus := .done }) ∧
      (u.pipeFieldsOk p.val = true → Answers (.dispPipeEnable w p d) s (fun t => t.bus = .done ∧ t.on (DISP_PIPE_CTRL.ENABLE p.val) = true
        ∧ t.on (DISP_PIPE_STATUS.ACTIVE p.val) = true
        ∧ Table.get t.rast.anchor 0 p.val = s.clock.now + u.pixelTime p.val (u.timingTotal false p.val * u.rd (DISP_PIPE_TIMING_V.ACTIVE p.val))
        ∧ SameBut [.bus, .regs, .rast] (s.through w .disp_pipe_ctrl p.val 0) t ∧ RegsBut [DISP_PIPE_CTRL p.val, DISP_PIPE_STATUS p.val] s t)))) ∧
  (∀ (s : State) (w : Initiator) (p q : Fin 4) (d : Word), s.Awake → s.Reaches w .disp_plane_addr p.val q.val true →
    Answers (.dispPlanePost w p q d) s (fun t => t.bus = .done ∧ t.rd (DISP_PLANE_ADDR.ADDR p.val q.val) = bits d.toNat 47 6 * 64
      ∧ t.on (DISP_PLANE_ADDR.POST p.val q.val) = (s.on (DISP_PLANE_ADDR.POST p.val q.val) || bit d.toNat 63)
      ∧ SameBut [.bus, .regs] (s.through w .disp_plane_addr p.val q.val) t ∧ RegsBut [DISP_PLANE_ADDR p.val q.val] s t)) ∧
  (∀ (s : State) (p : Fin 4), s.Awake → s.pipeUp p.val = true → Answers (.dispLatch p) s (fun t =>
    t.rd (DISP_PIPE_STATUS.FRAMES p.val) = (s.rd (DISP_PIPE_STATUS.FRAMES p.val) + 1) % 2 ^ 32
    ∧ (∀ q < 4, (Table.get t.rast.cfgNow 0#64 (4 * p.val + q)).toNat = s.reg64 (DISP_PLANE_CFG p.val q) % 2 ^ 64)
    ∧ (∀ q < 4, s.on (DISP_PLANE_CFG.ENABLE p.val q) = true → s.on (DISP_PLANE_ADDR.POST p.val q) = true →
        Table.get t.rast.shown 0 (4 * p.val + q) = s.rd (DISP_PLANE_ADDR.ADDR p.val q) ∧ t.on (DISP_PLANE_ADDR.POST p.val q) = false)
    ∧ (∀ q < 4, s.on (DISP_PLANE_CFG.ENABLE p.val q) = false ∨ s.on (DISP_PLANE_ADDR.POST p.val q) = false →
        Table.get t.rast.shown 0 (4 * p.val + q) = Table.get s.rast.shown 0 (4 * p.val + q))
    ∧ (∀ q < 4, s.on (DISP_PLANE_CFG.ENABLE p.val q) = true → s.on (DISP_PLANE_ADDR.POST p.val q) = false →
        s.on (DISP_PLANE_ADDR.EXPECT p.val q) = true → s.underTest srcFrameRepeat = false → t.Raised srcFrameRepeat)
    ∧ (∀ x n, s.rast.pass = some x → x.pipe = p.val → x.left = some n →
        (n ≤ 1 → t.rast.pass = none) ∧ (2 ≤ n → t.rast.pass = some { x with left := some (n - 1) }))
    ∧ t.rast.dark = s.rast.dark.filter (fun d => d.plane / 4 ≠ p.val)
    ∧ (s.rast.pass = none → SameBut (.rast :: eventParts) s t))) ∧
  (∀ (s : State) (p q : Fin 4) (x y : Nat) (late : Bool), s.Awake → s.pipeUp p.val = true →
    late = s.rast.dark.any (fun d => d.plane = 4 * p.val + q.val && d.line = y && d.from' ≤ x) →
    (cfgCovers (s.planeCfg p.val q.val) x y = false ∨ late = true → exec (.dispUnderrun p ⟨q, x, y⟩) s = .next s) ∧
    (cfgCovers (s.planeCfg p.val q.val) x y = true → late = false → Answers (.dispUnderrun p ⟨q, x, y⟩) s (fun t =>
      t.rd (DISP_PIPE_STATUS.UNDERRUNS p.val) = min (s.rd (DISP_PIPE_STATUS.UNDERRUNS p.val) + 1) 255
      ∧ (s.underTest srcDispUnderrun = false → t.Raised srcDispUnderrun)
      ∧ (∀ n, x ≤ n → t.planePixel p.val q.val n y
          = if cfgCovers (s.planeCfg p.val q.val) n y then some [0#32, 0#32, 0#32, f32One] else none)
      ∧ SameBut (.rast :: readParts) s t))) ∧
  (∀ (s : State) (p : Fin 4), s.Awake →
    (s.on (DISP_PIPE_STATUS.LINK_UP p.val) = true → Answers (.dispLinkLost p) s (fun t => t.on (DISP_PIPE_STATUS.LINK_UP p.val) = false
      ∧ t.on (DISP_PIPE_STATUS.ACTIVE p.val) = s.on (DISP_PIPE_STATUS.ACTIVE p.val)
      ∧ (s.underTest srcDispLinkLost = false → t.Raised srcDispLinkLost) ∧ SameBut eventParts s t)) ∧
    Answers (.dispLinkTrained p) s (fun t => t.on (DISP_PIPE_STATUS.LINK_UP p.val) = true ∧ SameBut [.regs] s t
      ∧ RegsBut [DISP_PIPE_STATUS p.val] s t)) ∧
  (∀ (s : State) (w : Initiator) (p : Fin 4), s.Awake → s.Reaches w .disp_pipe_status p.val 0 false →
    Answers (.dispPipeStatusRead w p) s (fun t => t.bus = .data (s.reg64 (DISP_PIPE_STATUS p.val))
      ∧ t.rd (DISP_PIPE_STATUS.FRAMES p.val) = s.rd (DISP_PIPE_STATUS.FRAMES p.val)
      ∧ t.rd (DISP_PIPE_STATUS.REPEATS p.val) = 0 ∧ t.rd (DISP_PIPE_STATUS.UNDERRUNS p.val) = 0
      ∧ SameBut [.bus, .regs] (s.asked w .disp_pipe_status p.val 0) t ∧ RegsBut [DISP_PIPE_STATUS p.val] s t))

/-! ### Commit, boot items and the compare path -/

/-- R395, R396: a Lesson or Rubric from boot flash that passes the checks of its load becomes resident; one that fails, or whose region the secure
partition has shut meanwhile (R114), is noted for the report of the refusal, with its status. What the bytes of an image are found to be stays (log entry
90); that an item whose memory must be waited for leaves the state as it was is the model's choice (log entry 64). -/
def Obligations.BootItemsLoad : Prop :=
  (∀ (s u : State) (i : Fin 64) (m : List Byte) (root : SigRoot) (f : ImageFound), s.Awake → s.scRunning = true → s.regRunning = true →
    s.reg.loading = none → s.findImage m root none = (u, f) →
    ((∀ e ∈ s.found, e.bytes ≠ m) → f.root = root) ∧
    (∀ rb st rep, u.admitImage i.val m 0 f.root = .refused st rep →
      exec (.bootLessonLoad (.lesson i m root rb)) s = .next (u.noteRefusal st)) ∧
    (∀ rb, imFrameOk m m.length = false → exec (.bootLessonLoad (.lesson i m root rb)) s = .next (u.noteRefusal msBadarg)) ∧
    (∀ rb, imFrameOk m m.length = true → imFormat m = 1 → s.rootOk f.root = false →
      exec (.bootLessonLoad (.lesson i m root rb)) s = .next (u.noteRefusal msDenied)) ∧
    (∀ x l, u.admitImage i.val m 0 f.root = .placed x l →
      (∀ rb, x.contentWaits l = true → exec (.bootLessonLoad (.lesson i m root rb)) s = .next s) ∧
      (x.contentWaits l = false →
        ((∀ h ∈ x.homes l.image l.places, x.regionShut h.2.2.1 h.2.2.2.1 = false) →
          Answers (.bootLessonLoad (.lesson i m root true)) s (fun t => (∃ y, t.lesson? (lessonKey i.val (imId m)) = some y ∧ y.slice = i.val
            ∧ y.id = imId m ∧ y.image = m.take (imLen m) ∧ y.places = (u.placeAll i.val m).1.map (·.place) ∧ y.queueFirst = l.queueFirst)
          ∧ (∀ k, k ≠ lessonKey i.val (imId m) → t.lesson? k = s.lesson? k)
          ∧ SameBut [.regs, .mem, .ecc, .seats, .clusters, .lessons, .reg, .queues, .found] s t)) ∧
        (∀ rb, rb = false ∨ (∃ h ∈ x.homes l.image l.places, x.regionShut h.2.2.1 h.2.2.2.1 = true) →
          ∃ v : State, exec (.bootLessonLoad (.lesson i m root rb)) s = .next (v.noteRefusal msFault)
          ∧ v.lesson? (lessonKey i.val (imId m)) = none ∧ (s.underTest srcLessonVerify = false → v.Raised srcLessonVerify))))) ∧
  (∀ (s : State) (x : RubricContent) (root : SigRoot) (q : Nat), s.Awake → s.scRunning = true → s.procRunning = true →
    (s.rootOk root = false → exec (.bootLessonLoad (.rubric x root q)) s = .next (s.noteRefusal msDenied)) ∧
    (s.rootOk root = true → rubricOk x = false ∨ 8192 ≤ q → exec (.bootLessonLoad (.rubric x root q)) s = .next (s.noteRefusal msBadarg)) ∧
    (∀ n, s.rootOk root = true → rubricOk x = true → q < 8192 → s.freeRubric = some n → x.fits = true →
      Answers (.bootLessonLoad (.rubric x root q)) s (fun t => Table.find t.proc.rubrics n = some ⟨x.signals, x.checks, 57344 + q, []⟩
        ∧ (∀ k, k ≠ n → Table.find t.proc.rubrics k = Table.find s.proc.rubrics k) ∧ SameBut [.regs, .proc] s t
        ∧ RegsBut [PROC_STATUS] s t))) ∧
  (∀ (s : State) (n : Nat), s.boot.reportMb = none → s.noteRefusal n = { s with boot := { s.boot with bootRefusals := s.boot.bootRefusals ++ [n] } })

/-- R14, R238: the run whose Seats have all ended is compared pair by pair: equal signatures meet the condition of R174; a difference is counted,
raised and, while the log is free, logged, and fails the run. A job with voltage_event is not compared. R240-R244: QUIZ_SET takes the period, phase
and deferral of a SAFETY Lesson within the limits of R241; a slot, at the Vehicle Times of its phase, makes a run pending or merges with one; a pending run takes a free group while no
job of the Lesson is QUEUED; the run that ends is judged by QUIZ_SIG, which marks the Lesson or clears the mark; a Quiz that no run has ended for its
deferral is raised once. Which job is compared first, that a Lesson without SAFETY has no Quiz, and the other corners of the Quiz are the model's (log
entry 35); that a command which is not enabled leaves the state as it was is the model's choice (log entry 2). -/
def Obligations.SignaturesAndQuizzes : Prop :=
  (∀ (s : State) (tag : Fin 1024) (j : Job), s.Awake → s.job? tag.val = some j →
    (j.voltage = true → exec (.signatureCompare tag) s = .next s) ∧
    (∀ fb l seats, s.procRunning = true → s.compareTested = false → j.voltage = false → j.state < 4 →
      s.compareDue tag.val j = some (fb, l, seats) →
      ((∀ p ∈ seatPairs seats, (s.seat p.1).sig = (s.seat p.2).sig) → s.proc.compareBad = false → Answers (.signatureCompare tag) s (fun t =>
        t.rd PROC_STATUS.COMPARES = (s.rd PROC_STATUS.COMPARES + 1) % 2 ^ 32
        ∧ t.job? tag.val = some (if fb then { j with fb := j.fb.map (fun f => { f with sigEqual := true }) } else { j with sigEqual := true })
        ∧ (∀ k, k ≠ tag.val → t.job? k = s.job? k) ∧ SameBut [.regs, .jobs] s t ∧ RegsBut [PROC_STATUS] s t)) ∧
      (∀ p, (seatPairs seats).find? (fun p => (s.seat p.1).sig ≠ (s.seat p.2).sig) = some p → Answers (.signatureCompare tag) s (fun t =>
        t.rd PROC_STATUS.COMPARES = (s.rd PROC_STATUS.COMPARES + 1) % 2 ^ 32
        ∧ t.rd PROC_STATUS.MISMATCHES = min (s.rd PROC_STATUS.MISMATCHES + 1) 65535
        ∧ (s.underTest srcSigMismatch = false → t.Raised srcSigMismatch) ∧ t.on PROC_CMP_LOG.VALID = true
        ∧ (s.on PROC_CMP_LOG.VALID = false → t.reg64 PROC_CMP_SIG0 = (s.seat p.1).sig.toNat ∧ t.reg64 PROC_CMP_SIG1 = (s.seat p.2).sig.toNat)
        ∧ (s.on PROC_CMP_LOG.VALID = true → t.reg64 PROC_CMP_LOG = s.reg64 PROC_CMP_LOG ∧ t.reg64 PROC_CMP_SIG0 = s.reg64 PROC_CMP_SIG0)
        ∧ (j.fb = none → ∃ j', t.job? tag.val = some j' ∧ j'.state = 7 ∧ j'.status = msFault)
        ∧ SameBut [.regs, .pins, .fcu, .seats, .cores, .jobs, .proc] s t)))) ∧
  (∀ (s : State) (w : Initiator), s.Awake → s.Reaches w .proc_status 0 0 false → Answers (.procStatusRead w) s (fun t =>
    t.bus = .data (s.reg64 PROC_STATUS) ∧ t.rd PROC_STATUS.MISMATCHES = 0 ∧ t.rd PROC_STATUS.COMPARES = s.rd PROC_STATUS.COMPARES
    ∧ t.rd PROC_STATUS.RUBRICS = s.rd PROC_STATUS.RUBRICS ∧ SameBut [.bus, .regs] (s.asked w .proc_status 0 0) t ∧ RegsBut [PROC_STATUS] s t)) ∧
  (∀ (s u : State) (mb : Fin 68) (r : Req) (bs : List Byte) (k : Nat), s.Due mb.val 0x0031 r u bs → k = lessonKey (hSlice r.header) (leAt bs 0 8) →
    (u.lesson? k = none → Replies (.quizSet mb) s mb.val r msBadarg 0 [] u) ∧
    (∀ l, u.lesson? k = some l →
      (leAt bs 8 4 < 1000 ∨ 1000000 < leAt bs 8 4 ∨ leAt bs 8 4 ≤ leAt bs 12 4 ∨ leAt bs 16 1 = 0 ∨ 64 < leAt bs 16 1
        ∨ 373 * leAt bs 8 4 < imQuizCycles l.image * 100 → Replies (.quizSet mb) s mb.val r msBadarg 0 [] u) ∧
      (imSafety l.image = true → leAt bs 17 7 = 0 → 1000 ≤ leAt bs 8 4 → leAt bs 8 4 ≤ 1000000 → leAt bs 12 4 < leAt bs 8 4 →
        1 ≤ leAt bs 16 1 → leAt bs 16 1 ≤ 64 → imQuizCycles l.image * 100 ≤ 373 * leAt bs 8 4 →
        ∃ v, Replies (.quizSet mb) s mb.val r msOk 0 [] v
          ∧ v.lesson? k = some { l with quizPeriod := leAt bs 8 4, quizPhase := leAt bs 12 4, quizDefer := leAt bs 16 1 }
          ∧ (∀ n, n ≠ k → v.lesson? n = u.lesson? n) ∧ SameBut [.lessons] u v))) ∧
  (∀ (s : State) (i : Fin 64) (d : Word) (k : Nat) (l : Lesson), s.Awake → k = lessonKey i.val d.toNat → s.lesson? k = some l →
    imSafety l.image = true →
    (l.quizSeats ≠ [] ∨ s.dueEvery l.quizPeriod l.quizPhase = false → exec (.quizSlot i d) s = .next s) ∧
    (l.quizSeats = [] → l.releasing = false → s.dueEvery l.quizPeriod l.quizPhase = true → Answers (.quizSlot i d) s (fun t => t.lesson? k = some { l with quizPending := true }
      ∧ (∀ n, n ≠ k → t.lesson? n = s.lesson? n) ∧ SameBut [.lessons] s t)) ∧
    ((∃ p ∈ s.jobs, p.2.lesson = k ∧ p.2.state = 0) → exec (.quizSeat i d) s = .next s) ∧
    (∀ seats, s.regRunning = true → l.quizPending = true → l.quizSeats = [] → l.releasing = false → (s.slice l.slice).running = false →
      (∀ p ∈ s.jobs, ¬(p.2.lesson = k ∧ p.2.state = 0)) → s.quizGroup l = some seats → (seats.map (·.1)).Nodup →
      Answers (.quizSeat i d) s (fun t => t.lesson? k = some { l with quizPending := false, quizSeats := seats }
        ∧ (∀ p ∈ seats, (t.seat p.1).job = some ⟨true, k, false, p.2⟩ ∧ (t.seat p.1).sig = 0#64)
        ∧ SameBut [.regs, .seats, .cores, .lessons] s t)) ∧
    (s.procRunning = true → s.quizEnded l = true → Answers (.quizRunEnd i d) s (fun t => (∃ l', t.lesson? k = some l' ∧ l'.quizSeats = []
        ∧ l'.quizFailed = !s.quizPasses l ∧ l'.quizSince = s.clock.now ∧ l'.quizOverdue = false
        ∧ l'.quizLast = (if s.quizPasses l then some s.clock.now else l.quizLast))
      ∧ (∀ p ∈ l.quizSeats, (t.seat p.1).job = none) ∧ t.on (FCU_SRC_STATE.ASSERTING srcQuizFail) = t.anyQuizFailed
      ∧ SameBut [.regs, .pins, .fcu, .seats, .cores, .lessons, .proc] s t)) ∧
    (s.regRunning = true → l.quizOverdue = false → l.quizSince + l.quizDefer * l.quizPeriod * 1000 ≤ s.clock.now → Answers (.quizOverdue i d) s (fun t => t.lesson? k = some { l with quizOverdue := true }
      ∧ (s.underTest srcQuizOverdue = false → t.Raised srcQuizOverdue) ∧ SameBut (.lessons :: eventParts) s t)) ∧
    (l.quizOverdue = true ∨ s.clock.now < l.quizSince + l.quizDefer * l.quizPeriod * 1000 → exec (.quizOverdue i d) s = .next s))

/-! ### Drill -/

/-- R245-R251: DRILL_SET takes the six intervals within their range; the step that may start and has the least time left takes its core or march
engine; its end gives them back, and a failure withdraws the core or the cluster, stops comparisons, fails the self-check or leaves the stream
unguarded; an interval that ends with its pass incomplete starts anew and is raised. Where an interval that starves begins again, the use of a march
engine by a step, and the step that ends while Proctor is held, are the model's (log entry 35); that a command which is not enabled leaves the state as it
was is the model's choice (log entry 2). -/
def Obligations.DrillStepsRun : Prop :=
  (∀ (s u : State) (mb : Fin 68) (r : Req) (bs : List Byte), s.Due mb.val 0x0032 r u bs →
    ((∀ k < 6, 10 ≤ leAt bs (2 * k) 2 ∧ leAt bs (2 * k) 2 ≤ 1000) → ∃ v, Replies (.drillSet mb) s mb.val r msOk 0 [] v
      ∧ (∀ k < 6, v.drillMs k = leAt bs (2 * k) 2) ∧ SameBut [.proc] u v) ∧
    (¬(∀ k < 6, 10 ≤ leAt bs (2 * k) 2 ∧ leAt bs (2 * k) 2 ≤ 1000) → Replies (.drillSet mb) s mb.val r msBadarg 0 [] u)) ∧
  (∀ (s : State) (x : DrillUnit) (i n : Nat), s.Awake → n = drillIndex x →
    (s.drillMay n i = false ∨ s.drillFirst n i = false → exec (.drillStepStart x i) s = .next s) ∧
    (s.drillMay n i = true → s.drillFirst n i = true → Answers (.drillStepStart x i) s (fun t => (t.drillPass n i).running = true
      ∧ (t.drillPass n i).step = (s.drillPass n i).step ∧ (n ≤ 1 → (t.core i).drill = true)
      ∧ (n = 1 → t.on (CLC_MARCH_STATUS.BUSY (i / 8)) = true ∧ (t.cluster (i / 8)).march.held = some (i % 8, 8 * (s.drillPass n i).step))
      ∧ (n = 2 → t.on (CLC_MARCH_STATUS.BUSY i) = true ∧ (t.cluster i).march.held = some (8, 8 * (s.drillPass n i).step))
      ∧ (3 ≤ n → SameBut [.proc] s t)
      ∧ SameBut [.regs, .mem, .ecc, .pins, .fcu, .seats, .cores, .clusters, .jobs, .proc] s t))) ∧
  (∀ (s : State) (x : DrillUnit) (i n : Nat) (ok : Bool), s.Awake → n = drillIndex x → (s.drillPass n i).running = true → s.procRunning = true →
    i < drillInstances n → Answers (.drillStepEnd x i ok) s (fun t => (t.drillPass n i).running = false
      ∧ (n ≤ 1 → (t.core i).drill = false)
      ∧ (n = 1 → t.on (CLC_MARCH_STATUS.BUSY (i / 8)) = false) ∧ (n = 2 → t.on (CLC_MARCH_STATUS.BUSY i) = false)
      ∧ ((s.drillPass n i).step + 1 < drillSteps n → (t.drillPass n i).step = (s.drillPass n i).step + 1)
      ∧ (drillSteps n ≤ (s.drillPass n i).step + 1 → (t.drillPass n i).step = 0)
      ∧ (ok = true → n = 3 ∨ n = 5 → SameBut [.proc] s t)
      ∧ (ok = false → n ≤ 1 → (t.core i).withdrawn = true ∧ t.on (FCU_SRC_STATE.ASSERTING (srcCluster (i / 8) 10)) = true)
      ∧ (ok = false → n = 2 → (t.cluster i).withdrawn = true ∧ t.on (FCU_SRC_STATE.ASSERTING (srcCluster i 11)) = true)
      ∧ (ok = false → n = 3 → t.proc.compareBad = true ∧ t.on (FCU_SRC_STATE.ASSERTING srcDrillFailCompare) = true)
      ∧ (ok = false → n = 4 → t.fcu.aliveRun = false ∧ t.on FCU_SUMMARY.SELFCHECK_FAIL = true
          ∧ t.on (FCU_SRC_STATE.ASSERTING srcDrillFailFcu) = true)
      ∧ (ok = false → n = 5 → t.proc.unguarded.contains (s.drillPass n i).step = true
          ∧ t.on (FCU_SRC_STATE.ASSERTING srcDrillFailRoll) = true))) ∧
  (∀ (s : State) (x : DrillUnit) (i n : Nat), s.Awake → n = drillIndex x → 0 < s.drillLeft n i → exec (.drillIntervalEnd x i) s = .next s) ∧
  (∀ (s : State) (x : DrillUnit) (i n : Nat), s.Awake → n = drillIndex x → s.drillThere n i = true → s.drillLeft n i ≤ 0 →
    Answers (.drillIntervalEnd x i) s (fun t => (t.drillPass n i).start = s.clock.now ∧ (t.drillPass n i).step = (s.drillPass n i).step
      ∧ (t.drillPass n i).running = (s.drillPass n i).running ∧ (s.underTest srcDrillStarved = false → t.Raised srcDrillStarved)
      ∧ SameBut replyParts s t))

/-! ### Roll Call -/

/-- R14, R252-R255: a valid frame start clears STALE and restarts its time; a valid frame end records signature and counter and sets FROZEN where the
counter stands or K signatures in a row are equal; an invalid frame, or one shorter than the grid, is counted and raised, touches neither, and what its
start did to STALE and SEEN is undone; STALE is raised once STALE_US has passed; a write of ENABLE starts the stream afresh and refuses values out of
range; a read of the status clears BAD_FRAMES. The unpacking of a frame's pixels, and the undoing, are the model's (log entry 85). That a command which is not enabled leaves the state
as it was is the model's choice (log entry 2). -/
def Obligations.RollCallGuardsStreams : Prop :=
  (∀ (s : State) (n : Fin 16), s.Awake →
    (s.unitOn 14 = false → ∀ v f, exec (.rollFrameStart n v) s = .next s ∧ exec (.rollFrameEnd n f) s = .next s) ∧
    (s.unitOn 14 = true → s.guarded n.val = true → Answers (.rollFrameStart n true) s (fun t => t.on (ROLL_STR_STATUS.STALE n.val) = false
      ∧ t.on (ROLL_STR_STATUS.SEEN n.val) = true ∧ t.on (FCU_SRC_STATE.ASSERTING (srcRollStale n.val)) = false
      ∧ Table.find t.proc.staleFrom n.val = some s.clock.now ∧ t.proc.inFrame.contains n.val = true ∧ SameBut [.regs, .proc] s t
      ∧ RegsBut [ROLL_STR_STATUS n.val, FCU_SRC_STATE (srcRollStale n.val)] s t)) ∧
    (s.unitOn 14 = true → Answers (.rollFrameStart n false) s (fun t => t.proc.inFrame.contains n.val = true
      ∧ t.proc.staleFrom = s.proc.staleFrom ∧ SameBut [.proc] s t)) ∧
    (s.guarded n.val = true → Table.get s.proc.staleFrom 0 n.val + s.rd (ROLL_STR_CFG.STALE_US n.val) * 1000 ≤ s.clock.now → Answers (.rollStale n) s (fun t => t.on (ROLL_STR_STATUS.STALE n.val) = true
      ∧ t.on (FCU_SRC_STATE.ASSERTING (srcRollStale n.val)) = true ∧ SameBut eventParts s t)) ∧
    (s.guarded n.val = false ∨ s.clock.now < Table.get s.proc.staleFrom 0 n.val + s.rd (ROLL_STR_CFG.STALE_US n.val) * 1000 →
      exec (.rollStale n) s = .next s)) ∧
  (∀ (s : State) (n : Fin 16) (f : CamFrame) (c sig run : Nat) (frozen : Bool), s.Awake → s.unitOn 14 = true →
    s.guarded n.val = true →
    (f.valid = true → s.gridFits n.val f = true → s.frameCounter n.val f = (s, c) → c < 2 ^ 32 →
      sig = frameSig (s.gridSamples n.val f) (s.on (ROLL_STR_CFG.SIG_COUNTER n.val)) c →
      run = (if s.proc.rollPrev.contains n.val = true ∧ s.reg64 (ROLL_STR_SIG n.val) = sig
        then min (s.rd (ROLL_STR_STATUS.SAME_RUN n.val) + 1) 15 else 1) →
      (frozen = true ↔ (s.proc.rollPrev.contains n.val = true ∧ s.rd (ROLL_STR_CFG.EMB_BYTES n.val) ≠ 0
          ∧ s.rd (ROLL_STR_STATUS.LAST_COUNTER n.val) = c) ∨ s.rd (ROLL_STR_CFG.K n.val) ≤ run) →
      Answers (.rollFrameEnd n f) s (fun t => t.reg64 (ROLL_STR_SIG n.val) = sig ∧ t.rd (ROLL_STR_STATUS.LAST_COUNTER n.val) = c
        ∧ t.rd (ROLL_STR_STATUS.SAME_RUN n.val) = run ∧ t.on (ROLL_STR_STATUS.FROZEN n.val) = frozen
        ∧ t.on (FCU_SRC_STATE.ASSERTING (srcRollFrozen n.val)) = frozen ∧ t.proc.rollPrev.contains n.val = true
        ∧ SameBut queueParts s t)) ∧
    (f.valid = false ∨ s.gridFits n.val f = false → Answers (.rollFrameEnd n f) s (fun t =>
      t.rd (ROLL_STR_STATUS.BAD_FRAMES n.val) = min (s.rd (ROLL_STR_STATUS.BAD_FRAMES n.val) + 1) 255
      ∧ t.reg64 (ROLL_STR_SIG n.val) = s.reg64 (ROLL_STR_SIG n.val)
      ∧ t.rd (ROLL_STR_STATUS.LAST_COUNTER n.val) = s.rd (ROLL_STR_STATUS.LAST_COUNTER n.val)
      ∧ t.rd (ROLL_STR_STATUS.SAME_RUN n.val) = s.rd (ROLL_STR_STATUS.SAME_RUN n.val)
      ∧ (s.underTest srcRollBad = false → t.Raised srcRollBad)
      ∧ (∀ x stale seen, Table.find s.proc.rollSaved n.val = some (x, stale, seen) → Table.find t.proc.staleFrom n.val = some x
          ∧ t.on (ROLL_STR_STATUS.STALE n.val) = stale ∧ t.on (ROLL_STR_STATUS.SEEN n.val) = seen)
      ∧ SameBut queueParts s t))) ∧
  (∀ (s : State) (w : Initiator) (n : Fin 16) (d : Word), s.Awake → s.Reaches w .roll_str_cfg n.val 0 true →
    Answers (.rollCfgWrite w n d) s (fun t => t.bus = .done ∧ t.on (ROLL_STR_CFG.ENABLE n.val) = bit d.toNat 0
      ∧ t.rd (ROLL_STR_CFG.STALE_US n.val) = (if 1000 ≤ bits d.toNat 63 44 ∧ bits d.toNat 63 44 ≤ 1000000 then bits d.toNat 63 44
          else s.rd (ROLL_STR_CFG.STALE_US n.val))
      ∧ t.rd (ROLL_STR_CFG.K n.val) = (if 2 ≤ bits d.toNat 43 40 then bits d.toNat 43 40 else s.rd (ROLL_STR_CFG.K n.val))
      ∧ t.rd (ROLL_STR_CFG.EMB_OFFSET n.val) = bits d.toNat 33 24 ∧ t.rd (ROLL_STR_CFG.EMB_BYTES n.val) = bits d.toNat 23 22
      ∧ (bit d.toNat 0 = true → t.rd (ROLL_STR_STATUS.SAME_RUN n.val) = 0 ∧ t.on (ROLL_STR_STATUS.FROZEN n.val) = false
          ∧ t.on (ROLL_STR_STATUS.STALE n.val) = false ∧ t.on (ROLL_STR_STATUS.SEEN n.val) = false
          ∧ Table.find t.proc.staleFrom n.val = some s.clock.now ∧ SameBut [.bus, .regs, .proc] (s.through w .roll_str_cfg n.val 0) t)
      ∧ (bit d.toNat 0 = false → SameBut [.bus, .regs] (s.through w .roll_str_cfg n.val 0) t ∧ RegsBut [ROLL_STR_CFG n.val] s t))) ∧
  (∀ (s : State) (w : Initiator) (n : Fin 16), s.Awake → s.Reaches w .roll_str_status n.val 0 false →
    Answers (.rollStatusRead w n) s (fun t => t.bus = .data (s.reg64 (ROLL_STR_STATUS n.val)) ∧ t.rd (ROLL_STR_STATUS.BAD_FRAMES n.val) = 0
      ∧ t.rd (ROLL_STR_STATUS.SAME_RUN n.val) = s.rd (ROLL_STR_STATUS.SAME_RUN n.val)
      ∧ t.rd (ROLL_STR_STATUS.LAST_COUNTER n.val) = s.rd (ROLL_STR_STATUS.LAST_COUNTER n.val)
      ∧ SameBut [.bus, .regs] (s.asked w .roll_str_status n.val 0) t ∧ RegsBut [ROLL_STR_STATUS n.val] s t))

/-! ### Register and memory accesses -/

/-- R12: a write to a register that has no other effect leaves every field as its access code says: RO and RC unchanged, RW the value written, W1C
cleared and W1S set where 1 is written, WO zero; a register of RO and RC fields alone is left unchanged. A read returns every field but the WO ones
and clears the RC fields. -/
def Obligations.RegisterFieldsFollowTheirAccessCodes : Prop :=
  ∀ (s : State) (w : Initiator) (a : PAddr) (f : RegFam) (i j : Nat), s.AtRegs w a.toNat 8 → regOver a.toNat = some (f, i, j) →
    a.toNat = (f.reg i j).addr →
    (∀ d : Word, s.Reaches w f i j true → regWidth f = 8 → f ∈ [.clc_mem_uelog, .disp_rast_spill, .disp_rast_lesson, .disp_plane_cfg, .hub_viol_addr,
        .core_viol_addr, .clc_viol_addr, .wmark_viol_addr, .secmb_ch_rsp, .pmc_hold_log, .brg_viol_addr, .gw_gct_data, .gw_obj_sel, .pmc_rail_status,
        .aon_reset_cause] →
      Answers (.registerWrite w (.mem a 8) d) s (fun t => t.bus = .done
        ∧ (∀ x ∈ f.fields, t.rd (x.ref (f.reg i j)) = (match x.acc with
            | .ro => s.rd (x.ref (f.reg i j)) | .rc => s.rd (x.ref (f.reg i j)) | .rw => (x.ref (f.reg i j)).of d.toNat
            | .rwl => (x.ref (f.reg i j)).of d.toNat | .wo => 0
            | .w1c => s.rd (x.ref (f.reg i j)) &&& ((x.ref (f.reg i j)).of d.toNat ^^^ (2 ^ 64 - 1))
            | .w1s => s.rd (x.ref (f.reg i j)) ||| (x.ref (f.reg i j)).of d.toNat))
        ∧ SameBut [.bus, .regs] (s.through w f i j) t ∧ RegsBut [f.reg i j] s t)) ∧
    (∀ d : Word, s.Reaches w f i j true → (∀ x ∈ f.fields, x.acc = .ro ∨ x.acc = .rc) →
      exec (.registerWrite w (.mem a (regWidth f)) d) s = .next { s.through w f i j with bus := .done }) ∧
    (∀ b, s.Reaches w f i j false → f ∉ [.aon_service, .fcu_summary, .fcu_log_ptr, .fcu_src_state, .time_now, .time_tick_us, .qmgr_sel, .qmgr_qbase,
        .qmgr_qcfg, .qmgr_qptr, .qmgr_qcells, .qmgr_pool, .pmc_opp_cd, .brg_status, .brg_pel_status, .brg_barrier, .gw_obj_value] →
      Answers (.memoryAccess w a (.read 8 b)) s (fun t => (∃ v, t.bus = .data v
          ∧ ∀ x ∈ f.fields, (x.ref (f.reg i j)).of v = if x.acc = .wo then 0 else s.rd (x.ref (f.reg i j)))
        ∧ (∀ x ∈ f.fields, t.rd (x.ref (f.reg i j)) = if x.acc = .rc then 0 else s.rd (x.ref (f.reg i j)))
        ∧ SameBut [.bus, .regs] (s.asked w f i j) t ∧ RegsBut [f.reg i j] s t))

/-- R15, R16, R277, R417: an access of another width or alignment than the register's is a violation with REASON WIDTH; one without the right is a
violation with REASON RIGHTS; where no register lies a naturally aligned access reads zero and writes nothing and any other is a violation with REASON
WIDTH; an address in no block is a violation with REASON HOLE. What a register that the spec does not list reads as is free (log entry 12). -/
def Obligations.WrongRegisterAccessesAreViolations : Prop :=
  (∀ (s : State) (w : Initiator) (a : PAddr) (f : RegFam) (i j : Nat), s.AtRegs w a.toNat 8 → w.kind ≠ .seat →
    regOver a.toNat = some (f, i, j) →
    (∀ n d, a.toNat ≠ (f.reg i j).addr ∨ n ≠ regWidth f → Answers (.registerWrite w (.mem a n) d) s (fun t => t.bus = .error
      ∧ Logged (regViol a.toNat 2) (s.ctx w) a.toNat true s t ∧ SameBut (.bus :: eventParts) s t)) ∧
    (∀ n b, a.toNat ≠ (f.reg i j).addr ∨ n ≠ regWidth f → Answers (.memoryAccess w a (.read n b)) s (fun t => t.bus = .error
      ∧ Logged (regViol a.toNat 2) (s.ctx w) a.toNat false s t ∧ SameBut (.bus :: eventParts) s t)) ∧
    (∀ d, a.toNat = (f.reg i j).addr → s.rightsOk f i w true = false → Answers (.registerWrite w (.mem a (regWidth f)) d) s (fun t =>
      t.bus = .error ∧ Logged (regViol a.toNat 3) (s.ctx w) a.toNat true s t ∧ SameBut (.bus :: eventParts) s t)) ∧
    (∀ b, a.toNat = (f.reg i j).addr → s.rightsOk f i w false = false → Answers (.memoryAccess w a (.read (regWidth f) b)) s (fun t =>
      t.bus = .error ∧ Logged (regViol a.toNat 3) (s.ctx w) a.toNat false s t ∧ SameBut (.bus :: eventParts) s t))) ∧
  (∀ (s : State) (w : Initiator) (a : PAddr) (n : Nat), s.AtRegs w a.toNat n → regOver a.toNat = none →
    (naturally a.toNat n = true →
      (∀ d, s.pairShut w.kind (s.sliceOf w) a.toNat n true = false →
        exec (.registerWrite w (.mem a n) d) s = .next { s with bus := .done }) ∧
      (∀ b, s.pairShut w.kind (s.sliceOf w) a.toNat n false = false →
        (unlisted a.toNat = false → exec (.memoryAccess w a (.read n b)) s = .next { s with bus := .data 0 }) ∧
        (unlisted a.toNat = true → Answers (.memoryAccess w a (.read n b)) s (fun t => (∃ v, t.bus = .data v) ∧ SameBut [.bus, .fresh] s t)))) ∧
    (∀ d, naturally a.toNat n = false → w.kind ≠ .seat → Answers (.registerWrite w (.mem a n) d) s (fun t => t.bus = .error
      ∧ Logged (regViol a.toNat 2) (s.ctx w) a.toNat true s t ∧ SameBut (.bus :: eventParts) s t))) ∧
  (∀ (s : State) (w : Initiator) (a : PAddr) (op : MemOp), s.Awake → w.kind ≠ .seat → placeOf s.pins.fittedMiB a.toNat = .hole →
    (w.kind = .pair → s.pairCarries a.toNat = true) →
    Answers (.memoryAccess w a op) s (fun t => (startDie w = 0 ∨ (∀ bs, op ≠ .write bs) → t.bus = .error)
      ∧ Logged (hubViol 1) (s.ctx w) a.toNat (opWrites op) s t ∧ SameBut (.bus :: .ecc :: .bridges :: eventParts) s t))

/-- R32, R56, R341, R345, R347: an access to Slate, Locker or LPDDR5X that passes its checks reads the bytes or writes them and no other; a reserved load
leaves a reservation, a conditional store writes only where it stands, and an atomic operation reads the old bytes and writes the result; an access that
fails a check is logged and gets an error response; one that a march test holds waits. The partner's access is made as its window's slice, and over a
trained link only, at SECMB channel 27 or once it has authenticated. R287: an access of an application core to LPDDR5X takes a line of the last-level cache
in a way of its world, and hits no line of the other world. An application core writes its own APC_PROCID register. The form of a response that waits
(log entry 3), the granule of a reservation and the results of the atomic operations (68), the halt of a Seat whose access fails (88), the lines of the
cache (87) and the answer to another initiator's write of APC_PROCID (62) are the model's. -/
def Obligations.MemoryIsReadAndWritten : Prop :=
  (∀ (s : State) (w : Initiator) (a : PAddr), s.ecc.ce = [] → s.ecc.ue = [] →
    (∀ n b, s.AtMem w a.toNat n false → s.busCheck w a.toNat n false false = .ok → Answers (.memoryAccess w a (.read n b)) s (fun t =>
      t.bus = .bytes (s.readMem a.toNat n) ∧ SameBut [.bus, .slices, .llc] s t)) ∧
    (∀ bs, s.AtMem w a.toNat bs.length true → s.busCheck w a.toNat bs.length true false = .ok → Answers (.memoryAccess w a (.write bs)) s (fun t =>
      t.bus = .done ∧ (∀ k, k < bs.length → t.byte (a.toNat + k) = bs.getD k 0#8) ∧ MemBut a.toNat bs.length s t
      ∧ SameBut [.bus, .mem, .ecc, .slices, .llc] s t)) ∧
    (w.kind ≠ .pair →
      (∀ n, s.AtMem w a.toNat n false → s.busCheck w a.toNat n false true = .ok → Answers (.memoryAccess w a (.loadReserved n)) s (fun t =>
        t.bus = .bytes (s.readMem a.toNat n) ∧ t.reserved? w a.toNat = true ∧ SameBut [.bus, .ecc, .slices, .llc] s t)) ∧
      (∀ bs, s.AtMem w a.toNat bs.length true → s.busCheck w a.toNat bs.length true true = .ok →
        (s.reserved? w a.toNat = true → Answers (.memoryAccess w a (.storeCond bs)) s (fun t => t.bus = .data 0
          ∧ (∀ k, k < bs.length → t.byte (a.toNat + k) = bs.getD k 0#8) ∧ MemBut a.toNat bs.length s t ∧ t.reserved? w a.toNat = false
          ∧ SameBut [.bus, .mem, .ecc, .slices, .llc] s t)) ∧
        (s.reserved? w a.toNat = false → Answers (.memoryAccess w a (.storeCond bs)) s (fun t => t.bus = .data 1
          ∧ SameBut [.bus, .ecc, .slices, .llc] s t)) ∧
        (∀ f new, new = leBytes bs.length (amoResult f bs.length (leNat (s.readMem a.toNat bs.length)) (leNat bs)) →
          Answers (.memoryAccess w a (.atomic f bs)) s (fun t => t.bus = .bytes (s.readMem a.toNat bs.length)
            ∧ (∀ k, k < bs.length → t.byte (a.toNat + k) = new.getD k 0#8) ∧ MemBut a.toNat bs.length s t
            ∧ SameBut [.bus, .mem, .ecc, .slices, .llc] s t))))) ∧
  (∀ (s : State) (w : Initiator) (a : PAddr) (n off : Nat) (b : Bool), s.ecc.ce = [] → s.ecc.ue = [] → s.AtMem w a.toNat n false → w.kind = .apc →
    s.busCheck w a.toNat n false false = .ok → placeOf s.pins.fittedMiB a.toNat = .dram off → 1 ≤ n → off % 64 + n ≤ 64 →
    Answers (.memoryAccess w a (.read n b)) s (fun t =>
      (∀ l ∈ t.llc, l ∈ s.llc ∨ (l.line = off / 64 ∧ l.secure = s.isSecure w ∧ l.way < 16
        ∧ bit (s.rd APC_LLC_PART.SECURE_WAYS) l.way = s.isSecure w))
      ∧ ((∃ k < 16, bit (s.rd APC_LLC_PART.SECURE_WAYS) k = s.isSecure w) → ∃ l ∈ t.llc, l.line = off / 64 ∧ l.secure = s.isSecure w)
      ∧ ((∀ k < 16, bit (s.rd APC_LLC_PART.SECURE_WAYS) k ≠ s.isSecure w) → (∀ l ∈ s.llc, ¬(l.line = off / 64 ∧ l.secure = s.isSecure w)) →
          t.llc = s.llc))) ∧
  (∀ (s : State) (w : Initiator) (a : PAddr) (op : MemOp) (x : Verdict), s.AtMem w a.toNat (opBytes op) (opWrites op) →
    x = s.busCheck w a.toNat (opBytes op) (opWrites op) (opExclusive op) →
    (∀ v, x = .viol v → w.kind ≠ .seat → Answers (.memoryAccess w a op) s (fun t =>
      t.bus = .error ∧ Logged v (s.ctx w) a.toNat (opWrites op) s t ∧ SameBut (.bus :: .ecc :: .bridges :: eventParts) s t)) ∧
    (∀ v, x = .viol v → w.kind = .seat → w.index < 1024 → s.LoneRun w.index → v.reason = 5 ∨ v.reason = 6 →
      Answers (.memoryAccess w a op) s (fun t => t.bus = .error ∧ t.seatState w.index = 6 ∧ t.mem = s.mem)) ∧
    (x = .err → w.kind ≠ .seat → Answers (.memoryAccess w a op) s (fun t =>
      t.bus = .error ∧ SameBut [.bus, .ecc, .bridges] s t ∧ (opExclusive op = false → SameBut [.bus] s t))) ∧
    (x = .err → w.kind = .seat → w.index < 1024 → s.LoneRun w.index → Answers (.memoryAccess w a op) s (fun t =>
      t.bus = .error ∧ t.seatState w.index = 6 ∧ t.mem = s.mem)) ∧
    (x = .waits → exec (.memoryAccess w a op) s = .next { s with bus := .wait 256 })) ∧
  (∀ (s : State) (a : PAddr) (op : MemOp), s.Awake →
    (s.boot.strapEn = false ∨ s.pair.trained = false ∨ (s.sec.pairAuth = false ∧ pairChannel a.toNat = false) →
      exec (.pairInboundAccess a op) s = .next { s with bus := .error }) ∧
    exec (.pairInboundAccess a op) s = exec (.memoryAccess (s.partner a.toNat (opBytes op) (opWrites op)) a op) s ∧
    (∀ w n b, op = .read n b → w = s.partner a.toNat n false →
      s.AtMem w a.toNat n false → s.busCheck w a.toNat n false false = .ok → s.ecc.ce = [] → s.ecc.ue = [] →
      Answers (.pairInboundAccess a op) s (fun t => t.bus = .bytes (s.readMem a.toNat n) ∧ SameBut [.bus, .slices] s t))) ∧
  (∀ (s : State) (w : Initiator) (c : Fin 24) (d : Word), s.Awake →
    (w.kind = .apc → w.index = c.val → Answers (.registerWrite w (.apcProcId c) d) s (fun t => t.bus = .done
      ∧ Table.get t.sec.procId 0 c.val = d.toNat % 2 ^ 20 ∧ (∀ k, k ≠ c.val → Table.get t.sec.procId 0 k = Table.get s.sec.procId 0 k)
      ∧ SameBut [.bus, .sec] s t)) ∧
    (w.kind ≠ .apc ∨ w.index ≠ c.val → exec (.registerWrite w (.apcProcId c) d) s = .next { s with bus := .error }))

/-- The registers whose fields have a rule of their own keep it when they are written. R412: CFG_PADg under its LOCK, GLITCH at most 4. R287, R288:
APC_LLC_PART under its LOCK, never with all ways secure. MLMB_PRIV_OWNER and GW_ADMIN under their LOCK. R336, R36: BRG_CTRL takes a READ_TIMEOUT_US from 10 us, and
in a standalone device the Pair Bridge's takes nothing. R348: PAIR_ALIVE under its LOCK, TIMEOUT_US from 400 and START_10MS not 0. R252: the counts and
steps of ROLL_STRn_GRID. R267-R269, R282: the fields of FCU_SRCn_CFG until FCU_CTRL.LOCK, CLASS not below its default, and the reactions of reset stay. R46:
CLC_SEAT_DESC_PTR in IDLE only, PADCONST in EMPTY or IDLE only. R203, R204: PLAN_CHn_CFG holds the fields of the record; PLAN_CHn_CTRL without START, SLICE
from the Registrar only. R353, R354, R360: the Queue Manager's registers act on the queue that the party has selected; QBASE while the queue is disabled, of
a Mladnel queue while its mailbox is not negotiated; QCELLS of a network queue by the parties that have the right. -/
def Obligations.ConfigurationRegistersKeepTheirRules : Prop :=
  (∀ (s : State) (w : Initiator) (a : PAddr) (f : RegFam) (i j : Nat) (d : Word) (lock : Bool) (ok : Fld → Nat → Bool), s.AtRegs w a.toNat 8 →
    regOver a.toNat = some (f, i, j) → a.toNat = (f.reg i j).addr → s.Reaches w f i j true →
    (f = .cfg_pad ∧ lock = s.on (CFG_PAD.LOCK i) ∧ ok = (fun x n => x.lo ≠ 12 || decide (n ≤ 4)))
      ∨ (f = .apc_llc_part ∧ lock = s.on APC_LLC_PART.LOCK ∧ ok = (fun x n => x.lo ≠ 0 || n ≠ 0xFFFF))
      ∨ (f = .mlmb_priv_owner ∧ lock = s.on (MLMB_PRIV_OWNER.LOCK i) ∧ ok = anyValue)
      ∨ (f = .gw_admin ∧ lock = s.on GW_ADMIN.LOCK ∧ ok = anyValue)
      ∨ (f = .brg_ctrl ∧ (i = 4 → s.boot.strapEn = true) ∧ ok = (fun x n => x.lo ≠ 32 || decide (10 ≤ n)))
      ∨ (f = .pair_alive ∧ s.boot.strapEn = true ∧ lock = s.on PAIR_ALIVE.LOCK ∧ ok = pairAliveOk)
      ∨ (f = .roll_str_grid ∧ ok = rollGridOk)
      ∨ (f = .clc_seat_padconst ∧ s.seatState (64 * i + j) ≤ 1 ∧ ok = anyValue) →
    Answers (.registerWrite w (.mem a 8) d) s (fun t => t.bus = .done ∧ FieldsWritten f i j lock ok d.toNat s t
      ∧ SameBut [.bus, .regs] (s.through w f i j) t ∧ RegsBut [f.reg i j] s t)) ∧
  (∀ (s : State) (w : Initiator) (a : PAddr) (f : RegFam) (i j : Nat) (d : Word), s.AtRegs w a.toNat 8 →
    regOver a.toNat = some (f, i, j) → a.toNat = (f.reg i j).addr → s.Reaches w f i j true →
    (f = .brg_ctrl ∧ i = 4 ∧ s.boot.strapEn = false) ∨ (f = .pair_alive ∧ s.boot.strapEn = false)
      ∨ (f = .clc_seat_padconst ∧ 1 < s.seatState (64 * i + j)) ∨ (f = .clc_seat_desc_ptr ∧ s.seatState (64 * i + j) ≠ 1)
      ∨ (f = .fcu_src_cfg ∧ (s.on FCU_CTRL.LOCK = true ∨ srcReset i = none))
      ∨ (f = .qmgr_qbase ∧ isMladnel (s.qSelected w) = false ∧ (s.queue (s.qSelected w)).enabled = true)
      ∨ (f = .qmgr_qbase ∧ isMladnel (s.qSelected w) = true ∧ s.on (MLMB_MB_STATUS.NEGOTIATED ((s.qSelected w - 57344) / 2)) = true)
      ∨ (f = .qmgr_qcells ∧ (isNetQueue (s.qSelected w) = false ∨ fullQueueRights w = false)) →
    exec (.registerWrite w (.mem a 8) d) s = .next { s.through w f i j with bus := .done }) ∧
  (∀ (s : State) (w : Initiator) (a : PAddr) (i j : Nat) (d : Word), s.AtRegs w a.toNat 8 →
    (regOver a.toNat = some (.clc_seat_desc_ptr, i, j) → a.toNat = (CLC_SEAT_DESC_PTR i j).addr → s.Reaches w .clc_seat_desc_ptr i j true →
      s.seatState (64 * i + j) = 1 → Answers (.registerWrite w (.mem a 8) d) s (fun t => t.bus = .done
        ∧ t.rd (CLC_SEAT_DESC_PTR.PTR i j) = bits d.toNat 20 6 ∧ (t.seat (64 * i + j)).ptrOver = false
        ∧ (∀ g, g ≠ 64 * i + j → t.seat g = s.seat g) ∧ SameBut [.bus, .regs, .seats] (s.through w .clc_seat_desc_ptr i j) t
        ∧ RegsBut [CLC_SEAT_DESC_PTR i j] s t)) ∧
    (∀ r, regOver a.toNat = some (.fcu_src_cfg, i, j) → a.toNat = (FCU_SRC_CFG i).addr → s.Reaches w .fcu_src_cfg i j true →
      s.on FCU_CTRL.LOCK = false → srcReset i = some r → Answers (.registerWrite w (.mem a 8) d) s (fun t => t.bus = .done
        ∧ t.rd (FCU_SRC_CFG.W_MS i) = (if bits d.toNat 63 48 = 0 then s.rd (FCU_SRC_CFG.W_MS i) else bits d.toNat 63 48)
        ∧ t.rd (FCU_SRC_CFG.N i) = bits d.toNat 47 40 ∧ t.rd (FCU_SRC_CFG.REACT i) = (bits d.toNat 39 36 ||| r.2.2.2) % 16
        ∧ t.rd (FCU_SRC_CFG.CLASS i) = (if bits d.toNat 1 0 < r.1 then s.rd (FCU_SRC_CFG.CLASS i) else bits d.toNat 1 0)
        ∧ t.rd (FCU_SRC_CFG.DEFAULT_CLASS i) = s.rd (FCU_SRC_CFG.DEFAULT_CLASS i)
        ∧ SameBut [.bus, .regs] (s.through w .fcu_src_cfg i j) t ∧ RegsBut [FCU_SRC_CFG i] s t)) ∧
    (regOver a.toNat = some (.plan_ch_cfg, i, j) → a.toNat = (PLAN_CH_CFG i j).addr → s.Reaches w .plan_ch_cfg i j true →
      Answers (.registerWrite w (.mem a 8) d) s (fun t => t.bus = .done ∧ t.reg64 (PLAN_CH_CFG i j) = (d.toNat &&& planCfgMask j)
        ∧ SameBut [.bus, .regs] (s.through w .plan_ch_cfg i j) t ∧ RegsBut [PLAN_CH_CFG i j] s t)) ∧
    (regOver a.toNat = some (.plan_ch_ctrl, i, j) → a.toNat = (PLAN_CH_CTRL i).addr → s.Reaches w .plan_ch_ctrl i j true → bit d.toNat 1 = false →
      Answers (.registerWrite w (.mem a 8) d) s (fun t => t.bus = .done
        ∧ t.rd (PLAN_CH_CTRL.SLICE i) = (if isRegistrar w then bits d.toNat 13 8 else s.rd (PLAN_CH_CTRL.SLICE i))
        ∧ t.rd (PLAN_CH_CTRL.TRIGGER i) = (if (if s.planPriv i then bits d.toNat 3 2 = 1 else bits d.toNat 3 2 ≠ 3) then bits d.toNat 3 2
            else s.rd (PLAN_CH_CTRL.TRIGGER i))
        ∧ t.rd (PLAN_CH_CTRL.CAND_SRC i) = bits d.toNat 4 4 ∧ t.rd (PLAN_CH_CTRL.ENABLE i) = bits d.toNat 0 0
        ∧ t.rd (PLAN_CH_CTRL.PRIVILEGED i) = s.rd (PLAN_CH_CTRL.PRIVILEGED i)
        ∧ SameBut [.bus, .regs, .proc] (s.through w .plan_ch_ctrl i j) t ∧ RegsBut [PLAN_CH_CTRL i] s t))) ∧
  (∀ (s : State) (w : Initiator) (a : PAddr) (i j n : Nat) (d : Word), s.AtRegs w a.toNat 8 → n = s.qSelected w →
    (regOver a.toNat = some (.qmgr_sel, i, j) → a.toNat = QMGR_SEL.addr → s.Reaches w .qmgr_sel i j true →
      Answers (.registerWrite w (.mem a 8) d) s (fun t => t.bus = .done ∧ t.qSelected w = bits d.toNat 15 0
        ∧ (∀ v, s.qParty v ≠ s.qParty w → t.qSelected v = s.qSelected v) ∧ SameBut [.bus, .qsel] (s.through w .qmgr_sel i j) t)) ∧
    (regOver a.toNat = some (.qmgr_qbase, i, j) → a.toNat = QMGR_QBASE.addr → s.Reaches w .qmgr_qbase i j true →
      (isMladnel n = false → (s.queue n).enabled = false → Answers (.registerWrite w (.mem a 8) d) s (fun t => t.bus = .done
        ∧ t.queue n = { s.queue n with base := bits d.toNat 47 6 * 64 } ∧ (∀ k, k ≠ n → t.queue k = s.queue k)
        ∧ SameBut [.bus, .queues] (s.through w .qmgr_qbase i j) t)) ∧
      (isMladnel n = true → s.on (MLMB_MB_STATUS.NEGOTIATED ((n - 57344) / 2)) = false → Answers (.registerWrite w (.mem a 8) d) s (fun t =>
        t.bus = .done ∧ t.queue n = { s.queue n with base := bits d.toNat 47 6 * 64, prod := 0, cons := 0 }
        ∧ (∀ k, k ≠ n → t.queue k = s.queue k) ∧ SameBut [.bus, .queues, .mbox, .gw] (s.through w .qmgr_qbase i j) t))) ∧
    (regOver a.toNat = some (.qmgr_qcells, i, j) → a.toNat = QMGR_QCELLS.addr → s.Reaches w .qmgr_qcells i j true → isNetQueue n = true →
      fullQueueRights w = true → Answers (.registerWrite w (.mem a 8) d) s (fun t => t.bus = .done
        ∧ t.queue n = { s.queue n with maxCells := bits d.toNat 31 16, minCells := bits d.toNat 15 0 } ∧ (∀ k, k ≠ n → t.queue k = s.queue k)
        ∧ SameBut (.bus :: .queues :: .gw :: eventParts) (s.through w .qmgr_qcells i j) t)) ∧
    (regOver a.toNat = some (.qmgr_pool, i, j) → a.toNat = QMGR_POOL.addr → s.Reaches w .qmgr_pool i j true →
      Answers (.registerWrite w (.mem a 8) d) s (fun t => t.bus = .done ∧ t.rd QMGR_POOL.LOW_CELLS = bits d.toNat 63 49
        ∧ (s.gw.poolLow = false → s.sharedFree < bits d.toNat 63 49 → t.gw.poolLow = true ∧ (s.underTest srcGwPoolLow = false → t.Raised srcGwPoolLow))
        ∧ (s.gw.poolLow = true → 2 * bits d.toNat 63 49 < s.sharedFree → t.gw.poolLow = false)
        ∧ SameBut (.bus :: .gw :: eventParts) (s.through w .qmgr_pool i j) t)))

/-! ### The whole machine -/

/-- The block takes the command at the front of its queue: a step is `exec` of it with the queue's rest. -/
def Obligations.StepTakesTheFrontCommand : Prop :=
  ∀ (s : State) (c : Instr) (rest : List Instr), s.pending = c :: rest → step s = exec c { s with pending := rest }

/-- R27, R369, R410, R413: on an empty queue the TIME clock ticks: Vehicle Time advances by 8 ns x (1 + RATE_PPB x 10^-9) while it runs, and the part
below 1 ns is kept. PWR_EN of a die is driven high then at the earliest, and not before the self-check of the FCU has passed. That a step on an empty queue
is a tick (log entry 1), that what had to wait happens then (64) and that the PMC drives PWR_EN then (91) are the model's choices. -/
def Obligations.AnEmptyQueueLetsTimeTick : Prop :=
  ∀ (s : State), s.pending = [] → ∃ t, step s = .next t ∧ t.pending = [] ∧ (s.boot.inReset = true → t = s)
    ∧ (s.Awake → s.ecc.late = [] → t.clock.running = s.clock.running ∧ (s.clock.running = false → t.clock = s.clock)
      ∧ (s.clock.running = true → (t.clock.now * 1000000000 + t.clock.frac : Nat)
          = s.clock.now * 1000000000 + s.clock.frac + (8 * (1000000000 + s.ratePpb)).toNat ∧ t.clock.frac < 1000000000)
      ∧ (∀ d < 2, (s.pwrEn d = true → t.pwrEn d = true) ∧ (s.boot.fcuPassed = false → t.pwrEn d = s.pwrEn d))
      ∧ ((∀ d < 2, (s.die d).dipHalt = false) → SameBut [.clock, .regs, .boot, .pins, .dies] s t ∧ RegsBut [AON_SERVICE] s t))

/-- No command changes the queue of the commands that wait. -/
def Obligations.CommandsLeaveTheQueue : Prop :=
  ∀ (c : Instr) (s t : State), exec c s = .next t → t.pending = s.pending

/-- The memory and the register file after reset are in canonical form. -/
def Obligations.ResetIsCanonical : Prop :=
   State.reset.Canonical

/-- Every step keeps the canonical form of memory and register file: equal contents stay equal data. -/
def Obligations.EveryStepKeepsTheCanonicalForm : Prop :=
  ∀ (s t : State), s.Canonical → step s = .next t → t.Canonical

/-- R392: while the device is held in reset, no command but a power-on reset, the reset pin, the release of reset and the restart after a thermal
shutdown has any effect, but for a rail of the Hub or of memory at its reset threshold, which resets the device again (R379). That such a command leaves the state as it was
is the model's choice (log entry 2). -/
def Obligations.NothingRunsInReset : Prop :=
  ∀ (c : Instr) (s : State), s.boot.inReset = true → (∀ n, c ≠ .resetPin n) → (∀ r, c = .railResetThreshold r → ∃ k, r = .die k) →
    c ∉ [.powerOnReset, .resetRelease, .thermalRestart] → exec c s = .next s

/-- No command faults or is refused. That one which is not enabled leaves the state as it was is the model's choice (log entry 2). -/
def Obligations.NoCommandFaultsOrIsRefused : Prop :=
  ∀ (c : Instr) (s : State), ∃ t, exec c s = .next t
end

