-- ==== Sys2Proof/Laws/State.lean ====
section
/-! SUPPORT. One lemma per field of the state and per update of it: an update changes its own field alone. -/

namespace Sys2Proof.Machine

@[simp] theorem State.setReg64_pending (s : State) (r : Reg) (v : Nat) : (s.setReg64 r v).pending = s.pending := rfl
@[simp] theorem State.setReg64_bus (s : State) (r : Reg) (v : Nat) : (s.setReg64 r v).bus = s.bus := rfl
@[simp] theorem State.setReg64_fresh (s : State) (r : Reg) (v : Nat) : (s.setReg64 r v).fresh = s.fresh := rfl
@[simp] theorem State.setReg64_irqOut (s : State) (r : Reg) (v : Nat) : (s.setReg64 r v).irqOut = s.irqOut := rfl
@[simp] theorem State.setReg64_mem (s : State) (r : Reg) (v : Nat) : (s.setReg64 r v).mem = s.mem := rfl
@[simp] theorem State.setReg64_ecc (s : State) (r : Reg) (v : Nat) : (s.setReg64 r v).ecc = s.ecc := rfl
@[simp] theorem State.setReg64_pins (s : State) (r : Reg) (v : Nat) : (s.setReg64 r v).pins = s.pins := rfl
@[simp] theorem State.setReg64_fuses (s : State) (r : Reg) (v : Nat) : (s.setReg64 r v).fuses = s.fuses := rfl
@[simp] theorem State.setReg64_boot (s : State) (r : Reg) (v : Nat) : (s.setReg64 r v).boot = s.boot := rfl
@[simp] theorem State.setReg64_clock (s : State) (r : Reg) (v : Nat) : (s.setReg64 r v).clock = s.clock := rfl
@[simp] theorem State.setReg64_fcu (s : State) (r : Reg) (v : Nat) : (s.setReg64 r v).fcu = s.fcu := rfl
@[simp] theorem State.setReg64_dies (s : State) (r : Reg) (v : Nat) : (s.setReg64 r v).dies = s.dies := rfl
@[simp] theorem State.setReg64_pwr (s : State) (r : Reg) (v : Nat) : (s.setReg64 r v).pwr = s.pwr := rfl
@[simp] theorem State.setReg64_seats (s : State) (r : Reg) (v : Nat) : (s.setReg64 r v).seats = s.seats := rfl
@[simp] theorem State.setReg64_cores (s : State) (r : Reg) (v : Nat) : (s.setReg64 r v).cores = s.cores := rfl
@[simp] theorem State.setReg64_clusters (s : State) (r : Reg) (v : Nat) : (s.setReg64 r v).clusters = s.clusters := rfl
@[simp] theorem State.setReg64_lessons (s : State) (r : Reg) (v : Nat) : (s.setReg64 r v).lessons = s.lessons := rfl
@[simp] theorem State.setReg64_jobs (s : State) (r : Reg) (v : Nat) : (s.setReg64 r v).jobs = s.jobs := rfl
@[simp] theorem State.setReg64_roster (s : State) (r : Reg) (v : Nat) : (s.setReg64 r v).roster = s.roster := rfl
@[simp] theorem State.setReg64_reg (s : State) (r : Reg) (v : Nat) : (s.setReg64 r v).reg = s.reg := rfl
@[simp] theorem State.setReg64_queues (s : State) (r : Reg) (v : Nat) : (s.setReg64 r v).queues = s.queues := rfl
@[simp] theorem State.setReg64_qsel (s : State) (r : Reg) (v : Nat) : (s.setReg64 r v).qsel = s.qsel := rfl
@[simp] theorem State.setReg64_mbox (s : State) (r : Reg) (v : Nat) : (s.setReg64 r v).mbox = s.mbox := rfl
@[simp] theorem State.setReg64_slices (s : State) (r : Reg) (v : Nat) : (s.setReg64 r v).slices = s.slices := rfl
@[simp] theorem State.setReg64_sec (s : State) (r : Reg) (v : Nat) : (s.setReg64 r v).sec = s.sec := rfl
@[simp] theorem State.setReg64_found (s : State) (r : Reg) (v : Nat) : (s.setReg64 r v).found = s.found := rfl
@[simp] theorem State.setReg64_llc (s : State) (r : Reg) (v : Nat) : (s.setReg64 r v).llc = s.llc := rfl
@[simp] theorem State.setReg64_bridges (s : State) (r : Reg) (v : Nat) : (s.setReg64 r v).bridges = s.bridges := rfl
@[simp] theorem State.setReg64_pair (s : State) (r : Reg) (v : Nat) : (s.setReg64 r v).pair = s.pair := rfl
@[simp] theorem State.setReg64_plan (s : State) (r : Reg) (v : Nat) : (s.setReg64 r v).plan = s.plan := rfl
@[simp] theorem State.setReg64_rast (s : State) (r : Reg) (v : Nat) : (s.setReg64 r v).rast = s.rast := rfl
@[simp] theorem State.setReg64_proc (s : State) (r : Reg) (v : Nat) : (s.setReg64 r v).proc = s.proc := rfl
@[simp] theorem State.setReg64_gw (s : State) (r : Reg) (v : Nat) : (s.setReg64 r v).gw = s.gw := rfl
@[simp] theorem State.setReg64_time (s : State) (r : Reg) (v : Nat) : (s.setReg64 r v).time = s.time := rfl

@[simp] theorem State.wr_pending (s : State) (f : FRef) (v : Nat) : (s.wr f v).pending = s.pending := rfl
@[simp] theorem State.wr_bus (s : State) (f : FRef) (v : Nat) : (s.wr f v).bus = s.bus := rfl
@[simp] theorem State.wr_fresh (s : State) (f : FRef) (v : Nat) : (s.wr f v).fresh = s.fresh := rfl
@[simp] theorem State.wr_irqOut (s : State) (f : FRef) (v : Nat) : (s.wr f v).irqOut = s.irqOut := rfl
@[simp] theorem State.wr_mem (s : State) (f : FRef) (v : Nat) : (s.wr f v).mem = s.mem := rfl
@[simp] theorem State.wr_ecc (s : State) (f : FRef) (v : Nat) : (s.wr f v).ecc = s.ecc := rfl
@[simp] theorem State.wr_pins (s : State) (f : FRef) (v : Nat) : (s.wr f v).pins = s.pins := rfl
@[simp] theorem State.wr_fuses (s : State) (f : FRef) (v : Nat) : (s.wr f v).fuses = s.fuses := rfl
@[simp] theorem State.wr_boot (s : State) (f : FRef) (v : Nat) : (s.wr f v).boot = s.boot := rfl
@[simp] theorem State.wr_clock (s : State) (f : FRef) (v : Nat) : (s.wr f v).clock = s.clock := rfl
@[simp] theorem State.wr_fcu (s : State) (f : FRef) (v : Nat) : (s.wr f v).fcu = s.fcu := rfl
@[simp] theorem State.wr_dies (s : State) (f : FRef) (v : Nat) : (s.wr f v).dies = s.dies := rfl
@[simp] theorem State.wr_pwr (s : State) (f : FRef) (v : Nat) : (s.wr f v).pwr = s.pwr := rfl
@[simp] theorem State.wr_seats (s : State) (f : FRef) (v : Nat) : (s.wr f v).seats = s.seats := rfl
@[simp] theorem State.wr_cores (s : State) (f : FRef) (v : Nat) : (s.wr f v).cores = s.cores := rfl
@[simp] theorem State.wr_clusters (s : State) (f : FRef) (v : Nat) : (s.wr f v).clusters = s.clusters := rfl
@[simp] theorem State.wr_lessons (s : State) (f : FRef) (v : Nat) : (s.wr f v).lessons = s.lessons := rfl
@[simp] theorem State.wr_jobs (s : State) (f : FRef) (v : Nat) : (s.wr f v).jobs = s.jobs := rfl
@[simp] theorem State.wr_roster (s : State) (f : FRef) (v : Nat) : (s.wr f v).roster = s.roster := rfl
@[simp] theorem State.wr_reg (s : State) (f : FRef) (v : Nat) : (s.wr f v).reg = s.reg := rfl
@[simp] theorem State.wr_queues (s : State) (f : FRef) (v : Nat) : (s.wr f v).queues = s.queues := rfl
@[simp] theorem State.wr_qsel (s : State) (f : FRef) (v : Nat) : (s.wr f v).qsel = s.qsel := rfl
@[simp] theorem State.wr_mbox (s : State) (f : FRef) (v : Nat) : (s.wr f v).mbox = s.mbox := rfl
@[simp] theorem State.wr_slices (s : State) (f : FRef) (v : Nat) : (s.wr f v).slices = s.slices := rfl
@[simp] theorem State.wr_sec (s : State) (f : FRef) (v : Nat) : (s.wr f v).sec = s.sec := rfl
@[simp] theorem State.wr_found (s : State) (f : FRef) (v : Nat) : (s.wr f v).found = s.found := rfl
@[simp] theorem State.wr_llc (s : State) (f : FRef) (v : Nat) : (s.wr f v).llc = s.llc := rfl
@[simp] theorem State.wr_bridges (s : State) (f : FRef) (v : Nat) : (s.wr f v).bridges = s.bridges := rfl
@[simp] theorem State.wr_pair (s : State) (f : FRef) (v : Nat) : (s.wr f v).pair = s.pair := rfl
@[simp] theorem State.wr_plan (s : State) (f : FRef) (v : Nat) : (s.wr f v).plan = s.plan := rfl
@[simp] theorem State.wr_rast (s : State) (f : FRef) (v : Nat) : (s.wr f v).rast = s.rast := rfl
@[simp] theorem State.wr_proc (s : State) (f : FRef) (v : Nat) : (s.wr f v).proc = s.proc := rfl
@[simp] theorem State.wr_gw (s : State) (f : FRef) (v : Nat) : (s.wr f v).gw = s.gw := rfl
@[simp] theorem State.wr_time (s : State) (f : FRef) (v : Nat) : (s.wr f v).time = s.time := rfl

@[simp] theorem State.satAdd_pending (s : State) (f : FRef) (n : Nat) : (s.satAdd f n).pending = s.pending := rfl
@[simp] theorem State.satAdd_bus (s : State) (f : FRef) (n : Nat) : (s.satAdd f n).bus = s.bus := rfl
@[simp] theorem State.satAdd_fresh (s : State) (f : FRef) (n : Nat) : (s.satAdd f n).fresh = s.fresh := rfl
@[simp] theorem State.satAdd_irqOut (s : State) (f : FRef) (n : Nat) : (s.satAdd f n).irqOut = s.irqOut := rfl
@[simp] theorem State.satAdd_mem (s : State) (f : FRef) (n : Nat) : (s.satAdd f n).mem = s.mem := rfl
@[simp] theorem State.satAdd_ecc (s : State) (f : FRef) (n : Nat) : (s.satAdd f n).ecc = s.ecc := rfl
@[simp] theorem State.satAdd_pins (s : State) (f : FRef) (n : Nat) : (s.satAdd f n).pins = s.pins := rfl
@[simp] theorem State.satAdd_fuses (s : State) (f : FRef) (n : Nat) : (s.satAdd f n).fuses = s.fuses := rfl
@[simp] theorem State.satAdd_boot (s : State) (f : FRef) (n : Nat) : (s.satAdd f n).boot = s.boot := rfl
@[simp] theorem State.satAdd_clock (s : State) (f : FRef) (n : Nat) : (s.satAdd f n).clock = s.clock := rfl
@[simp] theorem State.satAdd_fcu (s : State) (f : FRef) (n : Nat) : (s.satAdd f n).fcu = s.fcu := rfl
@[simp] theorem State.satAdd_dies (s : State) (f : FRef) (n : Nat) : (s.satAdd f n).dies = s.dies := rfl
@[simp] theorem State.satAdd_pwr (s : State) (f : FRef) (n : Nat) : (s.satAdd f n).pwr = s.pwr := rfl
@[simp] theorem State.satAdd_seats (s : State) (f : FRef) (n : Nat) : (s.satAdd f n).seats = s.seats := rfl
@[simp] theorem State.satAdd_cores (s : State) (f : FRef) (n : Nat) : (s.satAdd f n).cores = s.cores := rfl
@[simp] theorem State.satAdd_clusters (s : State) (f : FRef) (n : Nat) : (s.satAdd f n).clusters = s.clusters := rfl
@[simp] theorem State.satAdd_lessons (s : State) (f : FRef) (n : Nat) : (s.satAdd f n).lessons = s.lessons := rfl
@[simp] theorem State.satAdd_jobs (s : State) (f : FRef) (n : Nat) : (s.satAdd f n).jobs = s.jobs := rfl
@[simp] theorem State.satAdd_roster (s : State) (f : FRef) (n : Nat) : (s.satAdd f n).roster = s.roster := rfl
@[simp] theorem State.satAdd_reg (s : State) (f : FRef) (n : Nat) : (s.satAdd f n).reg = s.reg := rfl
@[simp] theorem State.satAdd_queues (s : State) (f : FRef) (n : Nat) : (s.satAdd f n).queues = s.queues := rfl
@[simp] theorem State.satAdd_qsel (s : State) (f : FRef) (n : Nat) : (s.satAdd f n).qsel = s.qsel := rfl
@[simp] theorem State.satAdd_mbox (s : State) (f : FRef) (n : Nat) : (s.satAdd f n).mbox = s.mbox := rfl
@[simp] theorem State.satAdd_slices (s : State) (f : FRef) (n : Nat) : (s.satAdd f n).slices = s.slices := rfl
@[simp] theorem State.satAdd_sec (s : State) (f : FRef) (n : Nat) : (s.satAdd f n).sec = s.sec := rfl
@[simp] theorem State.satAdd_found (s : State) (f : FRef) (n : Nat) : (s.satAdd f n).found = s.found := rfl
@[simp] theorem State.satAdd_llc (s : State) (f : FRef) (n : Nat) : (s.satAdd f n).llc = s.llc := rfl
@[simp] theorem State.satAdd_bridges (s : State) (f : FRef) (n : Nat) : (s.satAdd f n).bridges = s.bridges := rfl
@[simp] theorem State.satAdd_pair (s : State) (f : FRef) (n : Nat) : (s.satAdd f n).pair = s.pair := rfl
@[simp] theorem State.satAdd_plan (s : State) (f : FRef) (n : Nat) : (s.satAdd f n).plan = s.plan := rfl
@[simp] theorem State.satAdd_rast (s : State) (f : FRef) (n : Nat) : (s.satAdd f n).rast = s.rast := rfl
@[simp] theorem State.satAdd_proc (s : State) (f : FRef) (n : Nat) : (s.satAdd f n).proc = s.proc := rfl
@[simp] theorem State.satAdd_gw (s : State) (f : FRef) (n : Nat) : (s.satAdd f n).gw = s.gw := rfl
@[simp] theorem State.satAdd_time (s : State) (f : FRef) (n : Nat) : (s.satAdd f n).time = s.time := rfl

@[simp] theorem State.wrapAdd_pending (s : State) (f : FRef) (n : Nat) : (s.wrapAdd f n).pending = s.pending := rfl
@[simp] theorem State.wrapAdd_bus (s : State) (f : FRef) (n : Nat) : (s.wrapAdd f n).bus = s.bus := rfl
@[simp] theorem State.wrapAdd_fresh (s : State) (f : FRef) (n : Nat) : (s.wrapAdd f n).fresh = s.fresh := rfl
@[simp] theorem State.wrapAdd_irqOut (s : State) (f : FRef) (n : Nat) : (s.wrapAdd f n).irqOut = s.irqOut := rfl
@[simp] theorem State.wrapAdd_mem (s : State) (f : FRef) (n : Nat) : (s.wrapAdd f n).mem = s.mem := rfl
@[simp] theorem State.wrapAdd_ecc (s : State) (f : FRef) (n : Nat) : (s.wrapAdd f n).ecc = s.ecc := rfl
@[simp] theorem State.wrapAdd_pins (s : State) (f : FRef) (n : Nat) : (s.wrapAdd f n).pins = s.pins := rfl
@[simp] theorem State.wrapAdd_fuses (s : State) (f : FRef) (n : Nat) : (s.wrapAdd f n).fuses = s.fuses := rfl
@[simp] theorem State.wrapAdd_boot (s : State) (f : FRef) (n : Nat) : (s.wrapAdd f n).boot = s.boot := rfl
@[simp] theorem State.wrapAdd_clock (s : State) (f : FRef) (n : Nat) : (s.wrapAdd f n).clock = s.clock := rfl
@[simp] theorem State.wrapAdd_fcu (s : State) (f : FRef) (n : Nat) : (s.wrapAdd f n).fcu = s.fcu := rfl
@[simp] theorem State.wrapAdd_dies (s : State) (f : FRef) (n : Nat) : (s.wrapAdd f n).dies = s.dies := rfl
@[simp] theorem State.wrapAdd_pwr (s : State) (f : FRef) (n : Nat) : (s.wrapAdd f n).pwr = s.pwr := rfl
@[simp] theorem State.wrapAdd_seats (s : State) (f : FRef) (n : Nat) : (s.wrapAdd f n).seats = s.seats := rfl
@[simp] theorem State.wrapAdd_cores (s : State) (f : FRef) (n : Nat) : (s.wrapAdd f n).cores = s.cores := rfl
@[simp] theorem State.wrapAdd_clusters (s : State) (f : FRef) (n : Nat) : (s.wrapAdd f n).clusters = s.clusters := rfl
@[simp] theorem State.wrapAdd_lessons (s : State) (f : FRef) (n : Nat) : (s.wrapAdd f n).lessons = s.lessons := rfl
@[simp] theorem State.wrapAdd_jobs (s : State) (f : FRef) (n : Nat) : (s.wrapAdd f n).jobs = s.jobs := rfl
@[simp] theorem State.wrapAdd_roster (s : State) (f : FRef) (n : Nat) : (s.wrapAdd f n).roster = s.roster := rfl
@[simp] theorem State.wrapAdd_reg (s : State) (f : FRef) (n : Nat) : (s.wrapAdd f n).reg = s.reg := rfl
@[simp] theorem State.wrapAdd_queues (s : State) (f : FRef) (n : Nat) : (s.wrapAdd f n).queues = s.queues := rfl
@[simp] theorem State.wrapAdd_qsel (s : State) (f : FRef) (n : Nat) : (s.wrapAdd f n).qsel = s.qsel := rfl
@[simp] theorem State.wrapAdd_mbox (s : State) (f : FRef) (n : Nat) : (s.wrapAdd f n).mbox = s.mbox := rfl
@[simp] theorem State.wrapAdd_slices (s : State) (f : FRef) (n : Nat) : (s.wrapAdd f n).slices = s.slices := rfl
@[simp] theorem State.wrapAdd_sec (s : State) (f : FRef) (n : Nat) : (s.wrapAdd f n).sec = s.sec := rfl
@[simp] theorem State.wrapAdd_found (s : State) (f : FRef) (n : Nat) : (s.wrapAdd f n).found = s.found := rfl
@[simp] theorem State.wrapAdd_llc (s : State) (f : FRef) (n : Nat) : (s.wrapAdd f n).llc = s.llc := rfl
@[simp] theorem State.wrapAdd_bridges (s : State) (f : FRef) (n : Nat) : (s.wrapAdd f n).bridges = s.bridges := rfl
@[simp] theorem State.wrapAdd_pair (s : State) (f : FRef) (n : Nat) : (s.wrapAdd f n).pair = s.pair := rfl
@[simp] theorem State.wrapAdd_plan (s : State) (f : FRef) (n : Nat) : (s.wrapAdd f n).plan = s.plan := rfl
@[simp] theorem State.wrapAdd_rast (s : State) (f : FRef) (n : Nat) : (s.wrapAdd f n).rast = s.rast := rfl
@[simp] theorem State.wrapAdd_proc (s : State) (f : FRef) (n : Nat) : (s.wrapAdd f n).proc = s.proc := rfl
@[simp] theorem State.wrapAdd_gw (s : State) (f : FRef) (n : Nat) : (s.wrapAdd f n).gw = s.gw := rfl
@[simp] theorem State.wrapAdd_time (s : State) (f : FRef) (n : Nat) : (s.wrapAdd f n).time = s.time := rfl

@[simp] theorem State.writeMem_pending (s : State) (a : Nat) (bs : List Byte) : (s.writeMem a bs).pending = s.pending := rfl
@[simp] theorem State.writeMem_bus (s : State) (a : Nat) (bs : List Byte) : (s.writeMem a bs).bus = s.bus := rfl
@[simp] theorem State.writeMem_fresh (s : State) (a : Nat) (bs : List Byte) : (s.writeMem a bs).fresh = s.fresh := rfl
@[simp] theorem State.writeMem_irqOut (s : State) (a : Nat) (bs : List Byte) : (s.writeMem a bs).irqOut = s.irqOut := rfl
@[simp] theorem State.writeMem_regs (s : State) (a : Nat) (bs : List Byte) : (s.writeMem a bs).regs = s.regs := rfl
@[simp] theorem State.writeMem_ecc (s : State) (a : Nat) (bs : List Byte) : (s.writeMem a bs).ecc = s.ecc := rfl
@[simp] theorem State.writeMem_pins (s : State) (a : Nat) (bs : List Byte) : (s.writeMem a bs).pins = s.pins := rfl
@[simp] theorem State.writeMem_fuses (s : State) (a : Nat) (bs : List Byte) : (s.writeMem a bs).fuses = s.fuses := rfl
@[simp] theorem State.writeMem_boot (s : State) (a : Nat) (bs : List Byte) : (s.writeMem a bs).boot = s.boot := rfl
@[simp] theorem State.writeMem_clock (s : State) (a : Nat) (bs : List Byte) : (s.writeMem a bs).clock = s.clock := rfl
@[simp] theorem State.writeMem_fcu (s : State) (a : Nat) (bs : List Byte) : (s.writeMem a bs).fcu = s.fcu := rfl
@[simp] theorem State.writeMem_dies (s : State) (a : Nat) (bs : List Byte) : (s.writeMem a bs).dies = s.dies := rfl
@[simp] theorem State.writeMem_pwr (s : State) (a : Nat) (bs : List Byte) : (s.writeMem a bs).pwr = s.pwr := rfl
@[simp] theorem State.writeMem_seats (s : State) (a : Nat) (bs : List Byte) : (s.writeMem a bs).seats = s.seats := rfl
@[simp] theorem State.writeMem_cores (s : State) (a : Nat) (bs : List Byte) : (s.writeMem a bs).cores = s.cores := rfl
@[simp] theorem State.writeMem_clusters (s : State) (a : Nat) (bs : List Byte) : (s.writeMem a bs).clusters = s.clusters := rfl
@[simp] theorem State.writeMem_lessons (s : State) (a : Nat) (bs : List Byte) : (s.writeMem a bs).lessons = s.lessons := rfl
@[simp] theorem State.writeMem_jobs (s : State) (a : Nat) (bs : List Byte) : (s.writeMem a bs).jobs = s.jobs := rfl
@[simp] theorem State.writeMem_roster (s : State) (a : Nat) (bs : List Byte) : (s.writeMem a bs).roster = s.roster := rfl
@[simp] theorem State.writeMem_reg (s : State) (a : Nat) (bs : List Byte) : (s.writeMem a bs).reg = s.reg := rfl
@[simp] theorem State.writeMem_queues (s : State) (a : Nat) (bs : List Byte) : (s.writeMem a bs).queues = s.queues := rfl
@[simp] theorem State.writeMem_qsel (s : State) (a : Nat) (bs : List Byte) : (s.writeMem a bs).qsel = s.qsel := rfl
@[simp] theorem State.writeMem_mbox (s : State) (a : Nat) (bs : List Byte) : (s.writeMem a bs).mbox = s.mbox := rfl
@[simp] theorem State.writeMem_slices (s : State) (a : Nat) (bs : List Byte) : (s.writeMem a bs).slices = s.slices := rfl
@[simp] theorem State.writeMem_sec (s : State) (a : Nat) (bs : List Byte) : (s.writeMem a bs).sec = s.sec := rfl
@[simp] theorem State.writeMem_found (s : State) (a : Nat) (bs : List Byte) : (s.writeMem a bs).found = s.found := rfl
@[simp] theorem State.writeMem_llc (s : State) (a : Nat) (bs : List Byte) : (s.writeMem a bs).llc = s.llc := rfl
@[simp] theorem State.writeMem_bridges (s : State) (a : Nat) (bs : List Byte) : (s.writeMem a bs).bridges = s.bridges := rfl
@[simp] theorem State.writeMem_pair (s : State) (a : Nat) (bs : List Byte) : (s.writeMem a bs).pair = s.pair := rfl
@[simp] theorem State.writeMem_plan (s : State) (a : Nat) (bs : List Byte) : (s.writeMem a bs).plan = s.plan := rfl
@[simp] theorem State.writeMem_rast (s : State) (a : Nat) (bs : List Byte) : (s.writeMem a bs).rast = s.rast := rfl
@[simp] theorem State.writeMem_proc (s : State) (a : Nat) (bs : List Byte) : (s.writeMem a bs).proc = s.proc := rfl
@[simp] theorem State.writeMem_gw (s : State) (a : Nat) (bs : List Byte) : (s.writeMem a bs).gw = s.gw := rfl
@[simp] theorem State.writeMem_time (s : State) (a : Nat) (bs : List Byte) : (s.writeMem a bs).time = s.time := rfl

@[simp] theorem State.zeroMem_pending (s : State) (lo hi : Nat) : (s.zeroMem lo hi).pending = s.pending := rfl
@[simp] theorem State.zeroMem_bus (s : State) (lo hi : Nat) : (s.zeroMem lo hi).bus = s.bus := rfl
@[simp] theorem State.zeroMem_fresh (s : State) (lo hi : Nat) : (s.zeroMem lo hi).fresh = s.fresh := rfl
@[simp] theorem State.zeroMem_irqOut (s : State) (lo hi : Nat) : (s.zeroMem lo hi).irqOut = s.irqOut := rfl
@[simp] theorem State.zeroMem_regs (s : State) (lo hi : Nat) : (s.zeroMem lo hi).regs = s.regs := rfl
@[simp] theorem State.zeroMem_ecc (s : State) (lo hi : Nat) : (s.zeroMem lo hi).ecc = s.ecc := rfl
@[simp] theorem State.zeroMem_pins (s : State) (lo hi : Nat) : (s.zeroMem lo hi).pins = s.pins := rfl
@[simp] theorem State.zeroMem_fuses (s : State) (lo hi : Nat) : (s.zeroMem lo hi).fuses = s.fuses := rfl
@[simp] theorem State.zeroMem_boot (s : State) (lo hi : Nat) : (s.zeroMem lo hi).boot = s.boot := rfl
@[simp] theorem State.zeroMem_clock (s : State) (lo hi : Nat) : (s.zeroMem lo hi).clock = s.clock := rfl
@[simp] theorem State.zeroMem_fcu (s : State) (lo hi : Nat) : (s.zeroMem lo hi).fcu = s.fcu := rfl
@[simp] theorem State.zeroMem_dies (s : State) (lo hi : Nat) : (s.zeroMem lo hi).dies = s.dies := rfl
@[simp] theorem State.zeroMem_pwr (s : State) (lo hi : Nat) : (s.zeroMem lo hi).pwr = s.pwr := rfl
@[simp] theorem State.zeroMem_seats (s : State) (lo hi : Nat) : (s.zeroMem lo hi).seats = s.seats := rfl
@[simp] theorem State.zeroMem_cores (s : State) (lo hi : Nat) : (s.zeroMem lo hi).cores = s.cores := rfl
@[simp] theorem State.zeroMem_clusters (s : State) (lo hi : Nat) : (s.zeroMem lo hi).clusters = s.clusters := rfl
@[simp] theorem State.zeroMem_lessons (s : State) (lo hi : Nat) : (s.zeroMem lo hi).lessons = s.lessons := rfl
@[simp] theorem State.zeroMem_jobs (s : State) (lo hi : Nat) : (s.zeroMem lo hi).jobs = s.jobs := rfl
@[simp] theorem State.zeroMem_roster (s : State) (lo hi : Nat) : (s.zeroMem lo hi).roster = s.roster := rfl
@[simp] theorem State.zeroMem_reg (s : State) (lo hi : Nat) : (s.zeroMem lo hi).reg = s.reg := rfl
@[simp] theorem State.zeroMem_queues (s : State) (lo hi : Nat) : (s.zeroMem lo hi).queues = s.queues := rfl
@[simp] theorem State.zeroMem_qsel (s : State) (lo hi : Nat) : (s.zeroMem lo hi).qsel = s.qsel := rfl
@[simp] theorem State.zeroMem_mbox (s : State) (lo hi : Nat) : (s.zeroMem lo hi).mbox = s.mbox := rfl
@[simp] theorem State.zeroMem_slices (s : State) (lo hi : Nat) : (s.zeroMem lo hi).slices = s.slices := rfl
@[simp] theorem State.zeroMem_sec (s : State) (lo hi : Nat) : (s.zeroMem lo hi).sec = s.sec := rfl
@[simp] theorem State.zeroMem_found (s : State) (lo hi : Nat) : (s.zeroMem lo hi).found = s.found := rfl
@[simp] theorem State.zeroMem_llc (s : State) (lo hi : Nat) : (s.zeroMem lo hi).llc = s.llc := rfl
@[simp] theorem State.zeroMem_bridges (s : State) (lo hi : Nat) : (s.zeroMem lo hi).bridges = s.bridges := rfl
@[simp] theorem State.zeroMem_pair (s : State) (lo hi : Nat) : (s.zeroMem lo hi).pair = s.pair := rfl
@[simp] theorem State.zeroMem_plan (s : State) (lo hi : Nat) : (s.zeroMem lo hi).plan = s.plan := rfl
@[simp] theorem State.zeroMem_rast (s : State) (lo hi : Nat) : (s.zeroMem lo hi).rast = s.rast := rfl
@[simp] theorem State.zeroMem_proc (s : State) (lo hi : Nat) : (s.zeroMem lo hi).proc = s.proc := rfl
@[simp] theorem State.zeroMem_gw (s : State) (lo hi : Nat) : (s.zeroMem lo hi).gw = s.gw := rfl
@[simp] theorem State.zeroMem_time (s : State) (lo hi : Nat) : (s.zeroMem lo hi).time = s.time := rfl

@[simp] theorem State.setDie_pending (s : State) (d : Nat) (x : Die) : (s.setDie d x).pending = s.pending := rfl
@[simp] theorem State.setDie_bus (s : State) (d : Nat) (x : Die) : (s.setDie d x).bus = s.bus := rfl
@[simp] theorem State.setDie_fresh (s : State) (d : Nat) (x : Die) : (s.setDie d x).fresh = s.fresh := rfl
@[simp] theorem State.setDie_irqOut (s : State) (d : Nat) (x : Die) : (s.setDie d x).irqOut = s.irqOut := rfl
@[simp] theorem State.setDie_regs (s : State) (d : Nat) (x : Die) : (s.setDie d x).regs = s.regs := rfl
@[simp] theorem State.setDie_mem (s : State) (d : Nat) (x : Die) : (s.setDie d x).mem = s.mem := rfl
@[simp] theorem State.setDie_ecc (s : State) (d : Nat) (x : Die) : (s.setDie d x).ecc = s.ecc := rfl
@[simp] theorem State.setDie_pins (s : State) (d : Nat) (x : Die) : (s.setDie d x).pins = s.pins := rfl
@[simp] theorem State.setDie_fuses (s : State) (d : Nat) (x : Die) : (s.setDie d x).fuses = s.fuses := rfl
@[simp] theorem State.setDie_boot (s : State) (d : Nat) (x : Die) : (s.setDie d x).boot = s.boot := rfl
@[simp] theorem State.setDie_clock (s : State) (d : Nat) (x : Die) : (s.setDie d x).clock = s.clock := rfl
@[simp] theorem State.setDie_fcu (s : State) (d : Nat) (x : Die) : (s.setDie d x).fcu = s.fcu := rfl
@[simp] theorem State.setDie_pwr (s : State) (d : Nat) (x : Die) : (s.setDie d x).pwr = s.pwr := rfl
@[simp] theorem State.setDie_seats (s : State) (d : Nat) (x : Die) : (s.setDie d x).seats = s.seats := rfl
@[simp] theorem State.setDie_cores (s : State) (d : Nat) (x : Die) : (s.setDie d x).cores = s.cores := rfl
@[simp] theorem State.setDie_clusters (s : State) (d : Nat) (x : Die) : (s.setDie d x).clusters = s.clusters := rfl
@[simp] theorem State.setDie_lessons (s : State) (d : Nat) (x : Die) : (s.setDie d x).lessons = s.lessons := rfl
@[simp] theorem State.setDie_jobs (s : State) (d : Nat) (x : Die) : (s.setDie d x).jobs = s.jobs := rfl
@[simp] theorem State.setDie_roster (s : State) (d : Nat) (x : Die) : (s.setDie d x).roster = s.roster := rfl
@[simp] theorem State.setDie_reg (s : State) (d : Nat) (x : Die) : (s.setDie d x).reg = s.reg := rfl
@[simp] theorem State.setDie_queues (s : State) (d : Nat) (x : Die) : (s.setDie d x).queues = s.queues := rfl
@[simp] theorem State.setDie_qsel (s : State) (d : Nat) (x : Die) : (s.setDie d x).qsel = s.qsel := rfl
@[simp] theorem State.setDie_mbox (s : State) (d : Nat) (x : Die) : (s.setDie d x).mbox = s.mbox := rfl
@[simp] theorem State.setDie_slices (s : State) (d : Nat) (x : Die) : (s.setDie d x).slices = s.slices := rfl
@[simp] theorem State.setDie_sec (s : State) (d : Nat) (x : Die) : (s.setDie d x).sec = s.sec := rfl
@[simp] theorem State.setDie_found (s : State) (d : Nat) (x : Die) : (s.setDie d x).found = s.found := rfl
@[simp] theorem State.setDie_llc (s : State) (d : Nat) (x : Die) : (s.setDie d x).llc = s.llc := rfl
@[simp] theorem State.setDie_bridges (s : State) (d : Nat) (x : Die) : (s.setDie d x).bridges = s.bridges := rfl
@[simp] theorem State.setDie_pair (s : State) (d : Nat) (x : Die) : (s.setDie d x).pair = s.pair := rfl
@[simp] theorem State.setDie_plan (s : State) (d : Nat) (x : Die) : (s.setDie d x).plan = s.plan := rfl
@[simp] theorem State.setDie_rast (s : State) (d : Nat) (x : Die) : (s.setDie d x).rast = s.rast := rfl
@[simp] theorem State.setDie_proc (s : State) (d : Nat) (x : Die) : (s.setDie d x).proc = s.proc := rfl
@[simp] theorem State.setDie_gw (s : State) (d : Nat) (x : Die) : (s.setDie d x).gw = s.gw := rfl
@[simp] theorem State.setDie_time (s : State) (d : Nat) (x : Die) : (s.setDie d x).time = s.time := rfl

@[simp] theorem State.setSeat_pending (s : State) (g : Nat) (x : SeatX) : (s.setSeat g x).pending = s.pending := rfl
@[simp] theorem State.setSeat_bus (s : State) (g : Nat) (x : SeatX) : (s.setSeat g x).bus = s.bus := rfl
@[simp] theorem State.setSeat_fresh (s : State) (g : Nat) (x : SeatX) : (s.setSeat g x).fresh = s.fresh := rfl
@[simp] theorem State.setSeat_irqOut (s : State) (g : Nat) (x : SeatX) : (s.setSeat g x).irqOut = s.irqOut := rfl
@[simp] theorem State.setSeat_regs (s : State) (g : Nat) (x : SeatX) : (s.setSeat g x).regs = s.regs := rfl
@[simp] theorem State.setSeat_mem (s : State) (g : Nat) (x : SeatX) : (s.setSeat g x).mem = s.mem := rfl
@[simp] theorem State.setSeat_ecc (s : State) (g : Nat) (x : SeatX) : (s.setSeat g x).ecc = s.ecc := rfl
@[simp] theorem State.setSeat_pins (s : State) (g : Nat) (x : SeatX) : (s.setSeat g x).pins = s.pins := rfl
@[simp] theorem State.setSeat_fuses (s : State) (g : Nat) (x : SeatX) : (s.setSeat g x).fuses = s.fuses := rfl
@[simp] theorem State.setSeat_boot (s : State) (g : Nat) (x : SeatX) : (s.setSeat g x).boot = s.boot := rfl
@[simp] theorem State.setSeat_clock (s : State) (g : Nat) (x : SeatX) : (s.setSeat g x).clock = s.clock := rfl
@[simp] theorem State.setSeat_fcu (s : State) (g : Nat) (x : SeatX) : (s.setSeat g x).fcu = s.fcu := rfl
@[simp] theorem State.setSeat_dies (s : State) (g : Nat) (x : SeatX) : (s.setSeat g x).dies = s.dies := rfl
@[simp] theorem State.setSeat_pwr (s : State) (g : Nat) (x : SeatX) : (s.setSeat g x).pwr = s.pwr := rfl
@[simp] theorem State.setSeat_cores (s : State) (g : Nat) (x : SeatX) : (s.setSeat g x).cores = s.cores := rfl
@[simp] theorem State.setSeat_clusters (s : State) (g : Nat) (x : SeatX) : (s.setSeat g x).clusters = s.clusters := rfl
@[simp] theorem State.setSeat_lessons (s : State) (g : Nat) (x : SeatX) : (s.setSeat g x).lessons = s.lessons := rfl
@[simp] theorem State.setSeat_jobs (s : State) (g : Nat) (x : SeatX) : (s.setSeat g x).jobs = s.jobs := rfl
@[simp] theorem State.setSeat_roster (s : State) (g : Nat) (x : SeatX) : (s.setSeat g x).roster = s.roster := rfl
@[simp] theorem State.setSeat_reg (s : State) (g : Nat) (x : SeatX) : (s.setSeat g x).reg = s.reg := rfl
@[simp] theorem State.setSeat_queues (s : State) (g : Nat) (x : SeatX) : (s.setSeat g x).queues = s.queues := rfl
@[simp] theorem State.setSeat_qsel (s : State) (g : Nat) (x : SeatX) : (s.setSeat g x).qsel = s.qsel := rfl
@[simp] theorem State.setSeat_mbox (s : State) (g : Nat) (x : SeatX) : (s.setSeat g x).mbox = s.mbox := rfl
@[simp] theorem State.setSeat_slices (s : State) (g : Nat) (x : SeatX) : (s.setSeat g x).slices = s.slices := rfl
@[simp] theorem State.setSeat_sec (s : State) (g : Nat) (x : SeatX) : (s.setSeat g x).sec = s.sec := rfl
@[simp] theorem State.setSeat_found (s : State) (g : Nat) (x : SeatX) : (s.setSeat g x).found = s.found := rfl
@[simp] theorem State.setSeat_llc (s : State) (g : Nat) (x : SeatX) : (s.setSeat g x).llc = s.llc := rfl
@[simp] theorem State.setSeat_bridges (s : State) (g : Nat) (x : SeatX) : (s.setSeat g x).bridges = s.bridges := rfl
@[simp] theorem State.setSeat_pair (s : State) (g : Nat) (x : SeatX) : (s.setSeat g x).pair = s.pair := rfl
@[simp] theorem State.setSeat_plan (s : State) (g : Nat) (x : SeatX) : (s.setSeat g x).plan = s.plan := rfl
@[simp] theorem State.setSeat_rast (s : State) (g : Nat) (x : SeatX) : (s.setSeat g x).rast = s.rast := rfl
@[simp] theorem State.setSeat_proc (s : State) (g : Nat) (x : SeatX) : (s.setSeat g x).proc = s.proc := rfl
@[simp] theorem State.setSeat_gw (s : State) (g : Nat) (x : SeatX) : (s.setSeat g x).gw = s.gw := rfl
@[simp] theorem State.setSeat_time (s : State) (g : Nat) (x : SeatX) : (s.setSeat g x).time = s.time := rfl

@[simp] theorem State.setCore_pending (s : State) (m : Nat) (x : CoreX) : (s.setCore m x).pending = s.pending := rfl
@[simp] theorem State.setCore_bus (s : State) (m : Nat) (x : CoreX) : (s.setCore m x).bus = s.bus := rfl
@[simp] theorem State.setCore_fresh (s : State) (m : Nat) (x : CoreX) : (s.setCore m x).fresh = s.fresh := rfl
@[simp] theorem State.setCore_irqOut (s : State) (m : Nat) (x : CoreX) : (s.setCore m x).irqOut = s.irqOut := rfl
@[simp] theorem State.setCore_regs (s : State) (m : Nat) (x : CoreX) : (s.setCore m x).regs = s.regs := rfl
@[simp] theorem State.setCore_mem (s : State) (m : Nat) (x : CoreX) : (s.setCore m x).mem = s.mem := rfl
@[simp] theorem State.setCore_ecc (s : State) (m : Nat) (x : CoreX) : (s.setCore m x).ecc = s.ecc := rfl
@[simp] theorem State.setCore_pins (s : State) (m : Nat) (x : CoreX) : (s.setCore m x).pins = s.pins := rfl
@[simp] theorem State.setCore_fuses (s : State) (m : Nat) (x : CoreX) : (s.setCore m x).fuses = s.fuses := rfl
@[simp] theorem State.setCore_boot (s : State) (m : Nat) (x : CoreX) : (s.setCore m x).boot = s.boot := rfl
@[simp] theorem State.setCore_clock (s : State) (m : Nat) (x : CoreX) : (s.setCore m x).clock = s.clock := rfl
@[simp] theorem State.setCore_fcu (s : State) (m : Nat) (x : CoreX) : (s.setCore m x).fcu = s.fcu := rfl
@[simp] theorem State.setCore_dies (s : State) (m : Nat) (x : CoreX) : (s.setCore m x).dies = s.dies := rfl
@[simp] theorem State.setCore_pwr (s : State) (m : Nat) (x : CoreX) : (s.setCore m x).pwr = s.pwr := rfl
@[simp] theorem State.setCore_seats (s : State) (m : Nat) (x : CoreX) : (s.setCore m x).seats = s.seats := rfl
@[simp] theorem State.setCore_clusters (s : State) (m : Nat) (x : CoreX) : (s.setCore m x).clusters = s.clusters := rfl
@[simp] theorem State.setCore_lessons (s : State) (m : Nat) (x : CoreX) : (s.setCore m x).lessons = s.lessons := rfl
@[simp] theorem State.setCore_jobs (s : State) (m : Nat) (x : CoreX) : (s.setCore m x).jobs = s.jobs := rfl
@[simp] theorem State.setCore_roster (s : State) (m : Nat) (x : CoreX) : (s.setCore m x).roster = s.roster := rfl
@[simp] theorem State.setCore_reg (s : State) (m : Nat) (x : CoreX) : (s.setCore m x).reg = s.reg := rfl
@[simp] theorem State.setCore_queues (s : State) (m : Nat) (x : CoreX) : (s.setCore m x).queues = s.queues := rfl
@[simp] theorem State.setCore_qsel (s : State) (m : Nat) (x : CoreX) : (s.setCore m x).qsel = s.qsel := rfl
@[simp] theorem State.setCore_mbox (s : State) (m : Nat) (x : CoreX) : (s.setCore m x).mbox = s.mbox := rfl
@[simp] theorem State.setCore_slices (s : State) (m : Nat) (x : CoreX) : (s.setCore m x).slices = s.slices := rfl
@[simp] theorem State.setCore_sec (s : State) (m : Nat) (x : CoreX) : (s.setCore m x).sec = s.sec := rfl
@[simp] theorem State.setCore_found (s : State) (m : Nat) (x : CoreX) : (s.setCore m x).found = s.found := rfl
@[simp] theorem State.setCore_llc (s : State) (m : Nat) (x : CoreX) : (s.setCore m x).llc = s.llc := rfl
@[simp] theorem State.setCore_bridges (s : State) (m : Nat) (x : CoreX) : (s.setCore m x).bridges = s.bridges := rfl
@[simp] theorem State.setCore_pair (s : State) (m : Nat) (x : CoreX) : (s.setCore m x).pair = s.pair := rfl
@[simp] theorem State.setCore_plan (s : State) (m : Nat) (x : CoreX) : (s.setCore m x).plan = s.plan := rfl
@[simp] theorem State.setCore_rast (s : State) (m : Nat) (x : CoreX) : (s.setCore m x).rast = s.rast := rfl
@[simp] theorem State.setCore_proc (s : State) (m : Nat) (x : CoreX) : (s.setCore m x).proc = s.proc := rfl
@[simp] theorem State.setCore_gw (s : State) (m : Nat) (x : CoreX) : (s.setCore m x).gw = s.gw := rfl
@[simp] theorem State.setCore_time (s : State) (m : Nat) (x : CoreX) : (s.setCore m x).time = s.time := rfl

@[simp] theorem State.setCluster_pending (s : State) (n : Nat) (x : ClusterX) : (s.setCluster n x).pending = s.pending := rfl
@[simp] theorem State.setCluster_bus (s : State) (n : Nat) (x : ClusterX) : (s.setCluster n x).bus = s.bus := rfl
@[simp] theorem State.setCluster_fresh (s : State) (n : Nat) (x : ClusterX) : (s.setCluster n x).fresh = s.fresh := rfl
@[simp] theorem State.setCluster_irqOut (s : State) (n : Nat) (x : ClusterX) : (s.setCluster n x).irqOut = s.irqOut := rfl
@[simp] theorem State.setCluster_regs (s : State) (n : Nat) (x : ClusterX) : (s.setCluster n x).regs = s.regs := rfl
@[simp] theorem State.setCluster_mem (s : State) (n : Nat) (x : ClusterX) : (s.setCluster n x).mem = s.mem := rfl
@[simp] theorem State.setCluster_ecc (s : State) (n : Nat) (x : ClusterX) : (s.setCluster n x).ecc = s.ecc := rfl
@[simp] theorem State.setCluster_pins (s : State) (n : Nat) (x : ClusterX) : (s.setCluster n x).pins = s.pins := rfl
@[simp] theorem State.setCluster_fuses (s : State) (n : Nat) (x : ClusterX) : (s.setCluster n x).fuses = s.fuses := rfl
@[simp] theorem State.setCluster_boot (s : State) (n : Nat) (x : ClusterX) : (s.setCluster n x).boot = s.boot := rfl
@[simp] theorem State.setCluster_clock (s : State) (n : Nat) (x : ClusterX) : (s.setCluster n x).clock = s.clock := rfl
@[simp] theorem State.setCluster_fcu (s : State) (n : Nat) (x : ClusterX) : (s.setCluster n x).fcu = s.fcu := rfl
@[simp] theorem State.setCluster_dies (s : State) (n : Nat) (x : ClusterX) : (s.setCluster n x).dies = s.dies := rfl
@[simp] theorem State.setCluster_pwr (s : State) (n : Nat) (x : ClusterX) : (s.setCluster n x).pwr = s.pwr := rfl
@[simp] theorem State.setCluster_seats (s : State) (n : Nat) (x : ClusterX) : (s.setCluster n x).seats = s.seats := rfl
@[simp] theorem State.setCluster_cores (s : State) (n : Nat) (x : ClusterX) : (s.setCluster n x).cores = s.cores := rfl
@[simp] theorem State.setCluster_lessons (s : State) (n : Nat) (x : ClusterX) : (s.setCluster n x).lessons = s.lessons := rfl
@[simp] theorem State.setCluster_jobs (s : State) (n : Nat) (x : ClusterX) : (s.setCluster n x).jobs = s.jobs := rfl
@[simp] theorem State.setCluster_roster (s : State) (n : Nat) (x : ClusterX) : (s.setCluster n x).roster = s.roster := rfl
@[simp] theorem State.setCluster_reg (s : State) (n : Nat) (x : ClusterX) : (s.setCluster n x).reg = s.reg := rfl
@[simp] theorem State.setCluster_queues (s : State) (n : Nat) (x : ClusterX) : (s.setCluster n x).queues = s.queues := rfl
@[simp] theorem State.setCluster_qsel (s : State) (n : Nat) (x : ClusterX) : (s.setCluster n x).qsel = s.qsel := rfl
@[simp] theorem State.setCluster_mbox (s : State) (n : Nat) (x : ClusterX) : (s.setCluster n x).mbox = s.mbox := rfl
@[simp] theorem State.setCluster_slices (s : State) (n : Nat) (x : ClusterX) : (s.setCluster n x).slices = s.slices := rfl
@[simp] theorem State.setCluster_sec (s : State) (n : Nat) (x : ClusterX) : (s.setCluster n x).sec = s.sec := rfl
@[simp] theorem State.setCluster_found (s : State) (n : Nat) (x : ClusterX) : (s.setCluster n x).found = s.found := rfl
@[simp] theorem State.setCluster_llc (s : State) (n : Nat) (x : ClusterX) : (s.setCluster n x).llc = s.llc := rfl
@[simp] theorem State.setCluster_bridges (s : State) (n : Nat) (x : ClusterX) : (s.setCluster n x).bridges = s.bridges := rfl
@[simp] theorem State.setCluster_pair (s : State) (n : Nat) (x : ClusterX) : (s.setCluster n x).pair = s.pair := rfl
@[simp] theorem State.setCluster_plan (s : State) (n : Nat) (x : ClusterX) : (s.setCluster n x).plan = s.plan := rfl
@[simp] theorem State.setCluster_rast (s : State) (n : Nat) (x : ClusterX) : (s.setCluster n x).rast = s.rast := rfl
@[simp] theorem State.setCluster_proc (s : State) (n : Nat) (x : ClusterX) : (s.setCluster n x).proc = s.proc := rfl
@[simp] theorem State.setCluster_gw (s : State) (n : Nat) (x : ClusterX) : (s.setCluster n x).gw = s.gw := rfl
@[simp] theorem State.setCluster_time (s : State) (n : Nat) (x : ClusterX) : (s.setCluster n x).time = s.time := rfl

@[simp] theorem State.setQueue_pending (s : State) (q : Nat) (x : QRec) : (s.setQueue q x).pending = s.pending := rfl
@[simp] theorem State.setQueue_bus (s : State) (q : Nat) (x : QRec) : (s.setQueue q x).bus = s.bus := rfl
@[simp] theorem State.setQueue_fresh (s : State) (q : Nat) (x : QRec) : (s.setQueue q x).fresh = s.fresh := rfl
@[simp] theorem State.setQueue_irqOut (s : State) (q : Nat) (x : QRec) : (s.setQueue q x).irqOut = s.irqOut := rfl
@[simp] theorem State.setQueue_regs (s : State) (q : Nat) (x : QRec) : (s.setQueue q x).regs = s.regs := rfl
@[simp] theorem State.setQueue_mem (s : State) (q : Nat) (x : QRec) : (s.setQueue q x).mem = s.mem := rfl
@[simp] theorem State.setQueue_ecc (s : State) (q : Nat) (x : QRec) : (s.setQueue q x).ecc = s.ecc := rfl
@[simp] theorem State.setQueue_pins (s : State) (q : Nat) (x : QRec) : (s.setQueue q x).pins = s.pins := rfl
@[simp] theorem State.setQueue_fuses (s : State) (q : Nat) (x : QRec) : (s.setQueue q x).fuses = s.fuses := rfl
@[simp] theorem State.setQueue_boot (s : State) (q : Nat) (x : QRec) : (s.setQueue q x).boot = s.boot := rfl
@[simp] theorem State.setQueue_clock (s : State) (q : Nat) (x : QRec) : (s.setQueue q x).clock = s.clock := rfl
@[simp] theorem State.setQueue_fcu (s : State) (q : Nat) (x : QRec) : (s.setQueue q x).fcu = s.fcu := rfl
@[simp] theorem State.setQueue_dies (s : State) (q : Nat) (x : QRec) : (s.setQueue q x).dies = s.dies := rfl
@[simp] theorem State.setQueue_pwr (s : State) (q : Nat) (x : QRec) : (s.setQueue q x).pwr = s.pwr := rfl
@[simp] theorem State.setQueue_seats (s : State) (q : Nat) (x : QRec) : (s.setQueue q x).seats = s.seats := rfl
@[simp] theorem State.setQueue_cores (s : State) (q : Nat) (x : QRec) : (s.setQueue q x).cores = s.cores := rfl
@[simp] theorem State.setQueue_clusters (s : State) (q : Nat) (x : QRec) : (s.setQueue q x).clusters = s.clusters := rfl
@[simp] theorem State.setQueue_lessons (s : State) (q : Nat) (x : QRec) : (s.setQueue q x).lessons = s.lessons := rfl
@[simp] theorem State.setQueue_jobs (s : State) (q : Nat) (x : QRec) : (s.setQueue q x).jobs = s.jobs := rfl
@[simp] theorem State.setQueue_roster (s : State) (q : Nat) (x : QRec) : (s.setQueue q x).roster = s.roster := rfl
@[simp] theorem State.setQueue_reg (s : State) (q : Nat) (x : QRec) : (s.setQueue q x).reg = s.reg := rfl
@[simp] theorem State.setQueue_qsel (s : State) (q : Nat) (x : QRec) : (s.setQueue q x).qsel = s.qsel := rfl
@[simp] theorem State.setQueue_mbox (s : State) (q : Nat) (x : QRec) : (s.setQueue q x).mbox = s.mbox := rfl
@[simp] theorem State.setQueue_slices (s : State) (q : Nat) (x : QRec) : (s.setQueue q x).slices = s.slices := rfl
@[simp] theorem State.setQueue_sec (s : State) (q : Nat) (x : QRec) : (s.setQueue q x).sec = s.sec := rfl
@[simp] theorem State.setQueue_found (s : State) (q : Nat) (x : QRec) : (s.setQueue q x).found = s.found := rfl
@[simp] theorem State.setQueue_llc (s : State) (q : Nat) (x : QRec) : (s.setQueue q x).llc = s.llc := rfl
@[simp] theorem State.setQueue_bridges (s : State) (q : Nat) (x : QRec) : (s.setQueue q x).bridges = s.bridges := rfl
@[simp] theorem State.setQueue_pair (s : State) (q : Nat) (x : QRec) : (s.setQueue q x).pair = s.pair := rfl
@[simp] theorem State.setQueue_plan (s : State) (q : Nat) (x : QRec) : (s.setQueue q x).plan = s.plan := rfl
@[simp] theorem State.setQueue_rast (s : State) (q : Nat) (x : QRec) : (s.setQueue q x).rast = s.rast := rfl
@[simp] theorem State.setQueue_proc (s : State) (q : Nat) (x : QRec) : (s.setQueue q x).proc = s.proc := rfl
@[simp] theorem State.setQueue_gw (s : State) (q : Nat) (x : QRec) : (s.setQueue q x).gw = s.gw := rfl
@[simp] theorem State.setQueue_time (s : State) (q : Nat) (x : QRec) : (s.setQueue q x).time = s.time := rfl

@[simp] theorem State.setMb_pending (s : State) (i : Nat) (x : Mailbox) : (s.setMb i x).pending = s.pending := rfl
@[simp] theorem State.setMb_bus (s : State) (i : Nat) (x : Mailbox) : (s.setMb i x).bus = s.bus := rfl
@[simp] theorem State.setMb_fresh (s : State) (i : Nat) (x : Mailbox) : (s.setMb i x).fresh = s.fresh := rfl
@[simp] theorem State.setMb_irqOut (s : State) (i : Nat) (x : Mailbox) : (s.setMb i x).irqOut = s.irqOut := rfl
@[simp] theorem State.setMb_regs (s : State) (i : Nat) (x : Mailbox) : (s.setMb i x).regs = s.regs := rfl
@[simp] theorem State.setMb_mem (s : State) (i : Nat) (x : Mailbox) : (s.setMb i x).mem = s.mem := rfl
@[simp] theorem State.setMb_ecc (s : State) (i : Nat) (x : Mailbox) : (s.setMb i x).ecc = s.ecc := rfl
@[simp] theorem State.setMb_pins (s : State) (i : Nat) (x : Mailbox) : (s.setMb i x).pins = s.pins := rfl
@[simp] theorem State.setMb_fuses (s : State) (i : Nat) (x : Mailbox) : (s.setMb i x).fuses = s.fuses := rfl
@[simp] theorem State.setMb_boot (s : State) (i : Nat) (x : Mailbox) : (s.setMb i x).boot = s.boot := rfl
@[simp] theorem State.setMb_clock (s : State) (i : Nat) (x : Mailbox) : (s.setMb i x).clock = s.clock := rfl
@[simp] theorem State.setMb_fcu (s : State) (i : Nat) (x : Mailbox) : (s.setMb i x).fcu = s.fcu := rfl
@[simp] theorem State.setMb_dies (s : State) (i : Nat) (x : Mailbox) : (s.setMb i x).dies = s.dies := rfl
@[simp] theorem State.setMb_pwr (s : State) (i : Nat) (x : Mailbox) : (s.setMb i x).pwr = s.pwr := rfl
@[simp] theorem State.setMb_seats (s : State) (i : Nat) (x : Mailbox) : (s.setMb i x).seats = s.seats := rfl
@[simp] theorem State.setMb_cores (s : State) (i : Nat) (x : Mailbox) : (s.setMb i x).cores = s.cores := rfl
@[simp] theorem State.setMb_clusters (s : State) (i : Nat) (x : Mailbox) : (s.setMb i x).clusters = s.clusters := rfl
@[simp] theorem State.setMb_lessons (s : State) (i : Nat) (x : Mailbox) : (s.setMb i x).lessons = s.lessons := rfl
@[simp] theorem State.setMb_jobs (s : State) (i : Nat) (x : Mailbox) : (s.setMb i x).jobs = s.jobs := rfl
@[simp] theorem State.setMb_roster (s : State) (i : Nat) (x : Mailbox) : (s.setMb i x).roster = s.roster := rfl
@[simp] theorem State.setMb_reg (s : State) (i : Nat) (x : Mailbox) : (s.setMb i x).reg = s.reg := rfl
@[simp] theorem State.setMb_queues (s : State) (i : Nat) (x : Mailbox) : (s.setMb i x).queues = s.queues := rfl
@[simp] theorem State.setMb_qsel (s : State) (i : Nat) (x : Mailbox) : (s.setMb i x).qsel = s.qsel := rfl
@[simp] theorem State.setMb_slices (s : State) (i : Nat) (x : Mailbox) : (s.setMb i x).slices = s.slices := rfl
@[simp] theorem State.setMb_sec (s : State) (i : Nat) (x : Mailbox) : (s.setMb i x).sec = s.sec := rfl
@[simp] theorem State.setMb_found (s : State) (i : Nat) (x : Mailbox) : (s.setMb i x).found = s.found := rfl
@[simp] theorem State.setMb_llc (s : State) (i : Nat) (x : Mailbox) : (s.setMb i x).llc = s.llc := rfl
@[simp] theorem State.setMb_bridges (s : State) (i : Nat) (x : Mailbox) : (s.setMb i x).bridges = s.bridges := rfl
@[simp] theorem State.setMb_pair (s : State) (i : Nat) (x : Mailbox) : (s.setMb i x).pair = s.pair := rfl
@[simp] theorem State.setMb_plan (s : State) (i : Nat) (x : Mailbox) : (s.setMb i x).plan = s.plan := rfl
@[simp] theorem State.setMb_rast (s : State) (i : Nat) (x : Mailbox) : (s.setMb i x).rast = s.rast := rfl
@[simp] theorem State.setMb_proc (s : State) (i : Nat) (x : Mailbox) : (s.setMb i x).proc = s.proc := rfl
@[simp] theorem State.setMb_gw (s : State) (i : Nat) (x : Mailbox) : (s.setMb i x).gw = s.gw := rfl
@[simp] theorem State.setMb_time (s : State) (i : Nat) (x : Mailbox) : (s.setMb i x).time = s.time := rfl

@[simp] theorem State.setSlice_pending (s : State) (i : Nat) (x : Slice) : (s.setSlice i x).pending = s.pending := rfl
@[simp] theorem State.setSlice_bus (s : State) (i : Nat) (x : Slice) : (s.setSlice i x).bus = s.bus := rfl
@[simp] theorem State.setSlice_fresh (s : State) (i : Nat) (x : Slice) : (s.setSlice i x).fresh = s.fresh := rfl
@[simp] theorem State.setSlice_irqOut (s : State) (i : Nat) (x : Slice) : (s.setSlice i x).irqOut = s.irqOut := rfl
@[simp] theorem State.setSlice_regs (s : State) (i : Nat) (x : Slice) : (s.setSlice i x).regs = s.regs := rfl
@[simp] theorem State.setSlice_mem (s : State) (i : Nat) (x : Slice) : (s.setSlice i x).mem = s.mem := rfl
@[simp] theorem State.setSlice_ecc (s : State) (i : Nat) (x : Slice) : (s.setSlice i x).ecc = s.ecc := rfl
@[simp] theorem State.setSlice_pins (s : State) (i : Nat) (x : Slice) : (s.setSlice i x).pins = s.pins := rfl
@[simp] theorem State.setSlice_fuses (s : State) (i : Nat) (x : Slice) : (s.setSlice i x).fuses = s.fuses := rfl
@[simp] theorem State.setSlice_boot (s : State) (i : Nat) (x : Slice) : (s.setSlice i x).boot = s.boot := rfl
@[simp] theorem State.setSlice_clock (s : State) (i : Nat) (x : Slice) : (s.setSlice i x).clock = s.clock := rfl
@[simp] theorem State.setSlice_fcu (s : State) (i : Nat) (x : Slice) : (s.setSlice i x).fcu = s.fcu := rfl
@[simp] theorem State.setSlice_dies (s : State) (i : Nat) (x : Slice) : (s.setSlice i x).dies = s.dies := rfl
@[simp] theorem State.setSlice_pwr (s : State) (i : Nat) (x : Slice) : (s.setSlice i x).pwr = s.pwr := rfl
@[simp] theorem State.setSlice_seats (s : State) (i : Nat) (x : Slice) : (s.setSlice i x).seats = s.seats := rfl
@[simp] theorem State.setSlice_cores (s : State) (i : Nat) (x : Slice) : (s.setSlice i x).cores = s.cores := rfl
@[simp] theorem State.setSlice_clusters (s : State) (i : Nat) (x : Slice) : (s.setSlice i x).clusters = s.clusters := rfl
@[simp] theorem State.setSlice_lessons (s : State) (i : Nat) (x : Slice) : (s.setSlice i x).lessons = s.lessons := rfl
@[simp] theorem State.setSlice_jobs (s : State) (i : Nat) (x : Slice) : (s.setSlice i x).jobs = s.jobs := rfl
@[simp] theorem State.setSlice_roster (s : State) (i : Nat) (x : Slice) : (s.setSlice i x).roster = s.roster := rfl
@[simp] theorem State.setSlice_reg (s : State) (i : Nat) (x : Slice) : (s.setSlice i x).reg = s.reg := rfl
@[simp] theorem State.setSlice_queues (s : State) (i : Nat) (x : Slice) : (s.setSlice i x).queues = s.queues := rfl
@[simp] theorem State.setSlice_qsel (s : State) (i : Nat) (x : Slice) : (s.setSlice i x).qsel = s.qsel := rfl
@[simp] theorem State.setSlice_mbox (s : State) (i : Nat) (x : Slice) : (s.setSlice i x).mbox = s.mbox := rfl
@[simp] theorem State.setSlice_sec (s : State) (i : Nat) (x : Slice) : (s.setSlice i x).sec = s.sec := rfl
@[simp] theorem State.setSlice_found (s : State) (i : Nat) (x : Slice) : (s.setSlice i x).found = s.found := rfl
@[simp] theorem State.setSlice_llc (s : State) (i : Nat) (x : Slice) : (s.setSlice i x).llc = s.llc := rfl
@[simp] theorem State.setSlice_bridges (s : State) (i : Nat) (x : Slice) : (s.setSlice i x).bridges = s.bridges := rfl
@[simp] theorem State.setSlice_pair (s : State) (i : Nat) (x : Slice) : (s.setSlice i x).pair = s.pair := rfl
@[simp] theorem State.setSlice_plan (s : State) (i : Nat) (x : Slice) : (s.setSlice i x).plan = s.plan := rfl
@[simp] theorem State.setSlice_rast (s : State) (i : Nat) (x : Slice) : (s.setSlice i x).rast = s.rast := rfl
@[simp] theorem State.setSlice_proc (s : State) (i : Nat) (x : Slice) : (s.setSlice i x).proc = s.proc := rfl
@[simp] theorem State.setSlice_gw (s : State) (i : Nat) (x : Slice) : (s.setSlice i x).gw = s.gw := rfl
@[simp] theorem State.setSlice_time (s : State) (i : Nat) (x : Slice) : (s.setSlice i x).time = s.time := rfl

@[simp] theorem State.setBridge_pending (s : State) (b : Nat) (x : BridgeX) : (s.setBridge b x).pending = s.pending := rfl
@[simp] theorem State.setBridge_bus (s : State) (b : Nat) (x : BridgeX) : (s.setBridge b x).bus = s.bus := rfl
@[simp] theorem State.setBridge_fresh (s : State) (b : Nat) (x : BridgeX) : (s.setBridge b x).fresh = s.fresh := rfl
@[simp] theorem State.setBridge_irqOut (s : State) (b : Nat) (x : BridgeX) : (s.setBridge b x).irqOut = s.irqOut := rfl
@[simp] theorem State.setBridge_regs (s : State) (b : Nat) (x : BridgeX) : (s.setBridge b x).regs = s.regs := rfl
@[simp] theorem State.setBridge_mem (s : State) (b : Nat) (x : BridgeX) : (s.setBridge b x).mem = s.mem := rfl
@[simp] theorem State.setBridge_ecc (s : State) (b : Nat) (x : BridgeX) : (s.setBridge b x).ecc = s.ecc := rfl
@[simp] theorem State.setBridge_pins (s : State) (b : Nat) (x : BridgeX) : (s.setBridge b x).pins = s.pins := rfl
@[simp] theorem State.setBridge_fuses (s : State) (b : Nat) (x : BridgeX) : (s.setBridge b x).fuses = s.fuses := rfl
@[simp] theorem State.setBridge_boot (s : State) (b : Nat) (x : BridgeX) : (s.setBridge b x).boot = s.boot := rfl
@[simp] theorem State.setBridge_clock (s : State) (b : Nat) (x : BridgeX) : (s.setBridge b x).clock = s.clock := rfl
@[simp] theorem State.setBridge_fcu (s : State) (b : Nat) (x : BridgeX) : (s.setBridge b x).fcu = s.fcu := rfl
@[simp] theorem State.setBridge_dies (s : State) (b : Nat) (x : BridgeX) : (s.setBridge b x).dies = s.dies := rfl
@[simp] theorem State.setBridge_pwr (s : State) (b : Nat) (x : BridgeX) : (s.setBridge b x).pwr = s.pwr := rfl
@[simp] theorem State.setBridge_seats (s : State) (b : Nat) (x : BridgeX) : (s.setBridge b x).seats = s.seats := rfl
@[simp] theorem State.setBridge_cores (s : State) (b : Nat) (x : BridgeX) : (s.setBridge b x).cores = s.cores := rfl
@[simp] theorem State.setBridge_clusters (s : State) (b : Nat) (x : BridgeX) : (s.setBridge b x).clusters = s.clusters := rfl
@[simp] theorem State.setBridge_lessons (s : State) (b : Nat) (x : BridgeX) : (s.setBridge b x).lessons = s.lessons := rfl
@[simp] theorem State.setBridge_jobs (s : State) (b : Nat) (x : BridgeX) : (s.setBridge b x).jobs = s.jobs := rfl
@[simp] theorem State.setBridge_roster (s : State) (b : Nat) (x : BridgeX) : (s.setBridge b x).roster = s.roster := rfl
@[simp] theorem State.setBridge_reg (s : State) (b : Nat) (x : BridgeX) : (s.setBridge b x).reg = s.reg := rfl
@[simp] theorem State.setBridge_queues (s : State) (b : Nat) (x : BridgeX) : (s.setBridge b x).queues = s.queues := rfl
@[simp] theorem State.setBridge_qsel (s : State) (b : Nat) (x : BridgeX) : (s.setBridge b x).qsel = s.qsel := rfl
@[simp] theorem State.setBridge_mbox (s : State) (b : Nat) (x : BridgeX) : (s.setBridge b x).mbox = s.mbox := rfl
@[simp] theorem State.setBridge_slices (s : State) (b : Nat) (x : BridgeX) : (s.setBridge b x).slices = s.slices := rfl
@[simp] theorem State.setBridge_sec (s : State) (b : Nat) (x : BridgeX) : (s.setBridge b x).sec = s.sec := rfl
@[simp] theorem State.setBridge_found (s : State) (b : Nat) (x : BridgeX) : (s.setBridge b x).found = s.found := rfl
@[simp] theorem State.setBridge_llc (s : State) (b : Nat) (x : BridgeX) : (s.setBridge b x).llc = s.llc := rfl
@[simp] theorem State.setBridge_pair (s : State) (b : Nat) (x : BridgeX) : (s.setBridge b x).pair = s.pair := rfl
@[simp] theorem State.setBridge_plan (s : State) (b : Nat) (x : BridgeX) : (s.setBridge b x).plan = s.plan := rfl
@[simp] theorem State.setBridge_rast (s : State) (b : Nat) (x : BridgeX) : (s.setBridge b x).rast = s.rast := rfl
@[simp] theorem State.setBridge_proc (s : State) (b : Nat) (x : BridgeX) : (s.setBridge b x).proc = s.proc := rfl
@[simp] theorem State.setBridge_gw (s : State) (b : Nat) (x : BridgeX) : (s.setBridge b x).gw = s.gw := rfl
@[simp] theorem State.setBridge_time (s : State) (b : Nat) (x : BridgeX) : (s.setBridge b x).time = s.time := rfl

@[simp] theorem State.setEntry_pending (s : State) (i : Nat) (x : RosterEntry) : (s.setEntry i x).pending = s.pending := rfl
@[simp] theorem State.setEntry_bus (s : State) (i : Nat) (x : RosterEntry) : (s.setEntry i x).bus = s.bus := rfl
@[simp] theorem State.setEntry_fresh (s : State) (i : Nat) (x : RosterEntry) : (s.setEntry i x).fresh = s.fresh := rfl
@[simp] theorem State.setEntry_irqOut (s : State) (i : Nat) (x : RosterEntry) : (s.setEntry i x).irqOut = s.irqOut := rfl
@[simp] theorem State.setEntry_regs (s : State) (i : Nat) (x : RosterEntry) : (s.setEntry i x).regs = s.regs := rfl
@[simp] theorem State.setEntry_mem (s : State) (i : Nat) (x : RosterEntry) : (s.setEntry i x).mem = s.mem := rfl
@[simp] theorem State.setEntry_ecc (s : State) (i : Nat) (x : RosterEntry) : (s.setEntry i x).ecc = s.ecc := rfl
@[simp] theorem State.setEntry_pins (s : State) (i : Nat) (x : RosterEntry) : (s.setEntry i x).pins = s.pins := rfl
@[simp] theorem State.setEntry_fuses (s : State) (i : Nat) (x : RosterEntry) : (s.setEntry i x).fuses = s.fuses := rfl
@[simp] theorem State.setEntry_boot (s : State) (i : Nat) (x : RosterEntry) : (s.setEntry i x).boot = s.boot := rfl
@[simp] theorem State.setEntry_clock (s : State) (i : Nat) (x : RosterEntry) : (s.setEntry i x).clock = s.clock := rfl
@[simp] theorem State.setEntry_fcu (s : State) (i : Nat) (x : RosterEntry) : (s.setEntry i x).fcu = s.fcu := rfl
@[simp] theorem State.setEntry_dies (s : State) (i : Nat) (x : RosterEntry) : (s.setEntry i x).dies = s.dies := rfl
@[simp] theorem State.setEntry_pwr (s : State) (i : Nat) (x : RosterEntry) : (s.setEntry i x).pwr = s.pwr := rfl
@[simp] theorem State.setEntry_seats (s : State) (i : Nat) (x : RosterEntry) : (s.setEntry i x).seats = s.seats := rfl
@[simp] theorem State.setEntry_cores (s : State) (i : Nat) (x : RosterEntry) : (s.setEntry i x).cores = s.cores := rfl
@[simp] theorem State.setEntry_clusters (s : State) (i : Nat) (x : RosterEntry) : (s.setEntry i x).clusters = s.clusters := rfl
@[simp] theorem State.setEntry_lessons (s : State) (i : Nat) (x : RosterEntry) : (s.setEntry i x).lessons = s.lessons := rfl
@[simp] theorem State.setEntry_jobs (s : State) (i : Nat) (x : RosterEntry) : (s.setEntry i x).jobs = s.jobs := rfl
@[simp] theorem State.setEntry_reg (s : State) (i : Nat) (x : RosterEntry) : (s.setEntry i x).reg = s.reg := rfl
@[simp] theorem State.setEntry_queues (s : State) (i : Nat) (x : RosterEntry) : (s.setEntry i x).queues = s.queues := rfl
@[simp] theorem State.setEntry_qsel (s : State) (i : Nat) (x : RosterEntry) : (s.setEntry i x).qsel = s.qsel := rfl
@[simp] theorem State.setEntry_mbox (s : State) (i : Nat) (x : RosterEntry) : (s.setEntry i x).mbox = s.mbox := rfl
@[simp] theorem State.setEntry_slices (s : State) (i : Nat) (x : RosterEntry) : (s.setEntry i x).slices = s.slices := rfl
@[simp] theorem State.setEntry_sec (s : State) (i : Nat) (x : RosterEntry) : (s.setEntry i x).sec = s.sec := rfl
@[simp] theorem State.setEntry_found (s : State) (i : Nat) (x : RosterEntry) : (s.setEntry i x).found = s.found := rfl
@[simp] theorem State.setEntry_llc (s : State) (i : Nat) (x : RosterEntry) : (s.setEntry i x).llc = s.llc := rfl
@[simp] theorem State.setEntry_bridges (s : State) (i : Nat) (x : RosterEntry) : (s.setEntry i x).bridges = s.bridges := rfl
@[simp] theorem State.setEntry_pair (s : State) (i : Nat) (x : RosterEntry) : (s.setEntry i x).pair = s.pair := rfl
@[simp] theorem State.setEntry_plan (s : State) (i : Nat) (x : RosterEntry) : (s.setEntry i x).plan = s.plan := rfl
@[simp] theorem State.setEntry_rast (s : State) (i : Nat) (x : RosterEntry) : (s.setEntry i x).rast = s.rast := rfl
@[simp] theorem State.setEntry_proc (s : State) (i : Nat) (x : RosterEntry) : (s.setEntry i x).proc = s.proc := rfl
@[simp] theorem State.setEntry_gw (s : State) (i : Nat) (x : RosterEntry) : (s.setEntry i x).gw = s.gw := rfl
@[simp] theorem State.setEntry_time (s : State) (i : Nat) (x : RosterEntry) : (s.setEntry i x).time = s.time := rfl

@[simp] theorem State.setJob_pending (s : State) (k : Nat) (x : Job) : (s.setJob k x).pending = s.pending := rfl
@[simp] theorem State.setJob_bus (s : State) (k : Nat) (x : Job) : (s.setJob k x).bus = s.bus := rfl
@[simp] theorem State.setJob_fresh (s : State) (k : Nat) (x : Job) : (s.setJob k x).fresh = s.fresh := rfl
@[simp] theorem State.setJob_irqOut (s : State) (k : Nat) (x : Job) : (s.setJob k x).irqOut = s.irqOut := rfl
@[simp] theorem State.setJob_regs (s : State) (k : Nat) (x : Job) : (s.setJob k x).regs = s.regs := rfl
@[simp] theorem State.setJob_mem (s : State) (k : Nat) (x : Job) : (s.setJob k x).mem = s.mem := rfl
@[simp] theorem State.setJob_ecc (s : State) (k : Nat) (x : Job) : (s.setJob k x).ecc = s.ecc := rfl
@[simp] theorem State.setJob_pins (s : State) (k : Nat) (x : Job) : (s.setJob k x).pins = s.pins := rfl
@[simp] theorem State.setJob_fuses (s : State) (k : Nat) (x : Job) : (s.setJob k x).fuses = s.fuses := rfl
@[simp] theorem State.setJob_boot (s : State) (k : Nat) (x : Job) : (s.setJob k x).boot = s.boot := rfl
@[simp] theorem State.setJob_clock (s : State) (k : Nat) (x : Job) : (s.setJob k x).clock = s.clock := rfl
@[simp] theorem State.setJob_fcu (s : State) (k : Nat) (x : Job) : (s.setJob k x).fcu = s.fcu := rfl
@[simp] theorem State.setJob_dies (s : State) (k : Nat) (x : Job) : (s.setJob k x).dies = s.dies := rfl
@[simp] theorem State.setJob_pwr (s : State) (k : Nat) (x : Job) : (s.setJob k x).pwr = s.pwr := rfl
@[simp] theorem State.setJob_seats (s : State) (k : Nat) (x : Job) : (s.setJob k x).seats = s.seats := rfl
@[simp] theorem State.setJob_cores (s : State) (k : Nat) (x : Job) : (s.setJob k x).cores = s.cores := rfl
@[simp] theorem State.setJob_clusters (s : State) (k : Nat) (x : Job) : (s.setJob k x).clusters = s.clusters := rfl
@[simp] theorem State.setJob_lessons (s : State) (k : Nat) (x : Job) : (s.setJob k x).lessons = s.lessons := rfl
@[simp] theorem State.setJob_roster (s : State) (k : Nat) (x : Job) : (s.setJob k x).roster = s.roster := rfl
@[simp] theorem State.setJob_reg (s : State) (k : Nat) (x : Job) : (s.setJob k x).reg = s.reg := rfl
@[simp] theorem State.setJob_queues (s : State) (k : Nat) (x : Job) : (s.setJob k x).queues = s.queues := rfl
@[simp] theorem State.setJob_qsel (s : State) (k : Nat) (x : Job) : (s.setJob k x).qsel = s.qsel := rfl
@[simp] theorem State.setJob_mbox (s : State) (k : Nat) (x : Job) : (s.setJob k x).mbox = s.mbox := rfl
@[simp] theorem State.setJob_slices (s : State) (k : Nat) (x : Job) : (s.setJob k x).slices = s.slices := rfl
@[simp] theorem State.setJob_sec (s : State) (k : Nat) (x : Job) : (s.setJob k x).sec = s.sec := rfl
@[simp] theorem State.setJob_found (s : State) (k : Nat) (x : Job) : (s.setJob k x).found = s.found := rfl
@[simp] theorem State.setJob_llc (s : State) (k : Nat) (x : Job) : (s.setJob k x).llc = s.llc := rfl
@[simp] theorem State.setJob_bridges (s : State) (k : Nat) (x : Job) : (s.setJob k x).bridges = s.bridges := rfl
@[simp] theorem State.setJob_pair (s : State) (k : Nat) (x : Job) : (s.setJob k x).pair = s.pair := rfl
@[simp] theorem State.setJob_plan (s : State) (k : Nat) (x : Job) : (s.setJob k x).plan = s.plan := rfl
@[simp] theorem State.setJob_rast (s : State) (k : Nat) (x : Job) : (s.setJob k x).rast = s.rast := rfl
@[simp] theorem State.setJob_proc (s : State) (k : Nat) (x : Job) : (s.setJob k x).proc = s.proc := rfl
@[simp] theorem State.setJob_gw (s : State) (k : Nat) (x : Job) : (s.setJob k x).gw = s.gw := rfl
@[simp] theorem State.setJob_time (s : State) (k : Nat) (x : Job) : (s.setJob k x).time = s.time := rfl

@[simp] theorem State.setLesson_pending (s : State) (k : Nat) (x : Lesson) : (s.setLesson k x).pending = s.pending := rfl
@[simp] theorem State.setLesson_bus (s : State) (k : Nat) (x : Lesson) : (s.setLesson k x).bus = s.bus := rfl
@[simp] theorem State.setLesson_fresh (s : State) (k : Nat) (x : Lesson) : (s.setLesson k x).fresh = s.fresh := rfl
@[simp] theorem State.setLesson_irqOut (s : State) (k : Nat) (x : Lesson) : (s.setLesson k x).irqOut = s.irqOut := rfl
@[simp] theorem State.setLesson_regs (s : State) (k : Nat) (x : Lesson) : (s.setLesson k x).regs = s.regs := rfl
@[simp] theorem State.setLesson_mem (s : State) (k : Nat) (x : Lesson) : (s.setLesson k x).mem = s.mem := rfl
@[simp] theorem State.setLesson_ecc (s : State) (k : Nat) (x : Lesson) : (s.setLesson k x).ecc = s.ecc := rfl
@[simp] theorem State.setLesson_pins (s : State) (k : Nat) (x : Lesson) : (s.setLesson k x).pins = s.pins := rfl
@[simp] theorem State.setLesson_fuses (s : State) (k : Nat) (x : Lesson) : (s.setLesson k x).fuses = s.fuses := rfl
@[simp] theorem State.setLesson_boot (s : State) (k : Nat) (x : Lesson) : (s.setLesson k x).boot = s.boot := rfl
@[simp] theorem State.setLesson_clock (s : State) (k : Nat) (x : Lesson) : (s.setLesson k x).clock = s.clock := rfl
@[simp] theorem State.setLesson_fcu (s : State) (k : Nat) (x : Lesson) : (s.setLesson k x).fcu = s.fcu := rfl
@[simp] theorem State.setLesson_dies (s : State) (k : Nat) (x : Lesson) : (s.setLesson k x).dies = s.dies := rfl
@[simp] theorem State.setLesson_pwr (s : State) (k : Nat) (x : Lesson) : (s.setLesson k x).pwr = s.pwr := rfl
@[simp] theorem State.setLesson_seats (s : State) (k : Nat) (x : Lesson) : (s.setLesson k x).seats = s.seats := rfl
@[simp] theorem State.setLesson_cores (s : State) (k : Nat) (x : Lesson) : (s.setLesson k x).cores = s.cores := rfl
@[simp] theorem State.setLesson_clusters (s : State) (k : Nat) (x : Lesson) : (s.setLesson k x).clusters = s.clusters := rfl
@[simp] theorem State.setLesson_jobs (s : State) (k : Nat) (x : Lesson) : (s.setLesson k x).jobs = s.jobs := rfl
@[simp] theorem State.setLesson_roster (s : State) (k : Nat) (x : Lesson) : (s.setLesson k x).roster = s.roster := rfl
@[simp] theorem State.setLesson_reg (s : State) (k : Nat) (x : Lesson) : (s.setLesson k x).reg = s.reg := rfl
@[simp] theorem State.setLesson_queues (s : State) (k : Nat) (x : Lesson) : (s.setLesson k x).queues = s.queues := rfl
@[simp] theorem State.setLesson_qsel (s : State) (k : Nat) (x : Lesson) : (s.setLesson k x).qsel = s.qsel := rfl
@[simp] theorem State.setLesson_mbox (s : State) (k : Nat) (x : Lesson) : (s.setLesson k x).mbox = s.mbox := rfl
@[simp] theorem State.setLesson_slices (s : State) (k : Nat) (x : Lesson) : (s.setLesson k x).slices = s.slices := rfl
@[simp] theorem State.setLesson_sec (s : State) (k : Nat) (x : Lesson) : (s.setLesson k x).sec = s.sec := rfl
@[simp] theorem State.setLesson_found (s : State) (k : Nat) (x : Lesson) : (s.setLesson k x).found = s.found := rfl
@[simp] theorem State.setLesson_llc (s : State) (k : Nat) (x : Lesson) : (s.setLesson k x).llc = s.llc := rfl
@[simp] theorem State.setLesson_bridges (s : State) (k : Nat) (x : Lesson) : (s.setLesson k x).bridges = s.bridges := rfl
@[simp] theorem State.setLesson_pair (s : State) (k : Nat) (x : Lesson) : (s.setLesson k x).pair = s.pair := rfl
@[simp] theorem State.setLesson_plan (s : State) (k : Nat) (x : Lesson) : (s.setLesson k x).plan = s.plan := rfl
@[simp] theorem State.setLesson_rast (s : State) (k : Nat) (x : Lesson) : (s.setLesson k x).rast = s.rast := rfl
@[simp] theorem State.setLesson_proc (s : State) (k : Nat) (x : Lesson) : (s.setLesson k x).proc = s.proc := rfl
@[simp] theorem State.setLesson_gw (s : State) (k : Nat) (x : Lesson) : (s.setLesson k x).gw = s.gw := rfl
@[simp] theorem State.setLesson_time (s : State) (k : Nat) (x : Lesson) : (s.setLesson k x).time = s.time := rfl

end Sys2Proof.Machine
end

