-- ==== Sys2Proof/Laws/Table.lean ====
section
/-! SUPPORT. Tables: a read after a write, and the canonical form that every update keeps. -/

namespace Sys2Proof.Machine

variable {α : Type}

theorem Table.find_put_same (t : Table α) (k : Nat) (v : α) : Table.find (Table.put t k v) k = some v := by
  induction t with
  | nil => simp [Table.put, Table.find]
  | cons p t ih =>
    obtain ⟨i, w⟩ := p
    unfold Table.put
    split
    · simp [Table.find]
    · split
      · simp [Table.find]
      · have h : ¬ i = k := by omega
        simp [Table.find, h, ih]

theorem Table.find_put_other (t : Table α) (k j : Nat) (v : α) (hj : j ≠ k) :
    Table.find (Table.put t k v) j = Table.find t j := by
  induction t with
  | nil => simp [Table.put, Table.find, Ne.symm hj]
  | cons p t ih =>
    obtain ⟨i, w⟩ := p
    unfold Table.put
    split
    · simp [Table.find, Ne.symm hj]
    · split
      · rename_i h; subst h; simp [Table.find, Ne.symm hj]
      · simp only [Table.find]; split <;> simp_all

theorem Table.find_del_other (t : Table α) (k j : Nat) (hj : j ≠ k) : Table.find (Table.del t k) j = Table.find t j := by
  induction t with
  | nil => rfl
  | cons p t ih =>
    obtain ⟨i, w⟩ := p
    unfold Table.del
    split
    · rename_i h; subst h; simp [Table.find, Ne.symm hj, ih]
    · simp only [Table.find]; split <;> simp_all

/-- A key below every key of the table is not listed. -/
theorem Table.find_above (t : Table α) (k n : Nat) (h : Table.above n t = true) (hk : k ≤ n) : Table.find t k = none := by
  induction t generalizing n with
  | nil => rfl
  | cons p t ih =>
    obtain ⟨i, w⟩ := p
    simp only [Table.above, Bool.and_eq_true, decide_eq_true_eq] at h
    have hi : ¬ i = k := by omega
    simp only [Table.find, hi, if_false]
    exact ih i h.2 (by omega)

theorem Table.find_del_same (t : Table α) (k : Nat) : Table.find (Table.del t k) k = none := by
  induction t with
  | nil => rfl
  | cons p t ih =>
    obtain ⟨i, w⟩ := p
    unfold Table.del
    split
    · exact ih
    · rename_i hi; simp only [Table.find, hi, if_false]; exact ih

theorem Table.get_set_same [DecidableEq α] (t : Table α) (d : α) (k : Nat) (v : α) : Table.get (Table.set t d k v) d k = v := by
  unfold Table.set Table.get
  split
  · rename_i hv; simp [Table.find_del_same t k, hv]
  · simp [Table.find_put_same]

theorem Table.get_set_other [DecidableEq α] (t : Table α) (d e : α) (k j : Nat) (v : α) (hj : j ≠ k) :
    Table.get (Table.set t d k v) e j = Table.get t e j := by
  unfold Table.set Table.get
  split
  · rw [Table.find_del_other t k j hj]
  · rw [Table.find_put_other t k j v hj]

/-! ### The keys stay strictly rising -/

theorem Table.above_le (t : Table α) (m n : Nat) (h : Table.above n t = true) (hm : m ≤ n) : Table.above m t = true := by
  cases t with
  | nil => rfl
  | cons p t =>
    simp only [Table.above, Bool.and_eq_true, decide_eq_true_eq] at h ⊢
    exact ⟨by omega, h.2⟩

theorem Table.above_put (t : Table α) (n k : Nat) (v : α) (h : Table.above n t = true) (hk : n < k) :
    Table.above n (Table.put t k v) = true := by
  induction t generalizing n with
  | nil => simp [Table.put, Table.above, hk]
  | cons p t ih =>
    obtain ⟨i, w⟩ := p
    simp only [Table.above, Bool.and_eq_true, decide_eq_true_eq] at h
    unfold Table.put
    split
    · simp [Table.above, h.2, *]
    · split
      · rename_i hi; subst hi; simp [Table.above, hk, h.2]
      · simp only [Table.above, Bool.and_eq_true, decide_eq_true_eq]
        exact ⟨h.1, ih i h.2 (by omega)⟩

theorem Table.above_filter (t : Table α) (p : Nat × α → Bool) (n : Nat) (h : Table.above n t = true) :
    Table.above n (t.filter p) = true := by
  induction t generalizing n with
  | nil => rfl
  | cons q t ih =>
    obtain ⟨i, w⟩ := q
    simp only [Table.above, Bool.and_eq_true, decide_eq_true_eq] at h
    simp only [List.filter]
    split
    · simp only [Table.above, Bool.and_eq_true, decide_eq_true_eq]; exact ⟨h.1, ih i h.2⟩
    · exact Table.above_le _ n i (ih i h.2) (by omega)

theorem Table.sorted_filter (t : Table α) (p : Nat × α → Bool) (h : Table.sorted t = true) :
    Table.sorted (t.filter p) = true := by
  induction t with
  | nil => rfl
  | cons q t ih =>
    obtain ⟨i, w⟩ := q
    simp only [List.filter]
    have ht : Table.above i t = true := h
    split
    · exact Table.above_filter t p i ht
    · apply ih
      cases t with
      | nil => rfl
      | cons r t => simp only [Table.above, Bool.and_eq_true] at ht; exact ht.2

theorem Table.sorted_put (t : Table α) (k : Nat) (v : α) (h : Table.sorted t = true) : Table.sorted (Table.put t k v) = true := by
  cases t with
  | nil => simp [Table.put, Table.sorted, Table.above]
  | cons p t =>
    obtain ⟨i, w⟩ := p
    have ht : Table.above i t = true := h
    unfold Table.put
    split
    · simp [Table.sorted, Table.above, *]
    · split
      · rename_i hi; subst hi; exact ht
      · exact Table.above_put t i k v ht (by omega)

theorem Table.del_eq_filter (t : Table α) (k : Nat) : Table.del t k = t.filter (fun p => decide (p.1 ≠ k)) := by
  induction t with
  | nil => rfl
  | cons p t ih =>
    obtain ⟨i, w⟩ := p
    unfold Table.del
    split <;> simp_all [List.filter]

theorem Table.sorted_del (t : Table α) (k : Nat) (h : Table.sorted t = true) : Table.sorted (Table.del t k) = true := by
  rw [Table.del_eq_filter t k]; exact Table.sorted_filter t _ h

theorem Table.sorted_set [DecidableEq α] (t : Table α) (d : α) (k : Nat) (v : α) (h : Table.sorted t = true) :
    Table.sorted (Table.set t d k v) = true := by
  unfold Table.set
  split
  · exact Table.sorted_del t k h
  · exact Table.sorted_put t k v h

theorem Table.sorted_cut (t : Table α) (lo hi : Nat) (h : Table.sorted t = true) : Table.sorted (Table.cut t lo hi) = true :=
  Table.sorted_filter t _ h

/-! ### No entry equals its default -/

theorem Table.mem_put (t : Table α) (k : Nat) (v : α) (q : Nat × α) (h : q ∈ Table.put t k v) : q = (k, v) ∨ q ∈ t := by
  induction t with
  | nil => simpa [Table.put] using h
  | cons p t ih =>
    obtain ⟨i, w⟩ := p
    unfold Table.put at h
    split at h
    · simpa using h
    · split at h
      · rcases List.mem_cons.mp h with h | h
        · exact .inl h
        · exact .inr (List.mem_cons_of_mem _ h)
      · rcases List.mem_cons.mp h with h | h
        · exact .inr (h ▸ List.mem_cons_self ..)
        · rcases ih h with h | h
          · exact .inl h
          · exact .inr (List.mem_cons_of_mem _ h)

theorem Table.wf_set [DecidableEq α] (t : Table α) (d : α) (k : Nat) (v : α) (h : Table.wf (fun _ => d) t = true) :
    Table.wf (fun _ => d) (Table.set t d k v) = true := by
  simp only [Table.wf, Bool.and_eq_true, List.all_eq_true, decide_eq_true_eq] at h ⊢
  refine ⟨Table.sorted_set t d k v h.1, ?_⟩
  intro q hq
  unfold Table.set at hq
  split at hq
  · rw [Table.del_eq_filter t k] at hq
    exact h.2 q (List.mem_of_mem_filter hq)
  · rcases Table.mem_put t k v q hq with rfl | hm
    · assumption
    · exact h.2 q hm

theorem Table.wf_cut [DecidableEq α] (t : Table α) (d : α) (lo hi : Nat) (h : Table.wf (fun _ => d) t = true) :
    Table.wf (fun _ => d) (Table.cut t lo hi) = true := by
  simp only [Table.wf, Bool.and_eq_true, List.all_eq_true, decide_eq_true_eq] at h ⊢
  exact ⟨Table.sorted_cut t lo hi h.1, fun q hq => h.2 q (List.mem_of_mem_filter hq)⟩

end Sys2Proof.Machine
end

