-- ==== Sys2Proof/Laws/Ops.lean ====
section
/-! SUPPORT. What the named operations over registers and memory do: a read after a write, and what a write leaves alone. -/

namespace Sys2Proof.Machine

/-! ### Registers -/

theorem State.reg64_lt (s : State) (r : Reg) : s.reg64 r < 2 ^ 64 := by unfold State.reg64; exact BitVec.isLt _

theorem State.reg64_setReg64_same (s : State) (r : Reg) (v : Nat) : (s.setReg64 r v).reg64 r = v % 2 ^ 64 := by
  simp [State.reg64, State.setReg64, Table.get_set_same]

theorem State.reg64_setReg64_other (s : State) (r q : Reg) (v : Nat) (h : q.addr ≠ r.addr) :
    (s.setReg64 r v).reg64 q = s.reg64 q := by
  unfold State.reg64 State.setReg64
  rw [Table.get_set_other _ _ _ _ _ _ h]

/-- A word is its bits below a field, the field and its bits above. -/
theorem FRef.split_word (f : FRef) (w : Nat) :
    w = w % 2 ^ f.lo + 2 ^ f.lo * (f.of w + f.span * (w / 2 ^ f.lo / f.span)) := by
  unfold FRef.of
  rw [Nat.mod_add_div (w / 2 ^ f.lo) f.span, Nat.mod_add_div]

theorem FRef.span_pos (f : FRef) : 0 < f.span := Nat.two_pow_pos _

theorem FRef.into_eq (f : FRef) (w v : Nat) :
    f.into w v = w % 2 ^ f.lo + 2 ^ f.lo * (v % f.span + f.span * (w / 2 ^ f.lo / f.span)) := by
  have h := f.split_word w
  unfold FRef.into
  generalize hA : w % 2 ^ f.lo = A at h ⊢
  generalize hB : f.of w = B at h ⊢
  generalize hC : w / 2 ^ f.lo / f.span = C at h ⊢
  generalize hD : v % f.span = D
  generalize hP : 2 ^ f.lo = P at h ⊢
  have h1 : P * (B + f.span * C) = P * B + P * (f.span * C) := Nat.mul_add ..
  have h2 : P * (D + f.span * C) = P * D + P * (f.span * C) := Nat.mul_add ..
  have h3 : B * P = P * B := Nat.mul_comm ..
  have h4 : D * P = P * D := Nat.mul_comm ..
  omega

theorem FRef.of_into (f : FRef) (w v : Nat) : f.of (f.into w v) = v % f.span := by
  rw [f.into_eq w v]
  unfold FRef.of
  have hp : 0 < 2 ^ f.lo := Nat.two_pow_pos _
  rw [Nat.add_mul_div_left _ _ hp, Nat.div_eq_of_lt (Nat.mod_lt _ hp), Nat.zero_add, Nat.add_mul_mod_self_left, Nat.mod_mod]

theorem FRef.into_lt (f : FRef) (w v : Nat) (h : f.hi < 64) (hl : f.lo ≤ f.hi) (hw : w < 2 ^ 64) : f.into w v < 2 ^ 64 := by
  rw [f.into_eq w v]
  have hp : 0 < 2 ^ f.lo := Nat.two_pow_pos _
  have hs := f.span_pos
  have h1 : w % 2 ^ f.lo < 2 ^ f.lo := Nat.mod_lt _ hp
  have h2 : v % f.span < f.span := Nat.mod_lt _ hs
  have hprod : 2 ^ f.lo * f.span * 2 ^ (63 - f.hi) = 2 ^ 64 := by
    unfold FRef.span
    rw [← Nat.pow_add, ← Nat.pow_add]
    congr 1; omega
  have h3 : w / 2 ^ f.lo / f.span < 2 ^ (63 - f.hi) := by
    rw [Nat.div_div_eq_div_mul, Nat.div_lt_iff_lt_mul (Nat.mul_pos hp hs), Nat.mul_comm, hprod]; exact hw
  have h4 : v % f.span + f.span * (w / 2 ^ f.lo / f.span) + 1 ≤ f.span * 2 ^ (63 - f.hi) := by
    have := Nat.mul_le_mul_left f.span (Nat.succ_le_of_lt h3)
    rw [Nat.mul_succ] at this
    omega
  have h5 := Nat.mul_le_mul_left (2 ^ f.lo) h4
  rw [Nat.mul_add, Nat.mul_one, ← Nat.mul_assoc, hprod] at h5
  omega

/-- A field reads back what was written to it. -/
theorem State.rd_wr_same (s : State) (f : FRef) (v : Nat) (h : f.hi < 64) (hl : f.lo ≤ f.hi) : (s.wr f v).rd f = v % f.span := by
  unfold State.rd State.wr
  rw [State.reg64_setReg64_same, Nat.mod_eq_of_lt (f.into_lt _ _ h hl (s.reg64_lt _)), f.of_into]

/-- Bits of a word, bit by bit. -/
theorem FRef.testBit_of (f : FRef) (w i : Nat) : (f.of w).testBit i = (decide (i < f.hi + 1 - f.lo) && w.testBit (f.lo + i)) := by
  unfold FRef.of FRef.span
  rw [Nat.testBit_mod_two_pow, Nat.testBit_div_two_pow, Nat.add_comm f.lo i]

theorem FRef.testBit_into (f : FRef) (w v i : Nat) (hi : i < f.lo ∨ f.hi < i) (hl : f.lo ≤ f.hi) :
    (f.into w v).testBit i = w.testBit i := by
  have hin := f.into_eq w v
  have hw := f.split_word w
  have hA : w % 2 ^ f.lo < 2 ^ f.lo := Nat.mod_lt _ (Nat.two_pow_pos _)
  rcases hi with hi | hi
  · have key : ∀ x, (w % 2 ^ f.lo + 2 ^ f.lo * x).testBit i = (w % 2 ^ f.lo).testBit i := by
      intro x
      rw [Nat.add_comm, Nat.testBit_two_pow_mul_add _ hA]
      simp [hi]
    rw [hin, key, Nat.testBit_mod_two_pow]
    simp [hi]
  · have key : ∀ D : Nat, D < f.span → (w % 2 ^ f.lo + 2 ^ f.lo * (D + f.span * (w / 2 ^ f.lo / f.span))).testBit i
        = (w / 2 ^ f.lo / f.span).testBit (i - f.lo - (f.hi + 1 - f.lo)) := by
      intro D hD
      rw [Nat.add_comm, Nat.testBit_two_pow_mul_add _ hA]
      have h1 : ¬ i < f.lo := by omega
      simp only [h1, if_false]
      unfold FRef.span at hD ⊢
      rw [Nat.add_comm D, Nat.testBit_two_pow_mul_add _ hD]
      have h2 : ¬ i - f.lo < f.hi + 1 - f.lo := by omega
      simp only [h2, if_false]
    rw [hin, key _ (Nat.mod_lt _ f.span_pos)]
    conv_rhs => rw [hw]
    rw [key _ (by unfold FRef.of; exact Nat.mod_lt _ f.span_pos)]

/-- A write to a field leaves the other fields of the register as they were. -/
theorem State.rd_wr_field (s : State) (f g : FRef) (v : Nat) (hr : g.reg = f.reg) (h : f.hi < 64) (hl : f.lo ≤ f.hi) (hg : g.lo ≤ g.hi)
    (hd : f.hi < g.lo ∨ g.hi < f.lo) : (s.wr f v).rd g = s.rd g := by
  unfold State.rd State.wr
  rw [hr, State.reg64_setReg64_same, Nat.mod_eq_of_lt (f.into_lt _ _ h hl (s.reg64_lt _))]
  apply Nat.eq_of_testBit_eq
  intro i
  rw [g.testBit_of, g.testBit_of]
  by_cases hi : i < g.hi + 1 - g.lo
  · rw [f.testBit_into _ _ _ (by omega) hl]
  · simp [hi]

/-- A write to a field leaves every other register as it was. -/
theorem State.rd_wr_other (s : State) (f g : FRef) (v : Nat) (h : g.reg.addr ≠ f.reg.addr) : (s.wr f v).rd g = s.rd g := by
  unfold State.rd State.wr
  rw [State.reg64_setReg64_other _ _ _ _ h]

theorem State.reg64_wr_other (s : State) (f : FRef) (r : Reg) (v : Nat) (h : r.addr ≠ f.reg.addr) : (s.wr f v).reg64 r = s.reg64 r := by
  unfold State.wr; rw [State.reg64_setReg64_other _ _ _ _ h]

/-- A read of a register depends on the register file alone. -/
theorem State.reg64_congr (s t : State) (r : Reg) (h : t.regs = s.regs) : t.reg64 r = s.reg64 r := by unfold State.reg64; rw [h]

theorem State.rd_congr (s t : State) (f : FRef) (h : t.regs = s.regs) : t.rd f = s.rd f := by
  unfold State.rd; rw [State.reg64_congr s t _ h]

theorem State.sorted_setReg64 (s : State) (r : Reg) (v : Nat) (h : Table.sorted s.regs = true) :
    Table.sorted (s.setReg64 r v).regs = true := Table.sorted_set _ _ _ _ h

theorem State.sorted_wr (s : State) (f : FRef) (v : Nat) (h : Table.sorted s.regs = true) : Table.sorted (s.wr f v).regs = true :=
  State.sorted_setReg64 s _ _ h

/-! ### Memory -/

theorem memPut_get_other (m : List Host.Cell) (a b : Nat) (bs : List Byte) (h : b < a ∨ a + bs.length ≤ b) :
    Table.get (memPut m a bs) memDefault b = Table.get m memDefault b := by
  induction bs generalizing m a with
  | nil => rfl
  | cons c t ih =>
    simp only [List.length_cons] at h
    unfold memPut
    rw [ih _ _ (by omega), Table.get_set_other _ _ _ _ _ _ (by omega)]

/-- A write leaves every byte outside its range as it was. -/
theorem State.byte_writeMem_other (s : State) (a b : Nat) (bs : List Byte) (h : b < a ∨ a + bs.length ≤ b) :
    (s.writeMem a bs).byte b = s.byte b := memPut_get_other s.mem a b bs h

theorem memPut_get_same (m : List Host.Cell) (a i : Nat) (bs : List Byte) (h : i < bs.length) :
    Table.get (memPut m a bs) memDefault (a + i) = bs[i] := by
  induction bs generalizing m a i with
  | nil => simp at h
  | cons c t ih =>
    unfold memPut
    cases i with
    | zero =>
      rw [memPut_get_other _ _ _ _ (by omega), Nat.add_zero, Table.get_set_same]; rfl
    | succ i =>
      have h' : i < t.length := by simpa using h
      have : a + (i + 1) = (a + 1) + i := by omega
      rw [this, ih _ _ _ h']; rfl

/-- A byte that a write stored reads back. -/
theorem State.byte_writeMem_same (s : State) (a i : Nat) (bs : List Byte) (h : i < bs.length) :
    (s.writeMem a bs).byte (a + i) = bs[i] := memPut_get_same s.mem a i bs h

/-- What was written reads back. -/
theorem State.readMem_writeMem (s : State) (a : Nat) (bs : List Byte) : (s.writeMem a bs).readMem a bs.length = bs := by
  have key : ∀ (n k : Nat), k + n = bs.length → (s.writeMem a bs).readMem (a + k) n = bs.drop k := by
    intro n
    induction n with
    | zero => intro k hk; simp [State.readMem, show bs.length ≤ k by omega]
    | succ n ih =>
      intro k hk
      have hlt : k < bs.length := by omega
      unfold State.readMem
      rw [s.byte_writeMem_same a k bs hlt, Nat.add_assoc, ih (k + 1) (by omega), ← List.drop_eq_getElem_cons hlt]
  simpa using key bs.length 0 (by omega)

theorem memPut_wf (m : List Host.Cell) (a : Nat) (bs : List Byte) (h : memWf m = true) : memWf (memPut m a bs) = true := by
  induction bs generalizing m a with
  | nil => exact h
  | cons c t ih => unfold memPut; exact ih _ _ (Table.wf_set _ _ _ _ h)

/-- A write keeps the canonical form of memory. -/
theorem State.memWf_writeMem (s : State) (a : Nat) (bs : List Byte) (h : memWf s.mem = true) : memWf (s.writeMem a bs).mem = true :=
  memPut_wf s.mem a bs h

/-- A zeroed range keeps the canonical form of memory. -/
theorem State.memWf_zeroMem (s : State) (lo hi : Nat) (h : memWf s.mem = true) : memWf (s.zeroMem lo hi).mem = true :=
  Table.wf_cut s.mem memDefault lo hi h

end Sys2Proof.Machine
end

