-- ==== Sys2Proof/Laws/Frame.lean ====
section
/-! SUPPORT. Frames: what an operation leaves unchanged, and how frames of operations in a row join. -/

namespace Sys2Proof.Machine

theorem SameBut.refl (l : List Part) (s : State) : SameBut l s s := ⟨rfl, fun p _ => by cases p <;> rfl⟩

theorem Part.same_trans (p : Part) (s t u : State) (h : p.same s t) (k : p.same t u) : p.same s u := by
  cases p <;> exact Eq.trans k h

theorem SameBut.trans {l : List Part} {s t u : State} (h : SameBut l s t) (k : SameBut l t u) : SameBut l s u :=
  ⟨k.1.trans h.1, fun p hp => Part.same_trans p s t u (h.2 p hp) (k.2 p hp)⟩

theorem SameBut.mono {l m : List Part} {s t : State} (h : SameBut l s t) (hl : ∀ p ∈ l, p ∈ m) : SameBut m s t :=
  ⟨h.1, fun p hp => h.2 p (fun hq => hp (hl p hq))⟩

/-- A fold of updates that each keep the rest keeps the rest. -/
theorem SameBut.foldl {α : Type} {l : List Part} (f : State → α → State) (h : ∀ u a, SameBut l u (f u a)) (s : State) (xs : List α) :
    SameBut l s (xs.foldl f s) := by
  induction xs generalizing s with
  | nil => exact SameBut.refl l s
  | cons a t ih => exact (h s a).trans (ih (f s a))

theorem SameBut.each {α : Type} {l : List Part} (f : State → α → State) (h : ∀ u a, SameBut l u (f u a)) (s : State) (xs : List α) :
    SameBut l s (s.each xs f) := SameBut.foldl f h s xs

theorem SameBut.when {l : List Part} {s : State} (c : Bool) (f : State → State) (h : SameBut l s (f s)) : SameBut l s (s.when c f) := by
  unfold State.when; split
  · exact h
  · exact SameBut.refl l s

theorem SameBut.ite {l : List Part} {s t u : State} (c : Prop) [Decidable c] (h : SameBut l s t) (k : SameBut l s u) :
    SameBut l s (if c then t else u) := by split <;> assumption

/-- An operation that changes only parts of the list comes after others that do. -/
theorem SameBut.after {l m : List Part} {s u t : State} (k : SameBut m u t) (hm : ∀ p ∈ m, p ∈ l) (h : SameBut l s u) : SameBut l s t :=
  h.trans (k.mono hm)

theorem SameBut.upd {l : List Part} {s u t : State} (h : SameBut l s u) (k : SameBut l u t) : SameBut l s t := h.trans k

/-- The same for a state written out by its fields. -/
theorem SameBut.updMk {l : List Part} {s u : State} {a0 a1 a2 a3 a4 a5 a6 a7 a8 a9 a10 a11 a12 a13 a14 a15 a16 a17 a18 a19 a20 a21 a22 a23 a24 a25 a26 a27 a28 a29 a30 a31 a32 a33 a34}
    (hq : a0 = u.pending)
    (k : ∀ p, p ∉ l → Part.same p u (State.mk a0 a1 a2 a3 a4 a5 a6 a7 a8 a9 a10 a11 a12 a13 a14 a15 a16 a17 a18 a19 a20 a21 a22 a23 a24 a25 a26 a27 a28 a29 a30 a31 a32 a33 a34))
    (h : SameBut l s u) :
    SameBut l s (State.mk a0 a1 a2 a3 a4 a5 a6 a7 a8 a9 a10 a11 a12 a13 a14 a15 a16 a17 a18 a19 a20 a21 a22 a23 a24 a25 a26 a27 a28 a29 a30 a31 a32 a33 a34) := h.trans ⟨hq, k⟩

theorem SameBut.ite1 {β : Type} {l : List Part} {s : State} {t u : State × β} (c : Prop) [Decidable c] (h : SameBut l s t.1)
    (k : SameBut l s u.1) : SameBut l s (if c then t else u).1 := by split <;> assumption

theorem SameBut.upd2 {l : List Part} {s u t : State} (k : SameBut l u t) (h : SameBut l s u) : SameBut l s t := h.trans k

theorem SameBut.afterWhen {l : List Part} {s u : State} {c : Bool} {f : State → State} (h : SameBut l s u) (k : SameBut l u (f u)) :
    SameBut l s (u.when c f) := h.trans (SameBut.when c f k)

theorem SameBut.afterFoldl {α : Type} {l : List Part} {s u : State} {f : State → α → State} {xs : List α} (h : SameBut l s u)
    (k : ∀ v a, SameBut l v (f v a)) : SameBut l s (xs.foldl f u) := h.trans (SameBut.foldl f k u xs)

theorem SameBut.afterFoldl1 {α β : Type} {l : List Part} {s : State} {u : State × β} {f : State × β → α → State × β} {xs : List α}
    (h : SameBut l s u.1) (k : ∀ v a, SameBut l v.1 (f v a).1) : SameBut l s (xs.foldl f u).1 := by
  induction xs generalizing u with
  | nil => exact h
  | cons a t ih => exact ih (h.trans (k u a))

theorem SameBut.afterFoldl2 {α β : Type} {l : List Part} {s : State} {u : β × State} {f : β × State → α → β × State} {xs : List α}
    (h : SameBut l s u.2) (k : ∀ v a, SameBut l v.2 (f v a).2) : SameBut l s (xs.foldl f u).2 := by
  induction xs generalizing u with
  | nil => exact h
  | cons a t ih => exact ih (h.trans (k u a))

theorem SameBut.afterEach {α : Type} {l : List Part} {s u : State} {f : State → α → State} {xs : List α} (h : SameBut l s u)
    (k : ∀ v a, SameBut l v (f v a)) : SameBut l s (u.each xs f) := h.trans (SameBut.each f k u xs)

theorem SameBut.live {l : List Part} {s t : State} (h : SameBut l s t) : SameBut l s (s.live t) := by
  unfold State.live; split
  · exact SameBut.refl l s
  · exact h

/-- A next state differs only in the parts of the list. -/
def NextBut (l : List Part) (s : State) (r : Host.Outcome State Fault Refusal) : Prop := ∀ t, r = .next t → SameBut l s t

theorem NextBut.next {l : List Part} {s t : State} (h : SameBut l s t) : NextBut l s (.next t) := by
  intro u hu; cases hu; exact h

/-! ### One part at a time -/

theorem SameBut.setReg64 (s : State) (r : Reg) (v : Nat) : SameBut [.regs] s (s.setReg64 r v) :=
  ⟨rfl, fun p hp => by cases p <;> first | rfl | exact absurd (by decide) hp⟩

theorem SameBut.wr (s : State) (f : FRef) (v : Nat) : SameBut [.regs] s (s.wr f v) := SameBut.setReg64 s _ _

theorem SameBut.satAdd (s : State) (f : FRef) (v : Nat) : SameBut [.regs] s (s.satAdd f v) := SameBut.wr s _ _

theorem SameBut.wrapAdd (s : State) (f : FRef) (v : Nat) : SameBut [.regs] s (s.wrapAdd f v) := SameBut.wr s _ _

theorem SameBut.writeMem (s : State) (a : Nat) (bs : List Byte) : SameBut [.mem] s (s.writeMem a bs) :=
  ⟨rfl, fun p hp => by cases p <;> first | rfl | exact absurd (by decide) hp⟩

theorem SameBut.setBus (s : State) (b : BusReply) : SameBut [.bus] s { s with bus := b } :=
  ⟨rfl, fun p hp => by cases p <;> first | rfl | exact absurd (by decide) hp⟩

theorem SameBut.setFcu (s : State) (x : FcuHid) : SameBut [.fcu] s { s with fcu := x } :=
  ⟨rfl, fun p hp => by cases p <;> first | rfl | exact absurd (by decide) hp⟩

theorem SameBut.setPinsFcu (s : State) (x : Pins) (y : FcuHid) : SameBut [.pins, .fcu] s { s with pins := x, fcu := y } :=
  ⟨rfl, fun p hp => by cases p <;> first | rfl | exact absurd (by decide) hp⟩

theorem SameBut.setProc (s : State) (x : Proc) : SameBut [.proc] s { s with proc := x } :=
  ⟨rfl, fun p hp => by cases p <;> first | rfl | exact absurd (by decide) hp⟩

end Sys2Proof.Machine
end

