-- ==== Sys2Proof/Laws/Raise.lean ====
section
/-! SUPPORT. What one event does at the FCU (11_fault_collection R266-R276): the source is set, and only the FCU, the ALIVE_OUT ball and
the events held by a Drill step change. -/

namespace Sys2Proof.Machine

theorem State.live_awake (s t : State) (h : s.Awake) : s.live t = t := by
  unfold State.Awake at h; simp [State.live, h]

/-! ### Frames -/

theorem State.stopAlive_parts (s : State) : SameBut eventParts s s.stopAlive := by
  unfold State.stopAlive
  exact ((SameBut.wr ..).mono (by decide)).trans ((SameBut.setPinsFcu _ _ _).mono (by decide))

theorem State.logEvent_parts (s : State) (n c : Nat) (p e : Bool) : SameBut eventParts s (s.logEvent n c p e) := by
  unfold State.logEvent
  split
  · exact (SameBut.satAdd ..).mono (by decide)
  · dsimp only
    refine SameBut.trans ?_ (SameBut.when _ _ ((SameBut.wr ..).mono (by decide)))
    refine SameBut.trans ?_ (SameBut.when _ _ ((SameBut.wrapAdd ..).mono (by decide)))
    exact ((SameBut.setReg64 ..).trans (SameBut.wr ..)).mono (by decide)

theorem State.react_parts (s : State) (n c : Nat) : SameBut eventParts s (s.react n c) := by
  unfold State.react
  dsimp only
  refine SameBut.trans ?_ (SameBut.when _ _ (State.stopAlive_parts _))
  refine SameBut.trans ((SameBut.setFcu s _).mono (by decide)) (SameBut.when _ _ ?_)
  exact SameBut.ite _ ((SameBut.wr _ _ _).mono (by decide))
    ((((SameBut.wr _ _ _).trans (SameBut.wr _ _ _)).trans (SameBut.wr _ _ _)).mono (by decide))

theorem State.countEvent_parts (s : State) (n : Nat) : SameBut eventParts s (s.countEvent n).1 := by
  unfold State.countEvent
  dsimp only
  have h1 : SameBut eventParts s (s.when (s.on (FCU_SRC_STATE.PROMOTE n)) (fun t => t.wr (FCU_SRC_STATE.PROMOTE n) 0)) :=
    SameBut.when _ _ ((SameBut.wr ..).mono (by decide))
  generalize hq : s.when (s.on (FCU_SRC_STATE.PROMOTE n)) (fun t => t.wr (FCU_SRC_STATE.PROMOTE n) 0) = q at h1 ⊢
  split
  · exact h1
  · have h2 : ∀ (c : Bool), SameBut eventParts q (q.when c (fun t =>
        { t.wr (FCU_SRC_STATE.WIN_COUNT n) 0 with fcu := { (t.wr (FCU_SRC_STATE.WIN_COUNT n) 0).fcu with
            winStart := Table.set (t.wr (FCU_SRC_STATE.WIN_COUNT n) 0).fcu.winStart 0 n (t.wr (FCU_SRC_STATE.WIN_COUNT n) 0).nowMs } })) :=
      fun c => SameBut.when _ _ (((SameBut.wr ..).mono (by decide)).trans ((SameBut.setFcu _ _).mono (by decide)))
    split
    · exact (h1.trans (h2 _)).trans (((SameBut.wr ..).trans (SameBut.wr ..)).mono (by decide))
    · exact (h1.trans (h2 _)).trans ((SameBut.wr ..).mono (by decide))

theorem State.takeEvent_parts (s : State) (n : Nat) : SameBut eventParts s (s.takeEvent n) := by
  unfold State.takeEvent
  split
  · exact SameBut.refl _ _
  · dsimp only
    refine SameBut.trans ?_ (State.react_parts ..)
    refine SameBut.trans ?_ (State.logEvent_parts ..)
    refine (State.countEvent_parts s n).trans ?_
    exact ((((SameBut.wr ..).trans (SameBut.wr ..)).trans (SameBut.wr ..)).trans (SameBut.satAdd ..)).mono (by decide)

/-- One event changes nothing but the FCU's registers and reactions, ALIVE_OUT and the events held. -/
theorem State.raise_parts (s : State) (n : Nat) : SameBut eventParts s (s.raise n) := by
  unfold State.raise
  split
  · exact (SameBut.setProc _ _).mono (by decide)
  · exact s.takeEvent_parts n

theorem State.assertSrc_parts (s : State) (n : Nat) : SameBut eventParts s (s.assertSrc n) := by
  unfold State.assertSrc
  split
  · exact SameBut.refl _ _
  · exact ((SameBut.wr ..).mono (by decide)).trans (State.raise_parts _ _)

theorem State.deassertSrc_parts (s : State) (n : Nat) : SameBut eventParts s (s.deassertSrc n) :=
  (SameBut.wr ..).mono (by decide)

/-! ### The registers that the log and the reactions leave alone -/

/-- An address of the FCU's status and acknowledgement words. -/
def inStatus (a : Nat) : Prop := 0x10000100 ≤ a ∧ a < 0x10000240

theorem State.logEvent_status (s : State) (n c : Nat) (p e : Bool) (r : Reg) (h : inStatus r.addr) :
    (s.logEvent n c p e).reg64 r = s.reg64 r := by
  unfold inStatus at h
  unfold State.logEvent
  have hlog : ∀ i, (FCU_LOG i).addr ≠ r.addr := by intro i; show 0x10008000 + _ ≠ _; omega
  have hptr : FCU_LOG_PTR.addr ≠ r.addr := by show 0x10000010 ≠ _; omega
  have w : ∀ (u : State) (f : FRef) (v : Nat), f.reg.addr ≠ r.addr → (u.wr f v).reg64 r = u.reg64 r :=
    fun u f v hf => State.reg64_wr_other u f r v (Ne.symm hf)
  split
  · exact w _ _ _ hptr
  · dsimp only
    have step : ∀ (u : State) (b : Bool) (f : State → State), (∀ x, (f x).reg64 r = x.reg64 r) → (u.when b f).reg64 r = u.reg64 r := by
      intro u b f hf; unfold State.when; split
      · exact hf u
      · rfl
    have h1 : ∀ x : State, (x.wrapAdd FCU_LOG_PTR.LAPS 1).reg64 r = x.reg64 r := fun x => w x FCU_LOG_PTR.LAPS _ hptr
    have h2 : ∀ x : State, (x.wr FCU_LOG_PTR.FROZEN 1).reg64 r = x.reg64 r := fun x => w x FCU_LOG_PTR.FROZEN _ hptr
    rw [step _ _ _ h2, step _ _ _ h1, w _ _ _ hptr, State.reg64_setReg64_other _ _ _ _ (Ne.symm (hlog _))]

theorem State.react_status (s : State) (n c : Nat) (r : Reg) (h : inStatus r.addr) : (s.react n c).reg64 r = s.reg64 r := by
  unfold inStatus at h
  have hsum : FCU_SUMMARY.addr ≠ r.addr := by show 0x10000008 ≠ _; omega
  have w : ∀ (u : State) (f : FRef) (v : Nat), f.reg.addr ≠ r.addr → (u.wr f v).reg64 r = u.reg64 r :=
    fun u f v hf => State.reg64_wr_other u f r v (Ne.symm hf)
  have step : ∀ (u : State) (b : Bool) (f : State → State), (∀ x, (f x).reg64 r = x.reg64 r) → (u.when b f).reg64 r = u.reg64 r := by
    intro u b f hf; unfold State.when; split
    · exact hf u
    · rfl
  unfold State.react
  dsimp only
  rw [step]
  · rw [step]
    · rfl
    · intro x
      split
      · exact w _ _ _ hsum
      · rw [w _ _ _ hsum, w _ _ _ hsum, w _ _ _ hsum]
  · intro x
    unfold State.stopAlive
    exact w x _ _ hsum

theorem State.rd_of_reg64 (s t : State) (f : FRef) (h : t.reg64 f.reg = s.reg64 f.reg) : t.rd f = s.rd f := by
  unfold State.rd; rw [h]

theorem srcReset_small (n : Nat) (h : (srcReset n).isNone = false) : n < 512 := by
  by_contra hn
  have : srcReset n = none := by unfold srcReset; simp [show 0x200 ≤ n by omega]
  simp [this] at h

/-- An event of a source that exists sets it, unacknowledged. -/
theorem State.takeEvent_raised (s : State) (n : Nat) (h : (srcReset n).isNone = false) : (s.takeEvent n).Raised n := by
  have hn := srcReset_small n h
  have ha : ∀ k, k = n / 64 → (FCU_SRC_STATUS k).addr = 0x10000100 + n / 64 * 8 := by intro k hk; subst hk; rfl
  have hsr : (stickyRef n).reg.addr = 0x10000100 + n / 64 * 8 := rfl
  have har : (ackRef n).reg.addr = 0x10000200 + n / 64 * 8 := rfl
  have hk : n / 64 < 8 := by omega
  have hin1 : inStatus (stickyRef n).reg.addr := by unfold inStatus; rw [hsr]; omega
  have hin2 : inStatus (ackRef n).reg.addr := by unfold inStatus; rw [har]; omega
  have hj : n % 64 < 64 := Nat.mod_lt _ (by decide)
  have hev : (FCU_SRC_STATE.EVENTS n).reg.addr = 0x10002000 + n * 8 := rfl
  unfold State.takeEvent State.Raised State.on
  simp only [h, Bool.false_eq_true, if_false]
  generalize (s.countEvent n).1.wr _ _ = u
  constructor
  · rw [State.rd_of_reg64 _ _ _ (State.react_status _ _ _ _ hin1), State.rd_of_reg64 _ _ _ (State.logEvent_status _ _ _ _ _ _ hin1)]
    unfold State.satAdd
    rw [State.rd_wr_other _ _ _ _ (by rw [hsr, hev]; omega), State.rd_wr_other _ _ _ _ (by rw [hsr, har]; omega),
      State.rd_wr_same _ _ _ (by exact hj) (by exact Nat.le_refl _)]
    have : (stickyRef n).span = 2 := by unfold FRef.span stickyRef; simp
    rw [this]; decide
  · rw [State.rd_of_reg64 _ _ _ (State.react_status _ _ _ _ hin2), State.rd_of_reg64 _ _ _ (State.logEvent_status _ _ _ _ _ _ hin2)]
    unfold State.satAdd
    rw [State.rd_wr_other _ _ _ _ (by rw [har, hev]; omega), State.rd_wr_same _ _ _ (by exact hj) (by exact Nat.le_refl _)]
    simp

/-- An event of a source that no Drill step has under test sets the source, unacknowledged. -/
theorem State.raise_raised (s : State) (n : Nat) (h : (srcReset n).isNone = false) (hu : s.underTest n = false) :
    (s.raise n).Raised n := by
  unfold State.raise; simp only [hu, Bool.false_eq_true, if_false]; exact s.takeEvent_raised n h

end Sys2Proof.Machine
end

