-- ==== Sys2Proof/Laws/Access.lean ====
section
/-! SUPPORT. What an access to a register and the service of a Mladnel request do where nothing stands against them: the lemmas that a
proof about a command cites in place of unfolding the checks. -/

namespace Sys2Proof.Machine

/-- A write that reaches its register has its effect and is done. -/
theorem State.regWr_reaches {s : State} {w : Initiator} {f : RegFam} {i j : Nat} (h : s.Reaches w f i j true) (k : State → State) :
    s.regWr w f i j k = { k (s.through w f i j) with bus := .done } := by
  obtain ⟨way, up, rights, window, free⟩ := h
  have shut : (!pairChannel (f.reg i j).addr && s.pairShut w.kind (s.sliceOf w) (f.reg i j).addr 8 true) = false := by
    revert window; cases pairChannel (f.reg i j).addr <;> simp
  simp only [State.regWr, State.regAccess, way, up, rights, free, shut, State.through]
  rfl

/-- A read that reaches its register gives the value of the moment and has its effect. -/
theorem State.regRd_reaches {s : State} {w : Initiator} {f : RegFam} {i j : Nat} (h : s.Reaches w f i j false) (v : State → Nat)
    (k : State → State) : s.regRd w f i j v k = { k (s.asked w f i j) with bus := .data (v (s.asked w f i j)) } := by
  obtain ⟨way, up, rights, window, free⟩ := h
  have shut : (!pairChannel (f.reg i j).addr && s.pairShut w.kind (s.sliceOf w) (f.reg i j).addr 8 false) = false := by
    revert window; cases pairChannel (f.reg i j).addr <;> simp
  simp only [State.regRd, State.regAccess, way, up, rights, free, shut, State.asked]
  rfl

/-- A slice's use of its quota changes the slice alone. -/
theorem State.useQuota_parts (s : State) (o : Option Nat) (d : Nat) (l : List (Nat × Nat)) : SameBut [.slices] s (s.useQuota o d l) := by
  unfold State.useQuota
  split
  · exact SameBut.refl _ _
  · dsimp only
    split
    · exact ⟨rfl, fun p hp => by cases p <;> first | rfl | exact absurd (by decide) hp⟩
    · exact SameBut.refl _ _

/-- A read on its way changes the quota of its slice alone. -/
theorem State.asked_parts (s : State) (w : Initiator) (f : RegFam) (i j : Nat) : SameBut [.slices] s (s.asked w f i j) :=
  State.useQuota_parts _ _ _ _

/-- A posted write changes the count of its Die Bridge alone. -/
theorem State.countCross_parts (s : State) (d a : Nat) : SameBut [.bridges] s (s.countCross d a) := by
  unfold State.countCross
  split
  · exact ⟨rfl, fun p hp => by cases p <;> first | rfl | exact absurd (by decide) hp⟩
  · exact SameBut.refl _ _

/-- A write on its way changes the quota of its slice and the count of its Die Bridge alone. -/
theorem State.through_parts (s : State) (w : Initiator) (f : RegFam) (i j : Nat) : SameBut [.bridges, .slices] s (s.through w f i j) :=
  SameBut.trans ((State.useQuota_parts _ _ _ _).mono (by decide)) ((State.countCross_parts _ _ _).mono (by decide))

/-- A reply buffer that can be written leaves the state as it was. -/
theorem State.bufferOk_fst {s : State} {c : Ctx} {h : List Byte} {need : Bool} (k : (s.bufferOk c h need).2 = true) :
    (s.bufferOk c h need).1 = s := by
  revert k
  unfold State.bufferOk
  split
  · exact fun _ => rfl
  · split <;> simp

/-- The answer to a request that is due: what its opcode does, then the reply unless it comes later. -/
theorem State.serve_due {s u : State} {i op : Nat} {r : Req} {bs : List Byte} (h : s.Due i op r u bs)
    (run : State → Req → List Byte → Answer) :
    s.serve i op run = (if (run u r bs).later then (run u r bs).st
      else (run u r bs).st.reply i (s.ctx r.who) r.header (run u r bs).status (run u r bs).arg (run u r bs).payload) := by
  obtain ⟨-, up, early, hello, rest, taken, waits, buffer, payload⟩ := h
  have same := State.bufferOk_fst buffer
  have free : (hLen r.header ≠ 0 ∧ (s.setMb i { s.mb i with taken := rest }).ctxWaits (s.ctx r.who) (hAddr r.header) (hLen r.header) false = true) = False := by
    rcases waits with w | w <;> simp [w]
  have who : (s.setMb i { s.mb i with taken := rest }).ctx r.who = s.ctx r.who := rfl
  have head : ¬ (decide (op = 1) && !headerOk i r.header helloInfo) = true := by
    simp only [Bool.and_eq_true, decide_eq_true_eq, Bool.not_eq_true', not_and]
    exact fun k => by simp [hello k]
  unfold State.serve
  simp only [up, early, taken, who, Bool.not_true, Bool.false_eq_true, if_false]
  rw [if_neg head, if_neg (by simpa using free)]
  erw [buffer, same, payload]
  rfl

end Sys2Proof.Machine
end

