-- ==== Sys2Proof/WellFormed.lean ====
section
/-! DEFINITION. Which commands are well formed: operands that name something the device has. A command that is not well
formed stands for nothing outside; the meanings are total and give it an effect all the same. -/

namespace Sys2Proof

/-- R278: an initiator ID that exists. -/
def Initiator.wf (w : Initiator) : Bool :=
  match w.kind with
  | .apc => w.index < 24
  | .seat => w.index < 1024
  | .ccc => w.index < 16
  | .fw => w.index < 4
  | .pcie => w.index < 8
  | .hubUnit => w.index < 16
  | .pair => w.index = 0
  | .debug => w.index = 0

/-- R15: a register access is 32 or 64 bits wide; other widths are accesses that fail the width check, so they stand too, up
to 64 bytes. -/
def WriteTarget.wf : WriteTarget → Bool
  | .mem _ n => 1 ≤ n && n ≤ 64
  | .apcProcId _ => true

/-- A memory access moves at least one byte and at most 4 KiB. -/
def MemOp.wf : MemOp → Bool
  | .read n _ => 1 ≤ n && n ≤ 4096
  | .write bs => 1 ≤ bs.length && bs.length ≤ 4096
  | .loadReserved n => n = 4 || n = 8
  | .storeCond bs => bs.length = 4 || bs.length = 8
  | .atomic _ bs => bs.length = 4 || bs.length = 8

/-- R107: bank and row of a failing row. -/
def RowFailure.wf (f : RowFailure) : Bool := f.bank < 64 && f.row < 8192

/-- R245: the instances of a Drill unit. -/
def DrillUnit.count : DrillUnit → Nat
  | .core => 128 | .locker => 128 | .slate => 16 | .compare => 1 | .fcu => 1 | .roll => 1

/-- R361, R351: a CAN frame's identifier and length. -/
def CanFrame.wf (f : CanFrame) : Bool :=
  (if f.ide then f.ident < 2 ^ 29 else f.ident < 2 ^ 11)
    && (if f.xlf then 1 ≤ f.data.length && f.data.length ≤ 2048 else if f.fdf then f.data.length ≤ 64 else f.data.length ≤ 8)

/-- R364, R359: a Classification Table entry is 32 bytes; a queue setting names a network queue, and a shaper an Ethernet queue. -/
def GatewayContent.wf (c : GatewayContent) : Bool :=
  c.entries.all (fun e => e.length = 32) && c.queues.all (fun q => q.queue < 32768)
    && c.acts.slopes.all (fun p => 32768 ≤ p.1 && p.1 < 32880)

/-- R257, R258: Rubric records are 32 bytes. -/
def RubricContent.wf (c : RubricContent) : Bool :=
  c.signals.all (fun r => r.length = 32) && c.checks.all (fun r => r.length = 32)

/-- The operands of the command name things that exist. -/
def WellFormed : Instr → Bool
  | .registerWrite who t _ => who.wf && t.wf
  | .memoryAccess who _ op => who.wf && op.wf
  | .thermalSample ts => ts.length = 68
  | .marchRowGroupEnd _ fs => fs.all RowFailure.wf
  | .drillStepStart u i => i < u.count
  | .drillStepEnd u i _ => i < u.count
  | .drillIntervalEnd u i => i < u.count
  | .gatewayImageLoad (.good _ c) => c.wf
  | .rubricLoad _ _ c => c.wf
  | .bootLessonLoad (.rubric c _ q) => c.wf && q < 8192
  | .bridgeLockRequest _ who _ _ => who.wf
  | .postedWriteError _ who _ _ _ => who.wf
  | .pairInboundAccess _ op => op.wf
  | .pairOutboundAccess who _ op => who.wf && op.wf
  | .ethFrameReceive _ f _ => 14 ≤ f.bytes.length && f.bytes.length ≤ 9216
  | .canFrameReceive _ f _ => f.wf
  | _ => true

end Sys2Proof
end

