-- ==== Sys2Proof/Tests/Slice0.lean ====
section
/-! SUPPORT. Own tests: ill-formed commands that WellFormed refuses, worked cases from the chapters, and for the statements with
hypotheses a concrete state and operands that meet them together. -/

namespace Sys2Proof.Tests

set_option Elab.async false

open Sys2Proof.Machine

/-! ### Small states -/

/-- Reset released, both compute dies up, every die link trained. -/
def up : State :=
  { State.reset with
    boot := { Boot.held with inReset := false }
    pwr := { Pwr.start with linksUp := 7 }
    dies := [(0, { Die.zero with powered := true, filled := true }), (1, { Die.zero with powered := true, filled := true })] }

/-- The firmware processors run. -/
def run : State :=
  (((up.wr MLMB_FW_STATE.PMC 1).wr MLMB_FW_STATE.REGISTRAR 1).wr MLMB_FW_STATE.PROCTOR 1).wr SEC_STATE.SC_STATE 1

/-- Seat 0 runs with a share of 64 KiB and one descriptor in it. -/
def seat0 (ws : List Nat) : State :=
  (((up.setCcc 0 1).wr (CLC_SEAT_STATE.STATE 0 0) 3).wr (CLC_SEAT_SHARE.SIZE_4K 0 0) 16).writeMem lockerBase (ws.flatMap (leBytes 8))

def secCoreFw : Initiator := ⟨.fw, 0, 0⟩
def pmcFw : Initiator := ⟨.fw, 1, 0⟩
def registrarFw : Initiator := ⟨.fw, 2, 0⟩
def proctorFw : Initiator := ⟨.fw, 3, 0⟩

/-! ### WellFormed: one ill-formed command for each check -/

def goodVerdict : StdVerdict := ⟨true, false, false, false, []⟩
def canOf (ident : Nat) (ide fdf xlf : Bool) (n : Nat) : CanFrame :=
  ⟨ident, ide, fdf, false, xlf, 0#8, 0#8, 0#32, List.replicate n 0#8⟩
def content (entries : List (List Byte)) (queues : List GwQueue) : GatewayContent :=
  ⟨entries, [], [], queues, [], [], ⟨[], [], []⟩, ⟨false, false, []⟩⟩

theorem test_wf_apc : WellFormed (.registerWrite ⟨.apc, 24, 0⟩ (.mem 0#48 8) 0#64) = false := by decide
theorem test_wf_seat : WellFormed (.registerWrite ⟨.seat, 1024, 0⟩ (.mem 0#48 8) 0#64) = false := by decide
theorem test_wf_ccc : WellFormed (.registerWrite ⟨.ccc, 16, 0⟩ (.mem 0#48 8) 0#64) = false := by decide
theorem test_wf_fw : WellFormed (.registerWrite ⟨.fw, 4, 0⟩ (.mem 0#48 8) 0#64) = false := by decide
theorem test_wf_pcie : WellFormed (.registerWrite ⟨.pcie, 8, 0⟩ (.mem 0#48 8) 0#64) = false := by decide
theorem test_wf_hub : WellFormed (.registerWrite ⟨.hubUnit, 16, 0⟩ (.mem 0#48 8) 0#64) = false := by decide
theorem test_wf_pair : WellFormed (.registerWrite ⟨.pair, 1, 0⟩ (.mem 0#48 8) 0#64) = false := by decide
theorem test_wf_debug : WellFormed (.registerWrite ⟨.debug, 1, 0⟩ (.mem 0#48 8) 0#64) = false := by decide
theorem test_wf_width : WellFormed (.registerWrite ⟨.fw, 0, 0⟩ (.mem 0#48 65) 0#64) = false := by decide
theorem test_wf_register_good : WellFormed (.registerWrite ⟨.fw, 3, 0⟩ (.mem 0#48 8) 0#64) = true := by decide
theorem test_wf_access_who : WellFormed (.memoryAccess ⟨.apc, 24, 0⟩ 0#48 (.read 8 false)) = false := by decide
theorem test_wf_access_none : WellFormed (.memoryAccess ⟨.apc, 0, 0⟩ 0#48 (.read 0 false)) = false := by decide
theorem test_wf_access_long : WellFormed (.memoryAccess ⟨.apc, 0, 0⟩ 0#48 (.read 4097 false)) = false := by decide
theorem test_wf_access_empty : WellFormed (.memoryAccess ⟨.apc, 0, 0⟩ 0#48 (.write [])) = false := by decide
theorem test_wf_access_good : WellFormed (.memoryAccess ⟨.apc, 23, 0⟩ 0#48 (.read 4096 false)) = true := by decide
theorem test_wf_reserved : WellFormed (.memoryAccess ⟨.apc, 0, 0⟩ 0#48 (.loadReserved 16)) = false := by decide
theorem test_wf_conditional : WellFormed (.memoryAccess ⟨.apc, 0, 0⟩ 0#48 (.storeCond [0#8])) = false := by decide
theorem test_wf_atomic : WellFormed (.memoryAccess ⟨.apc, 0, 0⟩ 0#48 (.atomic .add [0#8])) = false := by decide
theorem test_wf_thermal : WellFormed (.thermalSample [25]) = false := by decide
theorem test_wf_march_bank : WellFormed (.marchRowGroupEnd 0 [⟨64, 0⟩]) = false := by decide
theorem test_wf_march_row : WellFormed (.marchRowGroupEnd 0 [⟨0, 8192⟩]) = false := by decide
theorem test_wf_march_good : WellFormed (.marchRowGroupEnd 0 [⟨63, 8191⟩]) = true := by decide
theorem test_wf_drill_start : WellFormed (.drillStepStart .core 128) = false := by decide
theorem test_wf_drill_end : WellFormed (.drillStepEnd .slate 16 true) = false := by decide
theorem test_wf_drill_interval : WellFormed (.drillIntervalEnd .fcu 1) = false := by decide
theorem test_wf_gateway_entry : WellFormed (.gatewayImageLoad (.good .viforik (content [[0#8]] []))) = false := by decide
theorem test_wf_gateway_queue :
    WellFormed (.gatewayImageLoad (.good .viforik (content [] [⟨32768, 0, 1, true⟩]))) = false := by decide
theorem test_wf_rubric : WellFormed (.rubricLoad 0 .viforik ⟨[[0#8]], [], true⟩) = false := by decide
theorem test_wf_rubric_check : WellFormed (.rubricLoad 0 .viforik ⟨[], [[0#8]], true⟩) = false := by decide
theorem test_wf_boot_rubric_queue : WellFormed (.bootLessonLoad (.rubric ⟨[], [], true⟩ .viforik 8192)) = false := by decide
theorem test_wf_boot_rubric_record : WellFormed (.bootLessonLoad (.rubric ⟨[[0#8]], [], true⟩ .viforik 0)) = false := by decide
theorem test_wf_lock : WellFormed (.bridgeLockRequest 0 ⟨.apc, 24, 0⟩ 0#48 none) = false := by decide
theorem test_wf_posted : WellFormed (.postedWriteError 0 ⟨.apc, 24, 0⟩ 0#48 0#8 0) = false := by decide
theorem test_wf_pair_inbound : WellFormed (.pairInboundAccess 0#48 (.read 0 false)) = false := by decide
theorem test_wf_pair_outbound : WellFormed (.pairOutboundAccess ⟨.apc, 24, 0⟩ 0#48 (.read 8 false)) = false := by decide
theorem test_wf_pair_outbound_none : WellFormed (.pairOutboundAccess ⟨.apc, 0, 0⟩ 0#48 (.write [])) = false := by decide
theorem test_wf_eth_short : WellFormed (.ethFrameReceive 0 ⟨List.replicate 13 0#8, true⟩ goodVerdict) = false := by decide
theorem test_wf_can_ident : WellFormed (.canFrameReceive 0 (canOf 2048 false false false 8) goodVerdict) = false := by decide
theorem test_wf_can_ide : WellFormed (.canFrameReceive 0 (canOf 0x20000000 true false false 8) goodVerdict) = false := by decide
theorem test_wf_can_length : WellFormed (.canFrameReceive 0 (canOf 0 false false false 9) goodVerdict) = false := by decide
theorem test_wf_can_fd_length : WellFormed (.canFrameReceive 0 (canOf 0 false true false 65) goodVerdict) = false := by decide
theorem test_wf_can_xl_length : WellFormed (.canFrameReceive 0 (canOf 0 false false true 0) goodVerdict) = false := by decide
theorem test_wf_can_good : WellFormed (.canFrameReceive 0 (canOf 2047 false true false 64) goodVerdict) = true := by decide

/-! ### Tensor core: witnesses -/

def tensor (b c s1 s2 : Nat) : Nat := b + c * 2 ^ 21 + s1 * 2 ^ 26 + s2 * 2 ^ 45
def mmaD (op : Nat) : List Nat :=
  [1 + op * 16, tensor 0x1000 0 64 0, tensor 0x2000 0 64 0, tensor 0x3000 16 64 0, 0, if op = 1 then 0x4000 * 2 ^ 42 else 0, 12353, 16]
def convD (op : Nat) : List Nat :=
  [2 + op * 16, tensor 0x1000 0 64 64, tensor 0x2000 0 64 (if op = 3 then 0x2000 else 0), tensor 0x3000 16 64 64, 0, 0, 0,
   (if op = 2 then 0 else 3 * 2 ^ 18) + 16 * 2 ^ 32]
def poolD (op : Nat) : List Nat := [3 + op * 16, tensor 0x1000 0 64 64, tensor 0x3000 0 64 64, 0, 0, 0, 0, 0]
def vecD (op : Nat) : List Nat :=
  [4 + op * 16, tensor 0x1000 14 64 0, if op ≤ 4 ∨ op = 10 then tensor 0x1100 14 0 0 else 0,
   if op = 2 ∨ op = 10 then tensor 0x1200 14 0 0 else 0, tensor 0x3000 14 64 0, 3 + 14 * 2 ^ 32, 0, 0]
def decodeD (op : Nat) : List Nat :=
  [5 + op * 16, tensor 0x1000 0 64 0, tensor 0x2000 0 64 0, tensor 0x3000 0 64 0, tensor 0x5000 0 32 0, 0,
   if op = 0 then 0 else 0x3F8000003F800000, 0x3F8000003F800000]
def suppressD (op : Nat) : List Nat :=
  [6 + op * 16, tensor 0x5000 0 32 0, tensor 0x2000 0 0 0, tensor 0x3000 0 0 0, 0, 0x3F00000000000000, 0, 0]
def moveD (op : Nat) : List Nat :=
  [op * 16, if op = 2 then 0 else 0x1000, 0x2000, 7 + 65536, if op = 2 then 0 else 64, 64, if op = 1 then 0x3000 else 0,
   if op = 2 then 0xAB else 0]
/-- NOP, FENCE and LINK to 0x2000. -/
def plainD (op : Nat) : List Nat := [7 + op * 16, 0, 0, if op = 4 then 0x80 else 0, 0, 0, 0, 0]
/-- SEM_WAIT on semaphore 255 for at least `v`. -/
def waitD (v : Nat) : List Nat := [0x27, 255 + 10 * 2 ^ 32, v, 0, 0, 0, 0, 0]
/-- BARRIER 5 of Seats `m`. -/
def barrierD (m : Nat) : List Nat := [0x17, 5 + m * 256 + 10 * 2 ^ 32, 0, 0, 0, 0, 0, 0]
def signalD : List Nat := [0x37, 5, 9, 0, 0, 0, 0, 0]

/-- A Lesson placed on Seats 0 and 1 with synchronisation block 0, and a job on Seat 0. -/
def lessonOf (im : List Byte) (pl : List StagePlace) : Lesson :=
  { slice := 0, id := 7, image := im, cls := 1, degradable := false, digest := [], places := pl, seatCrc := [], regionCrc := []
    queueFirst := 8192, cqFirst := 40960, order := 0, quizPeriod := 33333, quizPhase := 0, quizDefer := 8, quizPending := false
    quizSince := 0, quizOverdue := false, quizFailed := false, quizSeats := [], quizLast := none, releasing := false
    releaseMb := none }
def jobOf : Job :=
  { gen := 1, state := 2, status := 0, slice := 0, lesson := 7, origLesson := 7, jobRef := 0, flags := 0, deadline := 0, arm := 0
    args := [], queue := 8192, index := 0, cq := 40960, cls := 1, intake := 0, group := some 0, seats := [(0, 0)]
    firstIssue := none, boosted := false, fbUnavail := false, late := false, voltage := false, rerun := false, reruns := 0
    degraded := false, usedFallback := false, sigEqual := true, origStopped := false, fb := none, entries := [], home := none
    sigOut := 0#64, endTime := 0, armed := false, passedArm := false, discard := false, tile := none }
def syncAt (ws : List Nat) : State :=
  let s := ((seat0 ws).setLesson 7 (lessonOf [] [⟨0, 0, 0, [0, 1], 0, 0, some 0⟩])).setJob 5 jobOf
  s.setSeat 0 { s.seat 0 with job := some ⟨false, 5, false, 0⟩ }
/-- Seat 8 waits for semaphore 5 to reach 9, or at barrier 5. -/
def withWaiter (s : State) (w : Wait) : State :=
  s.setSeat 8 { SeatX.zero with job := some ⟨false, 5, false, 0⟩, wait := some w }
def semWaiter : State := withWaiter (syncAt signalD) ⟨false, 5, 0, 0, 9, 0, 10, false⟩
def lastAtBarrier : State := withWaiter (syncAt (barrierD 3)) ⟨true, 5, 3, 0, 0, 0, 10, false⟩
def blocked (sat : Bool) : State :=
  { ((syncAt (waitD 3)).setSeat 0 { (syncAt (waitD 3)).seat 0 with
    wait := some ⟨false, 255, 0, 0, 3, 0, 10, sat⟩, flight := [syncFlight (waitD 3)] }).wr (CLC_SEAT_STATE.STATE 0 0) 4 with clock := ⟨0, 0, true, 10000⟩ }
def readySeat1 (st0 : Nat) : State :=
  let s := ((syncAt (waitD 0)).wr (CLC_SEAT_STATE.STATE 0 1) 2).wr (CLC_SEAT_STATE.STATE 0 0) st0
  s.setCore 0 { s.core 0 with incoming := some 1 }
/-- The last Seat of the last core waits to run a job. -/
def readyLast : State :=
  let s := (((up.setCcc 15 1).setLesson 7 (lessonOf [] [])).setJob 5 { jobOf with seats := [(1023, 0)] }).wr (CLC_SEAT_STATE.STATE 15 63) 2
  s.setSeat 1023 { s.seat 1023 with job := some ⟨false, 5, false, 0⟩ }
def endFlight (e : Nat) : InFlight :=
  ⟨[0x404 + e * 256 + 5 * 65536 + 77 * 2 ^ 32], 0, [], [], [(8 * (lockerBase + 0x1000) + 4, 8, 0xAB)], [1#8, 2#8], 0, 0, none, [],
   false, false⟩
def flying (l : List InFlight) : State := let s := syncAt (waitD 0); s.setSeat 0 { s.seat 0 with flight := l }
def fillFlight (words : List Nat) : InFlight := ⟨words, 2, [], [], [], [], 0, mvTotal words, none, [], false, false⟩
/-- A FILL of 1024 elements under way; `dst` is word 2 of the descriptor. -/
def fillD (dst : Nat) : List Nat := [0x20, 0, dst, 7, 0, 64, 0, 0xAB]
def filling (dst : Nat) : State :=
  let s := syncAt (fillD dst)
  s.setSeat 0 { s.seat 0 with flight := [fillFlight (fillD dst)] }
/-- Seat 0 in slice 0, whose LPDDR5X is being wiped. -/
def fillingDram : State :=
  let s := ((filling (2 ^ 63)).setSlice 0 { Slice.zero with dramSize := 16 }).wr (CLC_SEAT_SHARE.SLICE_VALID 0 0) 1
  { s with sec := { s.sec with dramWipe := some (0, 0x100000) } }

/-- What makes a descriptor ready to issue, for a state that can be computed. -/
theorem atDesc {s : State} {g : Nat} {ws : List Nat}
    (h : s.boot.inReset = false ∧ s.canIssue g = true ∧ s.descWords g = ws ∧ (s.descAt g).2 = true ∧ (s.seat g).ptrOver = false
      ∧ (s.seat g).flight = [] ∧ (s.ecc.ce = [] ∧ s.ecc.ue = []) ∧ bits (wd ws 0) 15 11 = 0)
    (free : ∀ n, (s.cluster n).march.held = none) : s.AtDesc g ws :=
  let ⟨a, b, c, d, e, f, k, r⟩ := h
  ⟨a, b, c, d, e, f, k, free, r⟩

theorem test_mma : ∀ op < 2, (seat0 (mmaD op)).AtDesc 0 (mmaD op) ∧ dClass (mmaD op) = 1 ∧ dOp (mmaD op) = op
    ∧ mmaOk (op = 1) (seat0 (mmaD op)) (mmaD op) = true
    ∧ (seat0 (mmaD op)).Fits 0 (mmaAccRanges (mmaD op) ++ mmaReads (op = 1) (mmaD op)) (mmaWrites (mmaD op)) := by
  intro op h
  interval_cases op <;> exact ⟨atDesc (by decide +kernel) (fun _ => rfl), by unfold State.Fits; decide +kernel⟩

theorem test_conv : ∀ op < 4, (seat0 (convD op)).AtDesc 0 (convD op) ∧ dClass (convD op) = 2 ∧ dOp (convD op) = op
    ∧ convOk op 0 (seat0 (convD op)) (convD op) = true ∧ (seat0 (convD op)).convChainOk 0 (convD op) = true
    ∧ (seat0 (convD op)).Fits 0 (convAccRanges (convD op) ++ convReads op (convD op)) (convWrites (convD op)) := by
  intro op h
  interval_cases op <;> exact ⟨atDesc (by decide +kernel) (fun _ => rfl), by unfold State.Fits; decide +kernel⟩

theorem test_pool : ∀ op < 3, (seat0 (poolD op)).AtDesc 0 (poolD op) ∧ dClass (poolD op) = 3 ∧ dOp (poolD op) = op
    ∧ poolOk 0 (seat0 (poolD op)) (poolD op) = true ∧ (seat0 (poolD op)).Fits 0 (poolReads op (poolD op)) (poolWrites (poolD op)) := by
  intro op h
  interval_cases op <;> exact ⟨atDesc (by decide +kernel) (fun _ => rfl), by unfold State.Fits; decide +kernel⟩

theorem test_vec : ∀ op < 11, (seat0 (vecD op)).AtDesc 0 (vecD op) ∧ dClass (vecD op) = 4 ∧ dOp (vecD op) = op
    ∧ vecOk op (seat0 (vecD op)) (vecD op) = true ∧ (seat0 (vecD op)).Fits 0 (vecReads op (vecD op)) (vecDstRanges op (vecD op)) := by
  intro op h
  interval_cases op <;> exact ⟨atDesc (by decide +kernel) (fun _ => rfl), by unfold State.Fits; decide +kernel⟩

theorem test_decode : ∀ op < 2, (seat0 (decodeD op)).AtDesc 0 (decodeD op) ∧ dClass (decodeD op) = 5 ∧ dOp (decodeD op) = op
    ∧ decodeOk op (seat0 (decodeD op)) (decodeD op) = true
    ∧ (seat0 (decodeD op)).Fits 0 (decodeReads op (decodeD op)) (decodeWrites (decodeD op)) := by
  intro op h
  interval_cases op <;> exact ⟨atDesc (by decide +kernel) (fun _ => rfl), by unfold State.Fits; decide +kernel⟩

theorem test_suppress : ∀ op < 2, (seat0 (suppressD op)).AtDesc 0 (suppressD op) ∧ dClass (suppressD op) = 6 ∧ dOp (suppressD op) = op
    ∧ suppressOk (seat0 (suppressD op)) (suppressD op) = true
    ∧ (seat0 (suppressD op)).Fits 0 (suppressReads (suppressD op)) (suppressWrites (suppressD op)) := by
  intro op h
  interval_cases op <;> exact ⟨atDesc (by decide +kernel) (fun _ => rfl), by unfold State.Fits; decide +kernel⟩

/-- The Seat's first descriptor has FENCE, or the DENSE one that reads from 0x1000 is behind one in flight that writes there, behind a march that
holds what it reads, or has a word with an uncorrectable error there. -/
def fenced : List Nat := (mmaD 0).set 0 ((mmaD 0).getD 0 0 + 2 ^ 8)
def behind (ws : List Nat) (lo : Nat) : State :=
  (seat0 ws).setSeat 0 { (seat0 ws).seat 0 with flight := [⟨mmaD 0, 0, [], [(lockerBase + lo, 4)], [], [], 0, 0, none, [], false, false⟩] }
def marked (ws : List Nat) : State := { seat0 ws with ecc := { (seat0 ws).ecc with ue := [lockerBase + 0x1000] } }
def marchAhead (ws : List Nat) : State :=
  let s := (seat0 ws).wr (CLC_SEAT_SHARE.SIZE_4K 0 0) 32
  s.setCluster 0 { s.cluster 0 with march := { (s.cluster 0).march with held := some (0, 1) } }
/-- It reads from the second row group of 64 KiB. -/
def mmaFar : List Nat := (mmaD 0).set 1 (tensor 0x11000 0 64 0)

theorem atWords {s : State} {g : Nat} {ws : List Nat} (h : s.boot.inReset = false ∧ s.canIssue g = true ∧ s.descWords g = ws
    ∧ (s.descAt g).2 = true ∧ s.anyHeld [((s.descAt g).1, 64)] = false ∧ s.eccRead (s.descAt g).1 64 = (s, true) ∧ bits (wd ws 0) 15 11 = 0) :
    s.AtWords g ws :=
  let ⟨a, b, c, d, e, f, r⟩ := h
  ⟨a, b, c, d, e, f, r⟩

theorem test_fence_waits : (behind fenced 0).AtWords 0 fenced ∧ (dFence fenced || dEnd fenced) = true ∧ ((behind fenced 0).seat 0).flight ≠ []
    ∧ (behind fenced 0).mmaForm 0 fenced (.mmaDense 0) false ∈ (behind fenced 0).computes 0 fenced :=
  ⟨atWords (by decide +kernel), by decide +kernel, by decide +kernel, List.mem_cons_self⟩

theorem test_operands_wait : ∀ p ∈ [(behind (mmaD 0) 0x1000, mmaD 0, true), (marchAhead mmaFar, mmaFar, true), (marked (mmaD 0), mmaD 0, false)],
    p.1.AtWords 0 p.2.1 ∧ (dFence p.2.1 || dEnd p.2.1) = false
    ∧ (p.1.mmaForm 0 p.2.1 (.mmaDense 0) false).ok p.1 p.2.1 = true
    ∧ p.1.Fits 0 (p.1.mmaForm 0 p.2.1 (.mmaDense 0) false).names (p.1.mmaForm 0 p.2.1 (.mmaDense 0) false).writes
    ∧ p.1.mustWait 0 (p.1.mmaForm 0 p.2.1 (.mmaDense 0) false) = p.2.2
    ∧ (p.2.2 = false → ∃ r ∈ p.1.readSpan 0 (p.1.mmaForm 0 p.2.1 (.mmaDense 0) false), ∃ w ∈ p.1.ecc.ue, hits r.1 r.2 w = true) := by
  intro p h
  fin_cases h <;> exact ⟨atWords (by decide +kernel), by unfold State.Fits; decide +kernel⟩

/-- Seat 0 works alone: the job has no fallback beside it. -/
theorem test_lone : ∀ ws, (marked ws).LoneRun 0 := by
  intro ws r j h
  cases h

theorem test_sync_plain : ∀ op ∈ [0, 4, 5], (seat0 (plainD op)).AtDesc 0 (plainD op) ∧ dClass (plainD op) = 7 ∧ dOp (plainD op) = op
    ∧ syncOk op (seat0 (plainD op)) (plainD op) = true := by
  intro op h
  fin_cases h <;> exact ⟨atDesc (by decide +kernel) (fun _ => rfl), by decide +kernel⟩

/-- SEM_WAIT for at least 0 holds, for at least 3 blocks. -/
theorem test_sem_wait : ∀ v ∈ [0, 3], (syncAt (waitD v)).AtDesc 0 (waitD v) ∧ dClass (waitD v) = 7 ∧ dOp (waitD v) = 2
    ∧ (syncAt (waitD v)).syncBlock 0 = some 0 ∧ syncOk 2 (syncAt (waitD v)) (waitD v) = true
    ∧ semHolds (fld (waitD v) 1 17 16) ((syncAt (waitD v)).sem (clusterOf 0) (fld (waitD v) 1 7 0)) (fld (waitD v) 2 31 0) = decide (v = 0) := by
  intro v h
  fin_cases h <;> exact ⟨atDesc (by decide +kernel) (fun _ => rfl), by decide +kernel⟩

/-- The first at the barrier blocks, the last one does not. -/
theorem test_barrier : ∀ p ∈ [(syncAt (barrierD 3), false), (lastAtBarrier, true)], p.1.AtDesc 0 (barrierD 3) ∧ dClass (barrierD 3) = 7
    ∧ dOp (barrierD 3) = 1 ∧ p.1.syncBlock 0 = some 0 ∧ syncOk 1 p.1 (barrierD 3) = true
    ∧ p.1.barrierFull 0 (fld (barrierD 3) 1 7 0) (fld (barrierD 3) 1 15 8) = p.2 := by
  intro p h
  fin_cases h <;> exact ⟨atDesc (by decide +kernel) (fun _ => rfl), by decide +kernel⟩

theorem test_sem_signal : semWaiter.AtDesc 0 signalD ∧ dClass signalD = 7 ∧ semWaiter.syncBlock 0 = some 0 ∧ dOp signalD = 3
    ∧ syncOk 3 semWaiter signalD = true := ⟨atDesc (by decide +kernel) (fun _ => rfl), by decide +kernel⟩

theorem test_blocked : ∀ sat, (blocked sat).Awake ∧ (blocked sat).seatState 0 = 4
    ∧ ((blocked sat).seat 0).wait = some ⟨false, 255, 0, 0, 3, 0, 10, sat⟩ ∧ ((blocked sat).seat 0).flight = [syncFlight (waitD 3)]
    ∧ dClass (waitD 3) = 7 ∧ dEnd (waitD 3) = false ∧ (blocked sat).passed 0 (10 * 1000) = true := by
  unfold State.Awake; decide +kernel

theorem test_preemption : readyLast.Awake ∧ readyLast.mayTake 127 (8 * 127 + 7) = true ∧ readyLast.mayTake 127 (8 * 127 + 6) = false := by
  unfold State.Awake; decide +kernel

/-- The switch ends with the issue path free, and with it taken from Seat 0. -/
theorem test_switch : ∀ p ∈ [(1, none), (3, some 0)], (readySeat1 p.1).Awake ∧ ((readySeat1 p.1).core 0).incoming = some 1
    ∧ (readySeat1 p.1).eligible 1 = true ∧ (readySeat1 p.1).dieHalted 0 = false ∧ ((readySeat1 p.1).core 0).drill = false
    ∧ (readySeat1 p.1).issuingSeat 0 = p.2 ∧ ∀ i < 8, ((readySeat1 p.1).seat i).flight = [] := by
  unfold State.Awake; decide +kernel

/-- The second of two descriptors completes, and one with END. -/
theorem test_complete : ∀ p ∈ [([endFlight 0, endFlight 0], 1, 0), ([endFlight 1], 0, 1)], (flying p.1).Awake
    ∧ ((flying p.1).seat 0).flight[p.2.1]? = some (endFlight p.2.2) ∧ (endFlight p.2.2).squash = false ∧ (endFlight p.2.2).paused = false
    ∧ (endFlight p.2.2).total ≤ (endFlight p.2.2).pos ∧ ((flying p.1).ecc.ce = [] ∧ (flying p.1).ecc.ue = [])
    ∧ ¬(dClass (endFlight p.2.2).words = 7 ∧ ((flying p.1).seat 0).wait.isSome = true) := by
  unfold State.Awake; decide +kernel

theorem test_complete_free : ∀ l n, ((flying l).cluster n).march.held = none := fun _ _ => rfl

theorem test_move : ∀ op < 3, (seat0 (moveD op)).AtDesc 0 (moveD op) ∧ dClass (moveD op) = 0 ∧ dOp (moveD op) = op
    ∧ moveOk op (seat0 (moveD op)) (moveD op) = true := by
  intro op h
  interval_cases op <;> exact ⟨atDesc (by decide +kernel) (fun _ => rfl), by decide +kernel⟩

theorem test_move_gather : ((seat0 (moveD 1)).gatherRows 0 (moveD 1)).1 = .ok := by decide +kernel

/-- A burst of a FILL in the Locker that passes its checks, one outside the share, and one to LPDDR5X that is being wiped. -/
theorem test_burst : ∀ p ∈ [(filling 8192, 8192, BurstCheck.ok), (filling 65535, 65535, .share (lockerBase + 65536) true 6),
      (fillingDram, 2 ^ 63, .err none dramBase true)], p.1.Awake ∧ (p.1.seat 0).flight = [fillFlight (fillD p.2.1)]
    ∧ (fillFlight (fillD p.2.1)).unit = 2 ∧ (fillFlight (fillD p.2.1)).pos < (fillFlight (fillD p.2.1)).total
    ∧ (fillFlight (fillD p.2.1)).paused = false ∧ (fillFlight (fillD p.2.1)).squash = false ∧ (p.1.ecc.ce = [] ∧ p.1.ecc.ue = [])
    ∧ (p.1.xfer 0 (fillFlight (fillD p.2.1))).burstLen (fillFlight (fillD p.2.1)) = 8
    ∧ p.1.checkBurst 0 (p.1.xfer 0 (fillFlight (fillD p.2.1))) (fillFlight (fillD p.2.1)).pos 8 = p.2.2
    ∧ p.1.strictFirst (p.1.seatSlice 0) ((p.1.xfer 0 (fillFlight (fillD p.2.1))).use 0 8) = false
    ∧ (fillFlight (fillD p.2.1)).snap = none := by
  unfold State.Awake; decide +kernel

theorem test_integers : ∀ p ∈ [(5, [(3, 4), (-7, 100)]), (2 ^ 47 - 2, [(1, 1)])], -2 ^ 47 ≤ p.1 + (p.2.map (fun (q : Int × Int) => q.1 * q.2)).sum
    ∧ p.1 + (p.2.map (fun (q : Int × Int) => q.1 * q.2)).sum < (2 : Int) ^ 47 ∧ ocShift 0 = 0 := by
  decide +kernel

theorem test_carry_lanes : ∀ v ∈ [-2 ^ 95, 2 ^ 95 - 1], { Lane.zero with value := v }.mode1 = false ∧ -(2 ^ 95 : Int) ≤ v ∧ v < 2 ^ 95 := by
  decide +kernel

theorem test_numbers : ∀ p ∈ [(Fmt.e2m1, 15), (.fp32, 0xFF800000)], p.1 ∈ [Fmt.e4m3, .e5m2, .e3m2, .e2m3, .e2m1, .bf16, .fp16, .fp32]
    ∧ p.2 < 2 ^ p.1.bits ∧ (p.1.decode p.2).isNan = false := by
  decide +kernel

/-! ### Fault collection: witnesses -/

/-- Source 100 set with class MINOR, and asserting or not. -/
def source100 (asserting : Nat) : State :=
  (((up.wr (stickyRef 100) 1).wr (FCU_SRC_STATE.RAISED_CLASS 100) 1).wr (FCU_SRC_STATE.ASSERTING 100) asserting).wr
    (FCU_SRC_STATE.EVENTS 100) 65535
def acked100 : State :=
  let s := (source100 0).wr (ackRef 100) 1
  { s with fcu := { s.fcu with broughtI := [100] } }
def aliveRuns : State := { up with fcu := { up.fcu with aliveRun := true } }
def scRuns : State := up.wr SEC_STATE.SC_STATE 1
def violated : State := (up.setReg64 HUB_VIOL_INFO (5 * 2 ^ 48)).setReg64 HUB_VIOL_ADDR (2 ^ 63)
def noReact1 : State := up.wr (FCU_SRC_CFG.REACT 1) 0

theorem test_event : (srcReset 1).isSome = true ∧ (up.wr FCU_LOG_PTR.FROZEN 1).on FCU_LOG_PTR.FROZEN = true
    ∧ (up.wr FCU_LOG_PTR.WR_IDX 4095).on FCU_LOG_PTR.FROZEN = false := by decide +kernel

/-- A critical event, one with the reaction on ALIVE_OUT, and one below critical without it. -/
theorem test_reactions : up.on FCU_SUMMARY.FIRST_CRIT_VALID = false ∧ bit ((up.wr (FCU_SRC_CFG.REACT 100) 8).rd (FCU_SRC_CFG.REACT 100)) 3 = true
    ∧ bit ((up.wr (FCU_SRC_CFG.REACT 100) 7).rd (FCU_SRC_CFG.REACT 100)) 3 = false := by decide +kernel

theorem test_event_commands : up.Awake ∧ up.underTest srcPcieErr = false ∧ up.underTest srcLinErr = false
    ∧ up.Reaches secCoreFw .fcu_sw_raise 0 0 true ∧ up.underTest (srcSwFault (bits 31 3 0)) = false := by
  unfold State.Awake State.Reaches; decide +kernel

/-- An event source, and a level source whose condition rises and ends. -/
theorem test_fcu_event : up.Awake ∧ (srcReset 74).isSome = true ∧ up.underTest 74 = false ∧ bit (up.rd (FCU_SRC_CFG.REACT 74)) 2 = false
    ∧ isLevelSrc 74 = false ∧ noReact1.Awake ∧ (srcReset 1).isSome = true ∧ noReact1.underTest 1 = false
    ∧ bit (noReact1.rd (FCU_SRC_CFG.REACT 1)) 2 = false ∧ isLevelSrc 1 = true ∧ noReact1.on (FCU_SRC_STATE.ASSERTING 1) = false := by
  unfold State.Awake; decide +kernel

theorem test_alive : scRuns.Awake ∧ scRuns.on FCU_SUMMARY.ALIVE_STOPPED = false ∧ scRuns.boot.fcuPassed = false
    ∧ scRuns.rd SEC_STATE.SC_STATE ≠ 0 ∧ aliveRuns.Awake ∧ aliveRuns.fcu.aliveRun = true ∧ aliveRuns.underTest srcFcuSelfcheck = false
    ∧ (up.wr FCU_SUMMARY.ALIVE_STOPPED 1).on FCU_SUMMARY.ALIVE_STOPPED = true ∧ up.fcu.aliveRun = false := by
  unfold State.Awake; decide +kernel

theorem test_acknowledge : (source100 0).Awake ∧ (source100 0).Reaches proctorFw .fcu_src_ack 1 0 true ∧ (srcReset 100).isSome = true
    ∧ (∀ u < 512, ((source100 0).wr (ackRef 100) 1).on (stickyRef u) = true → ((source100 0).wr (ackRef 100) 1).on (ackRef u) = true)
    ∧ 100 ∈ acked100.fcu.broughtI ∧ ∀ n ∈ acked100.fcu.broughtI, acked100.on (ackRef n) = true := by
  unfold State.Awake State.Reaches; decide +kernel

theorem test_clear : ∀ k < 2, (source100 k).Awake ∧ (source100 k).Reaches proctorFw .fcu_src_status 1 0 true := by
  unfold State.Awake State.Reaches; decide +kernel

theorem test_clearable : isLevelSrc 74 = false ∧ up.on (FCU_SRC_STATE.ASSERTING 74) = false := by decide +kernel

theorem test_fcu_registers : (up.wr FCU_CTRL.LOCK 1).Reaches secCoreFw .fcu_ctrl 0 0 true ∧ up.Reaches secCoreFw .fcu_ctrl 0 0 true
    ∧ (up.wr FCU_LOG_PTR.FROZEN 1).Reaches secCoreFw .fcu_log_ptr 0 0 true ∧ up.Reaches proctorFw .fcu_summary 0 0 false
    ∧ up.Reaches registrarFw .fcu_summary 0 0 false ∧ up.Reaches proctorFw .fcu_log_ptr 0 0 false
    ∧ up.Reaches secCoreFw .fcu_src_state 511 0 false := by
  unfold State.Reaches; decide +kernel

theorem test_viol_read : violated.Awake ∧ violated.Reaches secCoreFw (violFam .hub).1 (violFam .hub).2.1 (violFam .hub).2.2 false
    ∧ up.Reaches registrarFw (violFam (.core 127)).1 (violFam (.core 127)).2.1 (violFam (.core 127)).2.2 false := by
  unfold State.Awake State.Reaches; decide +kernel

/-! ### Locker and Slate: witnesses -/

/-- Scrubbing of Slate 15 is under way. -/
def scrubbing : State := up.setScrub 15 8 1
def marchWritten (d : Nat) : State := up.plainWrite (CLC_MARCH_CTRL 0) (RegFam.fields .clc_march_ctrl) false d marchCtrlOk
def marchLocker : March := ⟨[], 0, 0, 0, 7, true, false, [], some (0, 0), false⟩
def marchEnds : March := ⟨[], 8, 31, 0, 31, false, false, [], some (8, 31), false⟩
def marching (q : March) : State := up.setCluster 0 { up.cluster 0 with march := q }

theorem test_scrub : up.memUp 15 = true ∧ up.scrubState 15 8 = 0 ∧ scrubbing.Awake ∧ scrubbing.memUp 15 = true
    ∧ scrubbing.scrubState 15 8 ≠ 0 ∧ scrubbing.underTest (srcCluster 15 7) = false := by
  unfold State.Awake; decide +kernel

/-- A START that is refused, with a group too many, and one that starts a test of the Locker of core 0. -/
theorem test_march_start : ∀ p ∈ [(2097157, 32, 32, true), (117441541, 0, 7, false)], up.Reaches secCoreFw .clc_march_ctrl 0 0 true
    ∧ bit p.1 0 = true ∧ up.on (CLC_MARCH_STATUS.BUSY 0) = false ∧ up.memUp 0 = true
    ∧ (marchWritten p.1).rd (CLC_MARCH_CTRL.GROUP_FIRST 0) = p.2.1
    ∧ (marchWritten p.1).marchRefused 0 ((marchWritten p.1).marchMems 0) p.2.1 p.2.2.1 ((marchWritten p.1).on (CLC_MARCH_CTRL.MODE 0))
        (isSecCore secCoreFw) = p.2.2.2 ∧ (p.2.2.2 = false → (marchWritten p.1).marchMems 0 = [0, 8]) := by
  unfold State.Reaches; decide +kernel

theorem test_march_group : (marching marchLocker).Awake ∧ ((marching marchLocker).cluster 0).march = marchLocker
    ∧ marchLocker.held = some (0, 0) ∧ marchLocker.group < marchLast marchLocker marchLocker.mem
    ∧ ((marching marchEnds).cluster 0).march = marchEnds ∧ marchEnds.held = some (8, 31) ∧ ¬marchEnds.group < marchLast marchEnds marchEnds.mem
    ∧ marchEnds.mems = [] ∧ (marching marchEnds).drillMarch 0 = false ∧ marchEnds.failed = [] ∧ marchEnds.repaired = false := by
  unfold State.Awake; decide +kernel

/-- A share at each end of the Seats that fits. -/
theorem test_share_given : ∀ p ∈ [(0, 0x2000000), (1023, 66047)], up.Reaches registrarFw .clc_seat_share (p.1 / 64) (p.1 % 64) true
    ∧ up.seatState p.1 = 0 ∧ bits p.2 8 0 + bits p.2 25 16 ≤ 512 ∧ up.shareOverlaps p.1 (bits p.2 8 0) (bits p.2 25 16) = false := by
  unfold State.Reaches; decide +kernel

/-- A share beyond the Locker, one of a Seat that is not EMPTY, and one that overlaps another. -/
theorem test_share_refused : ∀ p ∈ [(up, 33554943), (up.wr (CLC_SEAT_STATE.STATE 0 0) 1, 65536), (up.wr (CLC_SEAT_SHARE.SIZE_4K 0 1) 16, 1048591)],
    p.1.Reaches registrarFw .clc_seat_share 0 0 true ∧ p.1.seatState 0 ≠ 6
    ∧ (p.1.seatState 0 ≠ 0 ∨ 512 < bits p.2 8 0 + bits p.2 25 16 ∨ p.1.shareOverlaps 0 (bits p.2 8 0) (bits p.2 25 16) = true) := by
  unfold State.Reaches; decide +kernel

theorem test_ecccount_read : up.Reaches secCoreFw .clc_mem_ecccount 15 0 false := by unfold State.Reaches; decide +kernel

/-! ### Power: witnesses -/

/-- Die 0 may be raised; both dies stand at OP0. -/
def raisable : State := run.setDie 0 { run.die 0 with allowed := true, govCeil := 4 }
/-- A change of die 0 from OP0 to OP4 is under way. -/
def changing : State := (run.setDie 0 { run.die 0 with moveBusy := true, govCeil := 4 }).wr (PMC_OPP_CD.TARGET 0) 4
def below (r : Nat) : State := up.wr PMC_RAIL_STATUS.BELOW (2 ^ r)
/-- Every sensor reads `t`. -/
def heat (t : Int) : List Int := List.replicate 68 t
def stoppedPll : State := { up with pwr := { up.pwr with stopped := [3, 4] } }
def dieOff : State := up.setDie 1 Die.zero

/-- A raise above the target, and one that is at it. -/
theorem test_opp_raise : raisable.Awake ∧ raisable.regRunning = true ∧ raisable.pmcRunning = true ∧ (raisable.die 0).powered = true
    ∧ (raisable.die 0).allowed = true ∧ raisable.rd (PMC_OPP_CD.TARGET 0) < min 4 (raisable.ceil 0)
    ∧ min 0 (raisable.ceil 0) ≤ raisable.rd (PMC_OPP_CD.TARGET 0) := by
  unfold State.Awake; decide +kernel

theorem test_opp_step : changing.Awake ∧ (changing.die 0).moveBusy = true ∧ changing.rd (PMC_OPP_CD.CUR 0) ≠ changing.rd (PMC_OPP_CD.TARGET 0) := by
  unfold State.Awake; decide +kernel

theorem test_plls : pllDomains 43 ≠ [] ∧ up.domainOn 43 = true ∧ up.domainOff 43 = false ∧ up.underTest srcPllUnlock = false
    ∧ up.underTest srcClkMon = false ∧ stoppedPll.Awake ∧ stoppedPll.domainOn 3 = false := by
  unfold State.Awake; decide +kernel

/-- Each rail warns or recovers; on a die that is off nothing happens. -/
theorem test_rails : (up.die (railDie 5)).powered = true ∧ up.underTest (railSrc 5) = false ∧ up.underTest (railSrc 6) = false
    ∧ up.underTest (railSrc 7) = false ∧ (∀ r < 8, (below r).boot.inReset = false ∧ bit ((below r).rd PMC_RAIL_STATUS.BELOW) r = true)
    ∧ ((below 5).die (railDie 5)).dipHalt = false ∧ bit (up.rd PMC_RAIL_STATUS.BELOW) 7 = false ∧ (dieOff.die (railDie 5)).powered = false
    ∧ Rail.io33 ∈ [Rail.hub, .aon, .ddr, .ddrq, .io18, .io33] := by decide +kernel

theorem test_heat : up.underTest srcThermClamp = false ∧ up.underTest srcThermShutdown = false ∧ (up.die 1).powered = true
    ∧ up.on (PMC_OPP_CD.CLAMPED 1) = false ∧ (up.rd PMC_LIMIT_PKG.TJ_CLAMP_C : Int) ≤ hottest (((heat 125).drop 32).take 32)
    ∧ 135 ≤ hottest (heat 135) ∧ up.pwr.shutdown = false ∧ (up.wr (PMC_OPP_CD.CLAMPED 1) 1).on (PMC_OPP_CD.CLAMPED 1) = true
    ∧ hottest (((heat 120).drop 32).take 32) ≤ (up.rd PMC_LIMIT_PKG.TJ_CLAMP_C : Int) - 5 := by decide +kernel

theorem test_limits : up.Reaches pmcFw .pmc_limit_cd 1 0 true ∧ up.Reaches secCoreFw .pmc_limit_pkg 0 0 true := by
  unfold State.Reaches; decide +kernel

theorem test_holds : up.Reaches secCoreFw .pmc_sec_hold 0 0 true ∧ (up.wr PMC_HOLD_LOG.COUNT 5).Reaches secCoreFw .pmc_hold_log 0 0 false := by
  unfold State.Reaches; decide +kernel

/-! ### Reset and boot: witnesses -/

def shutDown : State := { up with pwr := { up.pwr with shutdown := true } }
def poweredOff : State := { State.reset with boot := { Boot.held with thermOff := 1 } }
/-- The Security Core runs and both dies are off. -/
def diesOff : State := { run with dies := [] }
def minVersion9 : State := { run with fuses := { run.fuses with minVersion := [9, 9, 9, 9, 9] } }
def prior1 : State := up.wr WMARK_DRAM_CTRL.PRIOR_1M 1
def fillRuns : State := up.setDie 1 { up.die 1 with filled := false }

theorem test_reset_request : up.Reaches secCoreFw .aon_reset_req 0 0 true ∧ bits 0xFFA5 7 0 = 0xA5 ∧ bits 0xA4 7 0 ≠ 0xA5
    ∧ (up.wr SEC_STATE.DBG_NS_INV 1).on SEC_STATE.DBG_NS_INV = true ∧ up.on SEC_STATE.DBG_NS_INV = false := by
  unfold State.Reaches; decide +kernel

theorem test_thermal_off : shutDown.Awake ∧ shutDown.pwr.shutdown = true ∧ poweredOff.boot.inReset = true ∧ poweredOff.boot.thermOff = 1 := by
  unfold State.Awake; decide +kernel

theorem test_release : State.reset.boot.inReset = true ∧ State.reset.boot.thermOff = 0 := by decide +kernel

theorem test_sec_firmware : up.rd SEC_STATE.SC_STATE = 0 ∧ up.boot.scFailed = false ∧ up.fuses.lifecycle ≠ 4
    ∧ up.fuses.minVersion.getD 0 0 ≤ 0 ∧ 8 < minVersion9.fuses.minVersion.getD 0 0 := by decide +kernel

/-- An image of the least version that is accepted, and one below it. -/
theorem test_image : minVersion9.Awake ∧ minVersion9.scRunning = true ∧ minVersion9.fwSettled .ccc = false
    ∧ minVersion9.fuses.minVersion.getD (fwPlace .ccc) 0 ≤ 9 ∧ 8 < minVersion9.fuses.minVersion.getD (fwPlace .ccc) 0
    ∧ minVersion9.underTest srcFwAuthFail = false := by
  unfold State.Awake; decide +kernel

theorem test_dies_join : diesOff.Awake ∧ diesOff.pmcRunning = true ∧ diesOff.scRunning = true ∧ (diesOff.die 1).powered = false
    ∧ (diesOff.die 1).held = false ∧ bit diesOff.pwr.gatedPower 1 = false ∧ (fillRuns.die 1).powered = true ∧ (fillRuns.die 1).filled = false := by
  unfold State.Awake; decide +kernel

theorem test_dram : prior1.Awake ∧ prior1.boot.dramTrained = false ∧ { prior1 with sec := { prior1.sec with tamperDram := true } }.sec.dramWipe = none := by
  unfold State.Awake; decide +kernel

theorem test_apc : (up.wr APC_LLC_PART.LOCK 1).on APC_LLC_PART.LOCK = true ∧ up.on APC_LLC_PART.LOCK = false := by decide +kernel

/-! ### Watermarks, wipes and the secure world: witnesses -/

def slateWiping : State := { up with sec := { up.sec with slateWipe := some (0, 0x10000), slateLevel := some 1 } }
def dramReady (s : State) : State := { s with boot := { s.boot with dramTrained := true, dramServing := true } }
def dramWiping : State := let s := dramReady up; { s with sec := { s.sec with dramWipe := some (0, 0x100000), dramLevel := some 1 } }
def lifeEnds : State := { slateWiping with sec := { slateWiping.sec with pendingLife := some (64, 1) } }

/-- The largest levels are taken; one further is not, nor any while LOCK is set. -/
theorem test_levels : up.Reaches secCoreFw .wmark_slate 0 0 true ∧ up.on WMARK_SLATE_CTRL.LOCK = false ∧ bits 256 8 0 ≤ 256
    ∧ bits 256 8 0 ≠ up.rd WMARK_SLATE.LEVEL_64K ∧ up.sec.slateWipe = none ∧ 256 < bits 257 8 0
    ∧ (up.wr WMARK_SLATE_CTRL.LOCK 1).on WMARK_SLATE_CTRL.LOCK = true ∧ up.Reaches secCoreFw .wmark_dram 0 0 true
    ∧ up.on WMARK_DRAM_CTRL.LOCK = false ∧ bits 8192 13 0 ≤ 8192 ∧ bits 8192 13 0 ≤ up.pins.fittedMiB
    ∧ bits 8192 13 0 ≠ up.rd WMARK_DRAM.LEVEL_1M ∧ up.sec.dramWipe = none ∧ 8192 < bits 8193 13 0
    ∧ (up.wr WMARK_DRAM_CTRL.LOCK 1).on WMARK_DRAM_CTRL.LOCK = true := by
  unfold State.Reaches; decide +kernel

theorem test_wipe_requests : up.Reaches secCoreFw .wmark_slate_ctrl 0 0 true ∧ up.Reaches secCoreFw .wmark_dram_ctrl 0 0 true
    ∧ bit 8 3 = true ∧ bit 1 3 = false := by
  unfold State.Reaches; decide +kernel

theorem test_wipes_end : slateWiping.Awake ∧ slateWiping.sec.slateWipe = some (0, 0x10000) ∧ slateWiping.sec.pendingLife = none
    ∧ slateWiping.sec.pendingDebug = none ∧ slateWiping.sec.pendingFail = false ∧ (slateWiping.die (dieOf 15)).powered = true
    ∧ slateWiping.sec.slateShut.contains 15 = false ∧ dramWiping.Awake ∧ dramWiping.sec.dramWipe = some (0, 0x100000)
    ∧ dramWiping.boot.dramTrained = true ∧ dramWiping.sec.pendingLife = none ∧ dramWiping.sec.pendingDebug = none
    ∧ dramWiping.sec.pendingFail = false ∧ lifeEnds.sec.slateWipe = some (0, 0x10000) ∧ lifeEnds.sec.dramWipe = none
    ∧ lifeEnds.sec.pendingLife = some (64, 1) := by
  unfold State.Awake; decide +kernel

theorem test_tamper : up.Awake ∧ up.underTest srcTamperLid = false ∧ up.underTest srcTamperGlitch = false ∧ up.boot.dramTrained = false
    ∧ dramWiping.boot.dramTrained = true := by
  unfold State.Awake; decide +kernel

/-- A Mladnel header (R311): opcode, FLAGS, SLICE, SEQ, payload length, buffer address, ARG. -/
def headerOf (op flags slice seq len addr arg : Nat) : List Byte :=
  leBytes 2 op ++ leBytes 1 flags ++ leBytes 1 slice ++ leBytes 2 seq ++ leBytes 6 0 ++ leBytes 2 len ++ leBytes 2 0 ++ leBytes 8 addr ++ leBytes 8 arg

/-- The device runs and LPDDR5X serves. -/
def ready : State := dramReady run
/-- A SECMB request with a payload of 8 bytes at the start of LPDDR5X, and one whose header lies in a hole. -/
def posted (s : State) : State := s.writeMem dramBase (headerOf 0x0200 0 0 0 8 (dramBase + 64) 0)
def go (a : Nat) : Nat := 2 ^ 63 + a

theorem test_secmb_go : (posted ready).Awake ∧ (posted ready).Reaches registrarFw .secmb_ch_req 24 0 true
    ∧ bits (go dramBase) 47 5 * 32 = dramBase ∧ bit (go dramBase) 63 = true ∧ bit dramBase 63 = false
    ∧ (posted ready).on (SECMB_CH_RSP.BUSY 24) = false
    ∧ ((posted ready).through registrarFw .secmb_ch_req 24 0).requestWaits ((posted ready).ctx registrarFw) dramBase = false
    ∧ (((posted ready).through registrarFw .secmb_ch_req 24 0).readRequest ((posted ready).ctx registrarFw) dramBase).2.1
        = some (headerOf 0x0200 0 0 0 8 (dramBase + 64) 0)
    ∧ (((posted ready).through registrarFw .secmb_ch_req 24 0).readRequest ((posted ready).ctx registrarFw) dramBase).2.2
        = some (List.replicate 8 0#8)
    ∧ (posted ready).secAway = none ∧ ((posted ready).wr SEC_STATE.SC_STATE 2).secAway = some msRestarting
    ∧ ((posted ready).readRequest ((posted ready).ctx registrarFw) 0x60000).2.1 = none := by
  unfold State.Awake State.Reaches; decide +kernel

def serving (c : Nat) : State :=
  { ready with sec := { ready.sec with serving := some c, chans := [(c, ⟨dramBase, headerOf 0x0200 0 0 0 0 0 0, [], false⟩)] } }
/-- Channel 27 of a paired device with the link up. -/
def pairServing : State :=
  { serving 27 with boot := { (serving 27).boot with strapEn := true }, pair := { (serving 27).pair with trained := true } }

theorem test_secmb_reply : pairServing.Awake ∧ pairServing.scRunning = true ∧ pairServing.sec.serving = some 27
    ∧ (Table.find pairServing.sec.chans 27).isSome = true ∧ pairServing.boot.strapEn = true ∧ pairServing.pair.trained = true := by
  unfold State.Awake; decide +kernel

def apcOut : State := { posted ready with boot := { (posted ready).boot with apcOut := true } }
def inCall : State := { apcOut with sec := { apcOut.sec with calls := [(23, 0)] }, clock := ⟨0, 0, true, 60000000⟩ }

theorem test_monitor_call : apcOut.Awake ∧ apcOut.boot.apcOut = true ∧ apcOut.worldTag 23 = false ∧ apcOut.unitOn 4 = true
    ∧ apcOut.requestWaits (apcOut.ctx ⟨.apc, 23, 0⟩) dramBase = false
    ∧ (apcOut.readRequest (apcOut.ctx ⟨.apc, 23, 0⟩) dramBase).2.1.isSome = true
    ∧ (apcOut.readRequest (apcOut.ctx ⟨.apc, 23, 0⟩) dramBase).2.2.isSome = true
    ∧ apcOut.on (SECMB_CH_RSP.BUSY 23) = false ∧ apcOut.secAway = none
    ∧ (apcOut.readRequest (apcOut.ctx ⟨.apc, 23, 0⟩) 0x60000).2.1 = none
    ∧ Table.find inCall.sec.calls 23 = some 0 ∧ inCall.passed 0 60000000 = true ∧ inCall.passed 1 60000000 = false := by
  unfold State.Awake; decide +kernel

def secFails : State := run.wr SEC_STATE.SC_STATE 2
/-- A restart of a processor that a watchdog expiry began in this cycle. -/
def begun (proc : Nat) (s : State) : State := s.noteBegan proc 0
def owner0 (life : Nat) : State := { serving 28 with fuses := { run.fuses with lifecycle := life, ownersFused := 1 } }

theorem test_sec_restart : run.Awake ∧ run.rd SEC_STATE.SC_STATE = 1 ∧ secFails.sameCycle 0 1 = false ∧ (begun 0 secFails).Awake
    ∧ (begun 0 secFails).rd SEC_STATE.SC_STATE = 2 ∧ (begun 0 secFails).sameCycle 0 1 = true ∧ (begun 0 secFails).sameCycle 0 0 = false ∧ secFails.rd SEC_STATE.SC_STATE = 2 ∧ secFails.sec.pendingFail = false
    ∧ secFails.boot.firstSecDigest ≠ some 1 ∧ { secFails with boot := { secFails.boot with firstSecDigest := some 1 } }.boot.firstSecDigest = some 1 := by
  unfold State.Awake; decide +kernel

theorem test_debug_certificate : (owner0 1).Awake ∧ (owner0 1).scRunning = true ∧ (owner0 1).sec.serving = some 28
    ∧ (owner0 1).sec.pendingDebug = none ∧ (owner0 1).ownerRoot (.owner 0) = true ∧ (owner0 2).ownerRoot (.owner 0) = true
    ∧ (owner0 1).ownerRoot .viforik = false ∧ (3#4 : BitVec 4).toNat < 4 ∧ 4 ≤ (4#4 : BitVec 4).toNat := by
  unfold State.Awake; decide +kernel

/-! ### Mladnel: witnesses -/

/-- Request `r` of the Security Core has been taken on a mailbox; its payload `bs` is in its buffer in LPDDR5X. -/
def requestOf (op flags slice arg : Nat) (bs : List Byte) : Req := ⟨headerOf op flags slice 0 bs.length dramBase arg, secCoreFw, 0, false⟩
def asked (s : State) (mb : Nat) (r : Req) (bs : List Byte) : State :=
  let u := s.writeMem dramBase bs
  u.setMb mb { u.mb mb with taken := [r] }
def untaken (s : State) (mb : Nat) : State := s.setMb mb { s.mb mb with taken := [] }
/-- The state once the payload has been read. -/
def served (s : State) (mb : Nat) (r : Req) : State := ((untaken s mb).payload (s.ctx r.who) r.header).1

/-- What makes a request due, as one check of a state that can be computed. -/
def isDue (s : State) (i op : Nat) (r : Req) (bs : List Byte) : Bool :=
  !s.boot.inReset && s.serverUp op && !s.standsBehind i op r && (op ≠ 1 || headerOk i r.header helloInfo) && takeFor op [] (s.mb i).taken = some (r, [])
    && (hLen r.header = 0 || !(untaken s i).ctxWaits (s.ctx r.who) (hAddr r.header) (hLen r.header) false)
    && ((untaken s i).bufferOk (s.ctx r.who) r.header (if op = 1 then true else match opInfo op with | some o => o.reply | none => false)).2
    && ((untaken s i).payload (s.ctx r.who) r.header).2 = some bs

theorem due {s : State} {i op : Nat} {r : Req} {bs : List Byte} (h : isDue s i op r bs = true) : s.Due i op r (served s i r) bs := by
  simp only [isDue, Bool.and_eq_true, Bool.not_eq_true', Bool.or_eq_true, decide_eq_true_eq] at h
  obtain ⟨⟨⟨⟨⟨⟨⟨a, b⟩, c⟩, k⟩, d⟩, e⟩, f⟩, g⟩ := h
  exact ⟨a, b, c, fun o => k.resolve_left (fun n => n o), [], d, e, f, Prod.ext rfl g⟩

theorem test_sec_requests : ∀ p ∈ [(67, 0x0200, []), (0, 0x0201, [7#8]), (67, 0x0202, [7#8]), (67, 0x0203, [7#8])],
    isDue (asked (owner0 1) p.1 (requestOf p.2.1 0 0 0 p.2.2) p.2.2) p.1 p.2.1 (requestOf p.2.1 0 0 0 p.2.2) p.2.2 = true
    ∧ (asked (owner0 1) p.1 (requestOf p.2.1 0 0 0 p.2.2) p.2.2).sec.pendingLife = none ∧ (owner0 1).fuses.lifecycle = 1 := by decide +kernel

theorem test_lifecycle_token : (owner0 1).tokenOk ⟨true, 2, false, some 0⟩ = true ∧ (owner0 1).tokenOk ⟨true, 2, true, none⟩ = false := by
  decide +kernel

/-! ### Slices: witnesses -/

/-- SLICE_CONFIG for a process of slice 63 with Seat 0, one work queue and one tag; KIND and FUNCTION as given. -/
def configOf (kind function : Nat) : List Byte :=
  leBytes 1 kind ++ leBytes 1 0 ++ leBytes 2 function ++ leBytes 4 0xFFFFF ++ leBytes 4 0 ++ leBytes 2 10 ++ leBytes 2 60 ++ leBytes 4 0
    ++ leBytes 4 0 ++ leBytes 2 1 ++ leBytes 2 1 ++ leBytes 2 0 ++ leBytes 2 100 ++ List.replicate 16 0#8 ++ leBytes 8 1 ++ List.replicate 248 0#8
def configReq : Req := requestOf 0x0006 0 63 0 (configOf 1 0)
def configuring (bs : List Byte) : State := asked ready 67 (requestOf 0x0006 0 63 0 bs) bs

theorem test_slice_config : ∀ kind ∈ [0, 1, 2, 3], isDue (configuring (configOf kind 0)) 67 0x0006 (requestOf 0x0006 0 63 0 (configOf kind 0)) (configOf kind 0) = true
    ∧ (served (configuring (configOf kind 0)) 67 (requestOf 0x0006 0 63 0 (configOf kind 0))).sliceBusy 63 = false
    ∧ (sliceOfPayload (configOf kind 0)).kind = kind := by decide +kernel

theorem test_slice_fits : sliceFieldsOk (configOf 1 0) (sliceOfPayload (configOf 1 0)) = true
    ∧ sliceFieldsOk (configOf 1 1) (sliceOfPayload (configOf 1 1)) = false ∧ ready.identTaken 63 (sliceOfPayload (configOf 1 0)) = false
    ∧ ready.seatsClash 63 (sliceOfPayload (configOf 1 0)) = false ∧ ready.slateClash 63 (sliceOfPayload (configOf 1 0)) = false
    ∧ ready.dramClash 63 (sliceOfPayload (configOf 1 0)) = false ∧ ready.quotasFit 63 (sliceOfPayload (configOf 1 0)) = true := by decide +kernel

/-- Slice 5 in a phase, with its token; its host has been silent and its times are over. -/
def sliceIn (phase : Nat) (running : Bool) : State :=
  { ready.setSlice 5 { Slice.zero with kind := 0, phase := phase, token := 9#64, running := running, heartbeatMs := 100, graceS := 1, drainMs := 2 }
    with clock := ⟨0, 0, true, 1000000000⟩ }
def slice5 (op arg : Nat) (s : State) : State := asked s 5 (requestOf op 0 5 arg []) []

theorem test_attach : ∀ p ∈ [(0, 0), (0, 9), (1, 0), (2, 9), (2, 0), (2, 8)], isDue (slice5 0x0004 p.2 (sliceIn p.1 false)) 5 0x0004 (requestOf 0x0004 0 5 p.2 []) [] = true
    ∧ ((served (slice5 0x0004 p.2 (sliceIn p.1 false)) 5 (requestOf 0x0004 0 5 p.2 [])).slice 5).kind ≠ 2
    ∧ ((served (slice5 0x0004 p.2 (sliceIn p.1 false)) 5 (requestOf 0x0004 0 5 p.2 [])).slice 5).running = false
    ∧ ((served (slice5 0x0004 p.2 (sliceIn p.1 false)) 5 (requestOf 0x0004 0 5 p.2 [])).slice 5).phase = p.1
    ∧ ((sliceIn 2 false).graceEnd 5).rd SEC_STATE.SC_STATE = 1 := by decide +kernel

theorem test_slice_requests : ∀ op ∈ [0x0002, 0x0003, 0x0005], isDue (slice5 op 0 (sliceIn 1 false)) 5 op (requestOf op 0 5 0 []) [] = true
    ∧ isDue (slice5 op 0 (sliceIn 2 false)) 5 op (requestOf op 0 5 0 []) [] = true := by decide +kernel

theorem test_slice_times : (sliceIn 1 false).Awake ∧ (sliceIn 1 false).regRunning = true ∧ ((sliceIn 1 false).slice 5).phase = 1
    ∧ (sliceIn 1 false).passed ((sliceIn 1 false).slice 5).lastBeat (((sliceIn 1 false).slice 5).heartbeatMs * 1000000) = true
    ∧ ((sliceIn 1 true).slice 5).running = true ∧ (sliceIn 1 true).passed ((sliceIn 1 true).slice 5).runAt (((sliceIn 1 true).slice 5).drainMs * 1000000) = true
    ∧ ((sliceIn 1 true).wr MLMB_FW_STATE.REGISTRAR 2).regRunning = false ∧ ((sliceIn 2 false).slice 5).phase = 2
    ∧ (sliceIn 2 false).passed ((sliceIn 2 false).slice 5).graceAt (((sliceIn 2 false).slice 5).graceS * 1000000000) = true := by
  unfold State.Awake; decide +kernel

/-! ### The mailbox block: witnesses -/

/-- A header `h` waits in the request queue of mailbox 67, whose queues lie at the start of LPDDR5X; the mailbox is negotiated as given. -/
def waiting (neg features : Nat) (h : List Byte) : State :=
  let s := (ready.wr (MLMB_MB_STATUS.NEGOTIATED 67) neg).wr (MLMB_MB_FEATURES.FEATURES 67) features
  let q := ⟨dramBase, BitVec.ofNat 64 (2 ^ 15 + 2 * 2 ^ 16), 1, 0, 0, 0, 0⟩
  ((s.setQueue (reqQueue 67) q).setQueue (reqQueue 67 + 1) { q with base := dramBase + 4096, prod := 0 }).writeMem dramBase h

/-- A request that passes the checks, one to a server that is away, and one with a wrong SEQ. -/
theorem test_take : ∀ p ∈ [headerOf 0x0101 0 0 0 0 0 0, headerOf 0x0101 0 0 7 0 0 0], (waiting 1 0x7F9 p).Awake
    ∧ ((waiting 1 0x7F9 p).queue (reqQueue 67)).occupancy ≠ 0 ∧ (waiting 1 0x7F9 p).repRoom 67 = true
    ∧ (waiting 1 0x7F9 p).qReadWaits (reqQueue 67) 0 = false ∧ (waiting 1 0x7F9 p).loadTurn 67 = true
    ∧ ((waiting 1 0x7F9 p).qRead (reqQueue 67) 0).2 = some p := by
  unfold State.Awake; decide +kernel

theorem test_take_checks : (waiting 1 0x7F9 []).mlmbCheck 67 (headerOf 0x0101 0 0 0 0 0 0) = none
    ∧ (waiting 1 0x7F9 []).serverAway 0x0101 = none ∧ ((waiting 1 0x7F9 []).wr MLMB_FW_STATE.PMC 2).serverAway 0x0101 = some msBusy
    ∧ (waiting 1 0x7F9 []).mlmbCheck 67 (headerOf 0x0101 0 0 7 0 0 0) = some (msBadarg, 0, true)
    ∧ (waiting 0 0 []).mlmbCheck 67 (headerOf 0x0101 0 0 0 0 0 0) = some (msVersion, 0, false) := by decide +kernel

def helloBytes (lo hi : Nat) : List Byte := leBytes 2 lo ++ leBytes 2 hi ++ leBytes 4 0 ++ leBytes 8 0xFFF

theorem test_hello : ∀ p ∈ [(0x300, 0x300), (0x301, 0x400)], isDue (asked ready 67 (requestOf 1 0 0 0 (helloBytes p.1 p.2)) (helloBytes p.1 p.2)) 67 1
    (requestOf 1 0 0 0 (helloBytes p.1 p.2)) (helloBytes p.1 p.2) = true ∧ (helloBytes p.1 p.2).length = 16 ∧ leAt (helloBytes p.1 p.2) 4 4 = 0 := by
  decide +kernel

def lostEvents : State := (waiting 1 0 []).setMb 67 { (waiting 1 0 []).mb 67 with lost := 3, lostPending := true }

theorem test_events_lost : lostEvents.Awake ∧ (lostEvents.mb 67).lostPending = true ∧ lostEvents.repRoom 67 = true
    ∧ lostEvents.Reaches secCoreFw .mlmb_mb_status 67 0 false := by
  unfold State.Awake State.Reaches; decide +kernel

theorem test_fault_requests : ∀ op ∈ [0x0302, 0x0303], isDue (asked ready 67 (requestOf op 0 0 511 []) []) 67 op (requestOf op 0 0 511 []) [] = true
    ∧ faultSources 511 [] = some [511] ∧ faultSources 512 [] = none := by decide +kernel

theorem test_power_requests : ∀ op ∈ [0x0100, 0x0101], isDue (asked ready 67 (requestOf op 0 0 0x401 []) []) 67 op (requestOf op 0 0 0x401 []) [] = true := by
  decide +kernel

theorem test_power_fields : bits 0x401 7 1 = 0 ∧ 0x401 < 4096 ∧ bits 0x401 11 8 ≤ 4 ∧ 4 < bits 0x501 11 8 ∧ bits 0x30E 7 4 = 0 ∧ 0x30E < 1024
    ∧ bits 0x30E 3 0 ≠ 15 ∧ bit 0x30E 9 = true ∧ ready.unitHeld 14 = false ∧ (ready.wr PMC_SEC_HOLD.ROLL 1).unitHeld 14 = true := by
  decide +kernel

/-! ### Firmware restarts: witnesses -/

def restarting (f : FRef) : State := run.wr f 2
def instrBad : RestartFound := ⟨false, true, 7#16, 9#384, true, true⟩

theorem test_firmware : run.rd MLMB_FW_STATE.PMC = 1 ∧ run.rd MLMB_FW_STATE.REGISTRAR = 1 ∧ run.rd MLMB_FW_STATE.PROCTOR = 1
    ∧ (run.setCcc 15 1).cccState 15 = 1 ∧ (restarting MLMB_FW_STATE.PMC).rd MLMB_FW_STATE.PMC = 2
    ∧ (restarting MLMB_FW_STATE.REGISTRAR).rd MLMB_FW_STATE.REGISTRAR = 2 ∧ (run.setCcc 15 2).cccState 15 = 2 ∧ run.reg.loading = none := by
  decide +kernel

/-- A lockstep mismatch in the cycle of the watchdog expiry joins the restart; one of the next cycle begins it again. -/
theorem test_restart_joins : ∀ p ∈ [(1, restarting MLMB_FW_STATE.PMC), (2, restarting MLMB_FW_STATE.REGISTRAR), (31, run.setCcc 15 2)],
    (begun p.1 p.2).sameCycle p.1 1 = true ∧ p.2.sameCycle p.1 0 = false
    ∧ { begun p.1 p.2 with clock := { run.clock with up := run.clock.up + 8 } }.sameCycle p.1 1 = false := by
  decide +kernel

theorem test_sram : instrBad.instrOk = false ∧ run.sec.reloads.contains 1 = false ∧ run.scRunning = true ∧ up.scRunning = false
    ∧ run.underTest srcFwSramUe = false := by decide +kernel

/-- Seat 0 works alone: its job has no fallback beside it. -/
theorem test_lone_job : (blocked false).LoneRun 0 ∧ ((blocked false).seat 0).job = some ⟨false, 5, false, 0⟩ ∧ (blocked false).job? 5 = some jobOf
    ∧ jobOf.fb = none ∧ jobOf.state < 4 := by
  have e : ((blocked false).seat 0).job = some ⟨false, 5, false, 0⟩ ∧ (blocked false).job? 5 = some jobOf := by decide +kernel
  refine ⟨fun r j h _ k => ?_, e.1, e.2, rfl, by decide⟩
  rw [e.1] at h
  cases h
  rw [e.2] at k
  cases k
  rfl

/-- Strict slice 1 has quota left, and its Seat 8 fills its first bytes of LPDDR5X. -/
def strictAhead (s : State) : State :=
  let t := (dramReady s).setSlice 1 { Slice.zero with strict := true, dramQuota := 10, dramBase := 16, dramSize := 16 }
  let u := ((t.wr (CLC_SEAT_SHARE.SLICE_VALID 0 8) 1).wr (CLC_SEAT_SHARE.SLICE 0 8) 1).wr (CLC_SEAT_STATE.STATE 0 8) 3
  u.setSeat 8 { u.seat 8 with flight := [fillFlight (fillD (2 ^ 63))] }
/-- Seat 0 of slice 0, which has no quota, moves `ws`. -/
def moving (ws : List Nat) (f : List InFlight) : State :=
  let s := ((syncAt ws).setSlice 0 { Slice.zero with dramSize := 16 }).wr (CLC_SEAT_SHARE.SLICE_VALID 0 0) 1
  dramReady (s.setSeat 0 { s.seat 0 with flight := f })
def fillDram : InFlight := fillFlight (fillD (2 ^ 63))
/-- A COPY of 16 bytes whose source was kept when it started. -/
def copyKept : InFlight := { fillFlight (moveD 0) with total := 16, snap := some (List.replicate 16 (some 1#8)) }

theorem test_strict_burst : ∀ p ∈ [(strictAhead (moving (fillD (2 ^ 63)) [fillDram]), fillDram, true), (moving (fillD (2 ^ 63)) [fillDram], fillDram, false),
      (moving (moveD 0) [copyKept], copyKept, false)],
    p.1.Awake ∧ (p.1.seat 0).flight = [p.2.1] ∧ p.2.1.unit = 2 ∧ p.2.1.pos < p.2.1.total ∧ p.2.1.paused = false ∧ p.2.1.squash = false
    ∧ p.1.ecc.ce = [] ∧ p.1.ecc.ue = [] ∧ p.1.checkBurst 0 (p.1.xfer 0 p.2.1) p.2.1.pos ((p.1.xfer 0 p.2.1).burstLen p.2.1) = .ok
    ∧ p.1.strictFirst (p.1.seatSlice 0) ((p.1.xfer 0 p.2.1).use 0 ((p.1.xfer 0 p.2.1).burstLen p.2.1)) = p.2.2
    ∧ (p.2.1.snap = none ∨ (p.1.xfer 0 p.2.1).lost (p.2.1.snap.getD []) ((List.range ((p.1.xfer 0 p.2.1).burstLen p.2.1)).map (fun j => p.2.1.pos + j)) = []) := by
  unfold State.Awake; decide +kernel

/-- A GATHER whose index list lies in LPDDR5X. -/
def gatherD : List Nat := (moveD 1).set 6 (2 ^ 63 + 0x3000)
theorem test_strict_gather : ∀ p ∈ [(moving gatherD [], false), (strictAhead (moving gatherD []), true)], p.1.AtDesc 0 gatherD ∧ dClass gatherD = 0
    ∧ dOp gatherD = 1 ∧ moveOk 1 p.1 gatherD = true ∧ (p.1.gatherRows 0 gatherD).1 = .ok
    ∧ p.1.strictFirst (p.1.seatSlice 0) ((p.1.oref 0 (wd gatherD 6)).use 0 (4 * (mvCount1 gatherD * mvCount2 gatherD)) false) = p.2 := by
  intro p h
  fin_cases h <;> exact ⟨atDesc (by decide +kernel) (fun _ => rfl), by decide +kernel⟩

/-- Core 127 of cluster 15 is withdrawn: its source keeps asserting. -/
def withdrawn : State := (up.setCore 127 { up.core 127 with withdrawn := true }).wr (FCU_SRC_CFG.REACT (srcCluster 15 9)) 0
theorem test_keeps_asserting : withdrawn.Awake ∧ (srcReset (srcCluster 15 9)).isSome = true ∧ isLevelSrc (srcCluster 15 9) = true
    ∧ bit (withdrawn.rd (FCU_SRC_CFG.REACT (srcCluster 15 9))) 2 = false ∧ withdrawn.keepsAsserting (srcCluster 15 9) = true
    ∧ up.keepsAsserting (srcCluster 15 9) = false := by
  unfold State.Awake; decide +kernel

/-- A limit has acted in this period, or in the last one. -/
theorem test_raise_waits : raisable.pwr.acted = false ∧ raisable.pwr.actedLast = false
    ∧ ∀ p ∈ [(true, false), (false, true)], ({ raisable with pwr := { raisable.pwr with acted := p.1, actedLast := p.2 } }).Awake := by
  unfold State.Awake; decide +kernel

/-- Rail 5 of a die was low, and the die halted; or its clamp goes on. -/
def dipped (clamped : Nat) : State :=
  let s := (below 5).wr (PMC_OPP_CD.CLAMPED (railDie 5)) clamped
  s.setDie (railDie 5) { s.die (railDie 5) with dipHalt := true }
theorem test_dip_ends : ∀ c ∈ [0, 1], (dipped c).Awake ∧ bit ((dipped c).rd PMC_RAIL_STATUS.BELOW) 5 = true
    ∧ (∀ k ∈ dieRails (railDie 5), k ≠ 5 → bit ((dipped c).rd PMC_RAIL_STATUS.BELOW) k = false)
    ∧ (dipped c).on (PMC_OPP_CD.CLAMPED (railDie 5)) = decide (c = 1) ∧ (dipped c).checkHeld (railDie 5) = false
    ∧ (dipped c).domainOn (36 + 4 * railDie 5) = true ∧ (dipped c).domainOn (37 + 4 * railDie 5) = true ∧ ((dipped c).die (railDie 5)).dipHalt = true := by
  unfold State.Awake; decide +kernel

/-- A brownout while reset is held, and after a thermal power-off of a rail that stays. -/
theorem test_brownout : State.reset.boot.thermOff = 0 ∧ State.reset.boot.inReset = true ∧ poweredOff.boot.thermOff = 1 ∧ railStays .aon = true := by
  decide +kernel

/-- Die 1 has been clamped at OP0 for 20 samples and has not cooled; or has cooled by 5 degrees. -/
def clamped1 : State :=
  let s := up.wr (PMC_OPP_CD.CLAMPED 1) 1
  s.setDie 1 { s.die 1 with clampSamples := 20, heatHalt := true }
theorem test_clamp_ends : (clamped1.die 1).powered = true ∧ clamped1.rd (PMC_OPP_CD.CUR 1) = 0 ∧ 20 ≤ (clamped1.die 1).clampSamples
    ∧ (clamped1.rd PMC_LIMIT_PKG.TJ_CLAMP_C : Int) + 3 ≤ hottest (((heat 128).drop 32).take 32) ∧ clamped1.on (PMC_OPP_CD.CLAMPED 1) = true
    ∧ hottest (((heat 120).drop 32).take 32) ≤ (clamped1.rd PMC_LIMIT_PKG.TJ_CLAMP_C : Int) - 5
    ∧ (∀ r ∈ dieRails 1, bit (clamped1.rd PMC_RAIL_STATUS.BELOW) r = false) ∧ clamped1.checkHeld 1 = false
    ∧ clamped1.domainOn 40 = true ∧ clamped1.domainOn 41 = true ∧ clamped1.on (PMC_OPP_CD.CLAMPED 0) = false
    ∧ (clamped1.die 1).dipHalt = false := by
  decide +kernel

/-- PWR_EN of die 1 is high or may go high; it is low and kept so: no self-check, no PMC, held, gated off, or low for less than 10 ms. -/
def passedOff (f : State → State) : State := f { diesOff with boot := { diesOff.boot with fcuPassed := true } }
theorem test_power_enable : (passedOff id).Awake ∧ (passedOff id).scRunning = true ∧ ((passedOff id).die 1).powered = false
    ∧ ((passedOff id).die 1).held = false ∧ (passedOff id).pwrEn 1 = false ∧ (passedOff id).mayDrive 1 = true
    ∧ ((passedOff id).setPwrEn 1 true).pwrEn 1 = true ∧ diesOff.boot.fcuPassed = false ∧ diesOff.pwrEn 1 = false
    ∧ ((passedOff id).wr MLMB_FW_STATE.PMC 2).pmcRunning = false
    ∧ (((passedOff id).setDie 1 { Die.zero with held := true }).die 1).held = true
    ∧ bit ({ passedOff id with pwr := { (passedOff id).pwr with gatedPower := 2 } }).pwr.gatedPower 1 = true
    ∧ (((passedOff id).setDie 1 { Die.zero with offAt := some 0 }).die 1).offAt = some 0
    ∧ { passedOff id with clock := ⟨9999999, 0, true, 9999999⟩ }.passed 0 10000000 = false
    ∧ { passedOff id with clock := ⟨10000000, 0, true, 10000000⟩ }.passed 0 10000000 = true := by
  unfold State.Awake; decide +kernel

/-- PWR_EN of die 1 has been high for 5 ms, and the die has no power. -/
def slowDie : State := { (passedOff id).setPwrEn 1 true with clock := ⟨5000000, 0, true, 5000000⟩ }
theorem test_power_timeout : slowDie.Awake ∧ slowDie.pwrEn 1 = true ∧ (slowDie.die 1).powered = false ∧ slowDie.passed (slowDie.die 1).enAt 5000000 = true := by
  unfold State.Awake; decide +kernel

/-- The boot ROM runs, and a lifecycle request waits for its wipes. -/
def askedLife : State := { run with sec := { run.sec with pendingLife := some (64, 1) }, fuses := { run.fuses with transition := some 1 } }
theorem test_boot_restart : up.Awake ∧ up.rd SEC_STATE.SC_STATE = 0 ∧ up.boot.scFailed = false ∧ run.boot.scFailed = false
    ∧ askedLife.Awake ∧ askedLife.rd SEC_STATE.SC_STATE = 1 ∧ askedLife.sec.pendingLife.isSome = true ∧ secFails.boot.firstSecDigest = none
    ∧ secFails.boot.scFailed = false := by
  unfold State.Awake; decide +kernel

/-- The request at the head follows an earlier one to a PMC that is away; and a HELLO with a reserved header bit. -/
def queuedBehind : State :=
  let s := (waiting 1 0x7F9 (headerOf 0x0101 0 0 0 0 0 0)).wr MLMB_FW_STATE.PMC 2
  s.setMb 67 { s.mb 67 with taken := [⟨headerOf 0x0101 0 0 0 0 0 0, secCoreFw, 0, false⟩] }
def badHello : Req := ⟨headerOf 1 1 0 0 16 dramBase 0, secCoreFw, 0, false⟩
theorem test_order_kept : queuedBehind.serverAway 0x0101 = some msBusy ∧ queuedBehind.mlmbCheck 67 (headerOf 0x0101 0 0 0 0 0 0) = none
    ∧ queuedBehind.answersLater 67 1 = false
    ∧ takeFor 1 [] ((asked ready 67 badHello []).mb 67).taken = some (badHello, []) ∧ (asked ready 67 badHello []).serverUp 1 = true
    ∧ (asked ready 67 badHello []).standsBehind 67 1 badHello = false ∧ headerOk 67 badHello.header helloInfo = false := by
  decide +kernel

/-- What a restart finds: a good region with a good copy, and without; a reload of the least version, one of an older version, and a bad signature. -/
def oldFw : State := { run with fuses := { run.fuses with minVersion := [0, 7, 7, 7, 7] } }
theorem test_sram_found : (⟨true, false, 0#16, 0#384, false, false⟩ : RestartFound).copyA = false
    ∧ run.checkSram 1 ⟨true, false, 0#16, 0#384, false, false⟩ = (run, .failed)
    ∧ run.checkSram 1 ⟨true, false, 0#16, 0#384, false, true⟩ = (run, .runs)
    ∧ oldFw.sec.reloads.contains 1 = false ∧ oldFw.scRunning = true ∧ oldFw.fuses.minVersion.getD (procPlace 1) 0 = 7
    ∧ oldFw.underTest srcFwAuthFail = false ∧ (oldFw.checkSram 1 instrBad).2 = .runs
    ∧ (oldFw.checkSram 1 { instrBad with version := 6#16 }).2 = .failed ∧ (oldFw.checkSram 1 { instrBad with sigOk := false }).2 = .failed
    ∧ (up.checkSram 1 instrBad).2 = .waits := by
  decide +kernel

/-- The restarts that end: of the PMC, the Registrar and the CCC of cluster 15, which waits for the Registrar, or for a march that holds its content. -/
theorem test_restart_ends : (restarting MLMB_FW_STATE.PMC).Awake ∧ (restarting MLMB_FW_STATE.REGISTRAR).Awake ∧ (run.setCcc 15 2).Awake
    ∧ (run.setCcc 15 2).regRunning = true ∧ (run.setCcc 15 2).contentHeld 15 = false
    ∧ ((run.setCcc 15 2).wr MLMB_FW_STATE.REGISTRAR 2).regRunning = false := by
  unfold State.Awake; decide +kernel

/-! ### The budget and the timetable: witnesses -/

def windowBytes (period offset length mask : Nat) : List Byte :=
  leBytes 2 period ++ leBytes 2 0 ++ leBytes 4 offset ++ leBytes 4 length ++ leBytes 2 mask ++ leBytes 1 4 ++ leBytes 1 4 ++ leBytes 8 0
def windowOne : Window := ⟨10, 9000, 1000, 1, 4, 4, false, false, false⟩
/-- Window 0, of 1 ms at 9 ms in every 10 ms, open or not, at a Vehicle Time. -/
def windowAt (isOpen : Bool) (now : Nat) : State :=
  { ready with reg := { ready.reg with windows := [{ windowOne with isOpen := isOpen }] }, clock := ⟨now, 0, true, now⟩ }

theorem test_budget : run.Awake ∧ run.pmcRunning = true ∧ run.overBudget 0 (run.energyAllowed 1000) = false := by
  unfold State.Awake; decide +kernel

/-- A window of the whole of its period is well formed but covers more than 80% of it; one longer than its period is refused. -/
theorem test_timetable : ∀ p ∈ [(windowBytes 10 9000 1000 1, some true), (windowBytes 10 0 10000 1, some false), (windowBytes 10 1 10000 1, none)],
    isDue (asked (windowAt true 0) 67 (requestOf 0x0030 0 0 0 p.1) p.1) 67 0x0030 (requestOf 0x0030 0 0 0 p.1) p.1 = true
    ∧ isDue (asked ready 67 (requestOf 0x0030 0 0 0 p.1) p.1) 67 0x0030 (requestOf 0x0030 0 0 0 p.1) p.1 = true
    ∧ (windowsOf (p.1.length / 24) p.1).map coverageOk = p.2
    ∧ ∃ w ∈ (served (asked (windowAt true 0) 67 (requestOf 0x0030 0 0 0 p.1) p.1) 67 (requestOf 0x0030 0 0 0 p.1)).reg.windows, w.isOpen = true := by
  decide +kernel

/-- It is parked for at 8.999 ms, opens at 9 ms and closes at 10 ms. -/
theorem test_windows : (windowAt false 9000000).Awake ∧ (windowAt false 9000000).regRunning = true
    ∧ (windowAt false 9000000).reg.windows[0]? = some windowOne ∧ ((windowAt false 8999000).clock.now / 1000 + 1) % (10 * 1000) = 9000
    ∧ (windowAt false 9000000).clock.now / 1000 % (10 * 1000) = 9000
    ∧ (windowAt true 10000000).reg.windows[0]? = some { windowOne with isOpen := true }
    ∧ windowOne.lengthUs ≤ (windowAt true 10000000).windowPhase windowOne ∧ (windowAt true 9999000).windowPhase windowOne < windowOne.lengthUs := by
  unfold State.Awake; decide +kernel

/-! ### Lessons: witnesses -/

/-- An image of one stage of one Seat with one work queue, whose share holds a NOP with END. -/
def imageOf (format id fallback flags cls batch seqMax quiz : Nat) : List Byte :=
  leBytes 4 0x4E534C54 ++ leBytes 2 format ++ leBytes 2 0x80 ++ leBytes 8 id ++ leBytes 8 fallback ++ leBytes 4 flags ++ leBytes 1 cls
    ++ leBytes 1 1 ++ leBytes 2 batch ++ leBytes 4 0 ++ leBytes 4 1 ++ leBytes 4 seqMax ++ leBytes 4 quiz ++ leBytes 8 0 ++ leBytes 4 0
    ++ leBytes 4 1 ++ leBytes 4 0x80 ++ leBytes 4 0xA0 ++ leBytes 4 0xF8 ++ leBytes 4 0 ++ List.replicate 48 0#8
    ++ leBytes 1 1 ++ leBytes 1 1 ++ leBytes 2 1 ++ List.replicate 28 0#8
    ++ leBytes 8 0 ++ leBytes 4 0xB8 ++ leBytes 4 64 ++ leBytes 1 1 ++ List.replicate 7 0#8
    ++ leBytes 8 0x107 ++ List.replicate 56 0#8
def image : List Byte := imageOf 1 7 0 0 1 0 0 0

/-- Slice 5 owns Seat 0 and may have queues, Roster entries and jobs; the images `m` are for it; developer root 0 is there. -/
def home : State :=
  let s := ((ready.setCcc 0 1).wr (CLC_SEAT_SHARE.SLICE_VALID 0 0) 1).wr (CLC_SEAT_SHARE.SLICE 0 0) 5
  { s.setSlice 5 { Slice.zero with kind := 0, phase := 1, seatMask := [1], dramSize := 16, workQueues := 4, roster := 8, tags := 4 }
    with fuses := { s.fuses with lifecycle := 1, ownersFused := 1 } }

/-- A LESSON_LOAD of slice 5 for the image `m`, which lies 4 KiB above the payload. -/
def loadBytes (m : List Byte) : List Byte := leBytes 8 (dramBase + 4096) ++ leBytes 4 m.length ++ leBytes 4 0
def loadReq (met : Bool) (m : List Byte) : Req := { requestOf 0x0010 0 5 0 (loadBytes m) with met := met }
def loading (met : Bool) (m : List Byte) : State :=
  let s := asked (home.writeMem (dramBase + 4096) m) 5 (loadReq met m) (loadBytes m)
  { s with reg := { s.reg with arrivals := [5] } }
def withImage (m : List Byte) : State := served (loading false m) 5 (loadReq false m)

theorem test_load : ∀ met ∈ [false, true], isDue (loading met image) 5 0x0010 (loadReq met image) (loadBytes image) = true
    ∧ (loading met image).reg.loading = none ∧ (loading met image).loadDue 5 = true ∧ (loading met image).imageWaits 5 0x0010 = false
    ∧ (loading met image).rd SEC_STATE.SC_STATE = 1 ∧ (withImage image).rd SEC_STATE.SC_STATE = 1
    ∧ ((withImage image).slice 5).running = false ∧ (withImage image).hostGone 5 = false
    ∧ ((withImage image).ctxRead ((withImage image).ctx secCoreFw) (leAt (loadBytes image) 0 8) (leAt (loadBytes image) 8 4)).2 = some image := by
  decide +kernel

/-- The steps of admission that an image passes: frame, format, root, fields, descriptors, shapes, placement. -/
def admitted (s : State) (root : SigRoot) (m : List Byte) : List Bool :=
  [imFrameOk m m.length, decide (imFormat m = 1), s.rootOk root, s.imFieldsOk 5 m 0, (imDescs m).all (fun d => s.imDescOk m d.2.2),
    (imShapeFails m).isEmpty, ((s.placeAll 5 m).2 ++ s.sliceReport 5 m).isEmpty,
    (lowestPlaces 1 (imQueues m) s.freeWork).head?.isSome && (lowestPlaces 1 (imQueues m) s.freeCompletion).head?.isSome]

theorem test_admit : admitted home (.owner 0) image = List.replicate 8 true ∧ imFrameOk (image.drop 1) (image.drop 1).length = false
    ∧ (admitted home (.owner 0) (imageOf 2 7 0 0 1 0 0 0)).take 2 = [true, false] ∧ (admitted home .viforik image).take 3 = [true, true, false]
    ∧ (admitted home (.owner 0) (imageOf 1 0 0 0 1 0 0 0)).take 4 = [true, true, true, false] := by decide +kernel

/-- The Lesson of an image in slice 5, resident on Seat 0 with work queue 0 and completion queue 57480. -/
def lessonAt (m : List Byte) : Lesson := { lessonOf m [⟨0, 0, 0, [0], 0, 0, none⟩] with slice := 5, queueFirst := 0, cqFirst := 57480 }
def key5 : Nat := lessonKey 5 7
def resident (m : List Byte) : State := ((home.setLesson key5 (lessonAt m)).setSeatState 0 1).wr (CLC_SEAT_SHARE.SIZE_4K 0 0) 1
def contentDue : State :=
  { home with reg := { home.reg with loading := some ⟨5, (loadReq false image).header, secCoreFw, lessonAt image⟩ } }

theorem test_content : contentDue.Awake ∧ contentDue.reg.loading = some ⟨5, (loadReq false image).header, secCoreFw, lessonAt image⟩
    ∧ contentDue.regRunning = true ∧ contentDue.contentWaits (lessonAt image) = false ∧ contentDue.underTest srcLessonVerify = false := by
  unfold State.Awake; decide +kernel

/-- A job of the resident Lesson with tag 9. -/
def job5 : Job := { jobOf with state := 0, slice := 5, lesson := key5, origLesson := key5, queue := 0, cq := 57480, group := none, seats := [] }
def withJob (j : Job) : State := (resident image).setJob 9 j
def unloadReq (flags id : Nat) : Req := requestOf 0x0011 flags 5 id []

theorem test_unload : ∀ p ∈ [(resident image, 0, 8), (resident image, 0, 7), (withJob job5, 0, 7), (withJob job5, 4, 7)],
    isDue (asked p.1 5 (unloadReq p.2.1 p.2.2) []) 5 0x0011 (unloadReq p.2.1 p.2.2) [] = true := by
  decide +kernel

theorem test_unload_cases : (resident image).lesson? (lessonKey 5 8) = none ∧ (resident image).lesson? key5 = some (lessonAt image)
    ∧ ((resident image).unfinished key5).isEmpty = true ∧ ((withJob job5).unfinished key5).isEmpty = false ∧ bit 4 2 = true := by
  decide +kernel

def releasing (s : State) : State :=
  s.setLesson key5 { lessonAt image with releasing := true, releaseMb := some (5, (unloadReq 4 7).header) }

theorem test_lesson_release : (releasing (resident image)).Awake ∧ (releasing (resident image)).regRunning = true
    ∧ ((releasing (withJob job5)).unfinished key5).isEmpty = false ∧ ((releasing (resident image)).unfinished key5).isEmpty = true
    ∧ (releasing (resident image)).lesson? key5
      = some { lessonAt image with releasing := true, releaseMb := some (5, (unloadReq 4 7).header) } := by
  unfold State.Awake; decide +kernel

/-! ### Jobs and the Roster: witnesses -/

/-- Work queue 0 holds one record for the Lesson, without flags. -/
def record5 : List Byte := leBytes 8 7 ++ leBytes 4 0xABCD ++ leBytes 4 0 ++ leBytes 8 9000 ++ leBytes 8 1000 ++ List.replicate 32 0#8
def queued : State :=
  ((resident image).setQueue 0 { QRec.zero.allotted 5 3 with base := dramBase, prod := 1, cfg := BitVec.ofNat 64 (2 ^ 15 + 2 ^ 22 + 5 * 2 ^ 16 + 3 * 2 ^ 13) }).writeMem
    dramBase record5

theorem test_intake : queued.Awake ∧ queued.intakeDue = some 0 ∧ queued.queueLesson 0 = some (key5, lessonAt image)
    ∧ queued.intakeNext 0 = some (1, false) ∧ queued.nextTag = some 0 ∧ queued.qRead 0 (queued.queue 0).cons = (queued, some record5)
    ∧ (resident image).intakeDue ≠ some 0 := by
  unfold State.Awake; decide +kernel

theorem test_seat : (withJob job5).Awake ∧ (withJob job5).regRunning = true ∧ (withJob job5).lesson? key5 = some (lessonAt image)
    ∧ (withJob job5).sliceStopped 5 = false ∧ (withJob job5).bestJob key5 (lessonAt image) = some (9, job5, none, [(0, 0)])
    ∧ (resident image).bestJob key5 (lessonAt image) = none := by
  unfold State.Awake; decide +kernel

/-- The job has run on Seat 0 to its END; or its fallback has, of Lesson 8, on Seat 0. -/
def ended (j : Job) (fb : Bool) : State :=
  let s := ((withJob j).setLesson (lessonKey 5 8) { lessonAt image with id := 8 }).setSeatState 0 1
  s.setSeat 0 { s.seat 0 with job := some ⟨false, 9, fb, 0⟩, ended := true }
def runningJob : Job := { job5 with state := 2, seats := [(0, 0)] }
def fallbackJob : Job := { job5 with state := 2, origStopped := true, fb := some ⟨lessonKey 5 8, [(0, 0)], false⟩ }

theorem test_commit : (ended runningJob false).Awake ∧ (ended runningJob false).originalReady 9 runningJob = true
    ∧ (ended fallbackJob true).originalReady 9 fallbackJob = false ∧ (ended fallbackJob true).fallbackReady 9 fallbackJob = true
    ∧ (ended runningJob true).originalReady 9 runningJob = false ∧ (ended runningJob true).fallbackReady 9 runningJob = false
    ∧ (ended runningJob false).job? 9 = some runningJob := by
  unfold State.Awake; decide +kernel

/-- Completion queue 57480 with room, and full. -/
def withCq (prod : Nat) (s : State) : State :=
  s.setQueue 57480 { QRec.zero.allotted 5 2 with base := dramBase, prod := prod, cfg := BitVec.ofNat 64 (2 ^ 15 + 2 ^ 22 + 5 * 2 ^ 16 + 2 * 2 ^ 13) }
def doneJob : Job := { job5 with state := 4 }

theorem test_completion : (withCq 0 (withJob doneJob)).Awake ∧ (withCq 0 (withJob doneJob)).job? 9 = some doneJob
    ∧ (withCq 0 (withJob doneJob)).plan.copies.contains 9 = false ∧ (withCq 0 (withJob doneJob)).cqRoom 57480 = true
    ∧ ((withCq 0 (withJob doneJob)).queue 57480).size 57480 = 1
    ∧ (withCq 1 (withJob doneJob)).cqRoom 57480 = false := by
  unfold State.Awake; decide +kernel

/-- ABORT of the job by its handle, of a free tag, of a job of another slice, and of one that has committed. -/
def aborting (s : State) : State := asked { s with reg := { s.reg with gens := [(9, 1)] } } 5 (requestOf 0x0012 0 5 1033 []) []

theorem test_abort : ∀ s ∈ [withJob job5, resident image, withJob { job5 with slice := 6 }, withJob doneJob],
    isDue (aborting s) 5 0x0012 (requestOf 0x0012 0 5 1033 []) [] = true
    ∧ Table.get (served (aborting s) 5 (requestOf 0x0012 0 5 1033 [])).reg.gens 0 9 = 1 := by
  decide +kernel

/-- A job with a deadline at 9 us and ARM at 4 us: QUEUED without and with a fallback, and one that has run far enough. -/
def armedJob : Job := { job5 with flags := 1, deadline := 9000, arm := 4000, armed := true }
def at_ (now : Nat) (s : State) : State := { s with clock := ⟨now, 0, true, now⟩ }
def withFallback : State :=
  at_ 4000 (((((resident (imageOf 1 7 8 0 1 0 0 0)).setLesson (lessonKey 5 8)
    { lessonAt (imageOf 1 8 0 0 1 0 0 0) with id := 8, queueFirst := 1, cqFirst := 57481 })).setJob 9 armedJob))
def wellRun : State := at_ 4000 (((withJob { armedJob with state := 2, seats := [(0, 0)], firstIssue := some 1000 }).wr (CLC_SEAT_PROGRESS.PROGRESS 0 0) 65535))

theorem test_bell : (at_ 4000 (withJob armedJob)).Awake ∧ (at_ 4000 (withJob armedJob)).job? 9 = some armedJob
    ∧ (at_ 3999 (withJob armedJob)).clock.now < armedJob.arm ∧ armedJob.arm ≤ (at_ 4000 (withJob armedJob)).clock.now
    ∧ (at_ 4000 (withJob armedJob)).missPredicted armedJob = true ∧ (at_ 4000 (withJob armedJob)).fallbackFor armedJob = none
    ∧ (withFallback.fallbackFor armedJob).map (fun p => (p.1, p.2.2)) = some (lessonKey 5 8, [(0, 0)])
    ∧ wellRun.missPredicted { armedJob with state := 2, seats := [(0, 0)], firstIssue := some 1000 } = false
    ∧ armedJob.abortAtDeadline = false ∧ { armedJob with flags := 3 }.abortAtDeadline = true
    ∧ armedJob.deadline ≤ (at_ 9000 (withJob armedJob)).clock.now := by
  unfold State.Awake; decide +kernel

/-- A SEQUENCE Lesson of slice 5 with batches of 2 and 8 entries; entry 3 of it in a state. -/
def sequence : List Byte := imageOf 1 7 0 2 1 2 8 0
def entryOf (st : Nat) : RosterEntry := ⟨st, 5, 7, 0, 0, 0, 11, 1, true, false, 0, 0xC, 0⟩
def inRoster (st : Nat) : State := (resident sequence).setEntry 3 (entryOf st)
def addBytes (flags : Nat) : List Byte := leBytes 8 7 ++ leBytes 4 0xC ++ leBytes 4 11 ++ leBytes 2 1 ++ leBytes 2 0 ++ leBytes 4 flags

theorem test_seq_add : ∀ p ∈ [(0, 8), (1, 0)], isDue (asked ((resident sequence).setSlice 5 { home.slice 5 with roster := p.2 }) 5
      (requestOf 0x0020 0 5 0 (addBytes p.1)) (addBytes p.1)) 5 0x0020 (requestOf 0x0020 0 5 0 (addBytes p.1)) (addBytes p.1) = true
    ∧ ((resident sequence).setSlice 5 { home.slice 5 with roster := p.2 }).rosterLeft 5 = p.2
    ∧ (resident sequence).lesson? (lessonKey 5 (leAt (addBytes p.1) 0 8)) = some (lessonAt sequence) ∧ imSequence sequence = true
    ∧ leAt (addBytes p.1) 20 4 < 2 ∧ (inRoster 1).homeGroup (lessonAt sequence) = 0
    ∧ (List.range (ceilDiv (imSeqMax sequence) (lessonAt sequence).groups)).find? (fun k =>
      !((((inRoster 1).entriesOf (lessonAt sequence)).filter (fun q => q.2.group = 0)).map (·.2.slot)).contains k) = some 1 := by
  decide +kernel

theorem test_seq_requests : ∀ op ∈ [0x0021, 0x0022], ∀ st ∈ [1, 2, 3],
    isDue (asked (inRoster st) 5 (requestOf op 0 5 3 []) []) 5 op (requestOf op 0 5 3 []) [] = true
    ∧ (inRoster st).namedEntry 5 (requestOf op 0 5 3 []) = some (3, entryOf st) ∧ (inRoster st).namedEntry 5 (requestOf op 0 5 4 []) = none := by
  decide +kernel

theorem test_step_build : (inRoster 1).Awake ∧ (inRoster 1).lesson? key5 = some (lessonAt sequence)
    ∧ ((inRoster 1).readyEntries (lessonAt sequence) 0).take (imBatch sequence) = [(3, entryOf 1)]
    ∧ (inRoster 2).readyEntries (lessonAt sequence) 0 = [] ∧ (inRoster 1).sliceStopped 5 = false
    ∧ ((inRoster 1).groupFree (lessonAt sequence) 0).isSome = true ∧ (inRoster 1).tagsFree 5 ≠ 0 ∧ (inRoster 1).nextTag = some 0 := by
  unfold State.Awake; decide +kernel

/-! ### Bridges, the Pair Link and the die links: witnesses -/

/-- Application core 0, Seat 0, and an address of Slate 15, on CD1; of the peripheral bus; of the Pair Link window. -/
def core0 : Initiator := ⟨.apc, 0, 0⟩
def far : Nat := slateAddr 15 0
def bridgeRead (after tag : Nat) (w : Initiator) (a : Nat) (kind : ReadKind) : BridgeRead := ⟨tag, w, a, a, 8, kind, after, 0, false, false⟩
def reading (b : Nat) (r : BridgeRead) (posted : List PostedWrite) : State :=
  { run.setBridge b { BridgeX.zero with reads := [r], posted := posted } with clock := ⟨100000, 0, true, 100000⟩ }
/-- A posted write of core 0, the bridge's number `n`, over link `k`, whose failure is known. -/
def postedBy (n k a reason : Nat) : PostedWrite := ⟨run.initId core0, 0, n, k, a, a, [1#8], reason⟩

/-- The last read tag of the link to CD1 through the Hub's bridge, and one of the Peripheral and the Pair Bridge. -/
theorem test_completion_of_read : ∀ b ∈ [0, 4, 1], (reading b (bridgeRead 0 (if b = 1 then 767 else 255) core0 far .bus) []).Awake
    ∧ ((reading b (bridgeRead 0 (if b = 1 then 767 else 255) core0 far .bus) []).bridge b).reads.find?
        (fun x => x.tag = (if b = 1 then 767 else 255)) = some (bridgeRead 0 (if b = 1 then 767 else 255) core0 far .bus) := by
  unfold State.Awake; decide +kernel

/-- A read that went out after two posted writes; it has timed out; Slate 15 is held by a march; CCC 8 reads the peripheral bus, over its Die Bridge. -/
def farRead : BridgeRead := bridgeRead 2 767 core0 far .bus
def marchFar (s : State) : State := s.setCluster 15 { s.cluster 15 with march := { (s.cluster 15).march with held := some (8, 0) } }
def cccFar : Initiator := ⟨.ccc, 8, 0⟩
def uartAt : Nat := 0x0F000000
def legged (late : Bool) : State :=
  (reading 0 (bridgeRead 0 255 cccFar uartAt .bus) []).setBridge 3 { BridgeX.zero with reads := [{ bridgeRead 0 0 cccFar uartAt (.leg 255) with timedOut := late }] }
theorem test_completion_way : (reading 1 farRead []).behindMessage 1 farRead = false
    ∧ (reading 1 farRead [postedBy 1 2 far 4]).behindMessage 1 farRead = true
    ∧ (reading 0 (bridgeRead 0 255 cccFar uartAt .bus) []).behindMessage 0 (bridgeRead 0 255 cccFar uartAt .bus) = false
    ∧ ((reading 1 farRead []).freeReadTagOf 1 farRead).memCheck ((reading 1 farRead []).ctx core0) far 8 false ≠ .waits
    ∧ ((marchFar (reading 1 farRead [])).freeReadTagOf 1 farRead).memCheck ((reading 1 farRead []).ctx core0) far 8 false = .waits
    ∧ { farRead with timedOut := true }.timedOut = true
    ∧ (∀ late, ∃ q ∈ ((legged late).bridge 3).reads, q.legOf (bridgeRead 0 255 cccFar uartAt .bus) = true ∧ q.timedOut = late) := by
  decide +kernel

/-- An atomic operation of the peripheral bus and of the partner. -/
theorem test_atomic_way : ∀ b ∈ [0, 4], (reading b (bridgeRead 0 255 core0 uartAt (.atomic .add (leBytes 8 1))) []).lapsedAt core0 uartAt = false
    ∧ (reading b (bridgeRead 0 255 core0 uartAt (.atomic .add (leBytes 8 1))) []).behindMessage b (bridgeRead 0 255 core0 uartAt (.atomic .add (leBytes 8 1))) = false := by
  decide +kernel

/-- The timeout after reset is met exactly. -/
theorem test_read_timeout : ∀ kind ∈ [ReadKind.bus, .barrier, .atomic .swap (leBytes 8 1)], run.rd (BRG_CTRL.READ_TIMEOUT_US 1) * 1000 = 100000
    ∧ ((reading 1 (bridgeRead 0 767 core0 far kind) []).bridge 1).reads.find? (fun x => x.tag = 767 && !x.timedOut && !x.squashed
        && (reading 1 (bridgeRead 0 767 core0 far kind) []).readOver 1 x) = some (bridgeRead 0 767 core0 far kind) := by
  decide +kernel

/-- The granule of `far` is locked through the Hub's bridge by core 0, or by core 1. -/
def locked (l : List BridgeLock) : State :=
  { run.setBridge 1 { BridgeX.zero with locks := l } with clock := ⟨2001, 0, true, 2001⟩ }
def lockOf (w : Initiator) : BridgeLock := ⟨run.initId w, far / 64, 0⟩
def crossingAt (r : Nat) : Crossing := ⟨r⟩

theorem test_lock_request : ∀ l ∈ [[], [lockOf core0], [lockOf ⟨.apc, 1, 0⟩]], (locked l).Awake ∧ lockWay 1 core0 far = true
    ∧ (locked l).lockShut 1 core0 far = false ∧ (locked l).lockWindow 1 core0 far = false
    ∧ ((locked l).freeReadTag 1 (linkOf 1 far)).isSome = true ∧ (locked l).losesCrossing 1 core0 far none = false
    ∧ (locked l).crossers 1 core0 far none = [] ∧ (locked l).retryWaits 1 core0 far = false
    ∧ (locked l).initId core0 = run.initId core0 ∧ granuleOf 1 far = far / 64 := by
  unfold State.Awake; decide +kernel

theorem test_lock_ways : run.initId core0 ≠ run.initId ⟨.apc, 1, 0⟩ ∧ run.winsCrossing 1 core0 (crossingAt 0) = false
    ∧ run.winsCrossing 1 core0 (crossingAt 1) = true ∧ { run with pwr := { run.pwr with linksUp := 0 } }.lockShut 1 core0 far = true
    ∧ lockWay 4 core0 pairBase = true := by
  decide +kernel

/-- Core 0 and CCC 8 ask for a granule of the other's die at the same moment: the Hub wins. Core 0 waits for the end of the sequence that it lost to; and
every read tag of the link is held. -/
def crossWon : State := run.setBridge 3 { BridgeX.zero with locks := [⟨run.initId cccFar, dramBase / 64, 0⟩] }
def crossLost : State := run.setBridge 1 { BridgeX.zero with locks := [⟨run.initId core0, far / 64, 0⟩] }
def retried : State := crossWon.setBridge 1 { BridgeX.zero with retry := [(lockOf core0, some (run.initId cccFar))] }
def noTag : State := run.setBridge 1 { BridgeX.zero with reads := (List.range 256).map (fun t => bridgeRead 0 (512 + t) core0 far .bus) }
theorem test_crossing : crossWon.crossers 1 core0 far none = [⟨run.initId cccFar, dramBase / 64, 0⟩] ∧ crossWon.losesCrossing 1 core0 far none = false
    ∧ run.initId cccFar ≠ run.initId core0 ∧ lockWay 3 cccFar dramBase = true ∧ crossLost.lockShut 3 cccFar dramBase = false
    ∧ (crossLost.freeReadTag 3 (linkOf 3 dramBase)).isSome = true ∧ crossLost.losesCrossing 3 cccFar dramBase none = true
    ∧ retried.retryWaits 1 core0 far = true ∧ noTag.freeReadTag 1 (linkOf 1 far) = none := by
  decide +kernel

/-- The limit of a Die Bridge has passed, and has not by a nanosecond. -/
theorem test_lock_timeout : (locked [lockOf core0]).Awake ∧ ((locked [lockOf core0]).bridge 1).locks = lockOf core0 :: []
    ∧ (lockOf core0).since + lockLimit 1 < (locked [lockOf core0]).clock.up
    ∧ { locked [lockOf core0] with clock := ⟨2000, 0, true, 2000⟩ }.clock.up ≤ (lockOf core0).since + lockLimit 1 := by
  unfold State.Awake; decide +kernel

def polled : State := { run with boot := { run.boot with limpNoted := true } }
theorem test_sideband : run.Awake ∧ run.bridgeOn 0 = true ∧ run.msgMode 0 = true ∧ polled.Awake ∧ polled.bridgeOn 0 = true
    ∧ polled.msgMode 0 = false ∧ run.boot.strapEn = false := by
  unfold State.Awake; decide +kernel

/-- A posted write over a Die Bridge has failed; the log has room for one more, or is full. -/
def failing (entries : Nat) : State := (reading 1 (bridgeRead 0 767 core0 far .barrier) [postedBy 1 2 far 4]).wr (BRG_BARRIER.ENTRIES 1) entries

theorem test_posted_error : ∀ n ∈ [63, 64], (failing n).Awake ∧ (failing n).bridgeOn 1 = true ∧ (failing n).rd (BRG_BARRIER.ENTRIES 1) = n
    ∧ (failing n).underTest srcDbrgPosted = false
    ∧ ((failing n).bridge 1).posted.find? (fun p => p.init = (failing n).initId core0 && p.num % 256 = (1#8 : Byte).toNat && p.addr = far)
        = some (postedBy 1 2 far 4)
    ∧ ((failing n).bridge 1).posted.find? (fun p => p.init = (failing n).initId core0 && p.num % 256 = (2#8 : Byte).toNat && p.addr = far) = none := by
  unfold State.Awake; decide +kernel

def barred (posted : List PostedWrite) : State :=
  run.setBridge 1 { BridgeX.zero with posted := posted, barriers := [run.initId core0], reads := [bridgeRead 2 256 core0 (BRG_BARRIER 1).addr .barrier] }
/-- A second failed write follows the first on its link; on the peripheral bus it shows that the first has been performed. -/
def second (k a : Nat) : PostedWrite := postedBy 2 k a 4
theorem test_message_order : ((reading 1 farRead [postedBy 1 2 far 4, second 2 far]).bridge 1).posted.find? (fun p =>
      p.init = run.initId core0 && p.num % 256 = (2#8 : Byte).toNat && p.addr = far) = some (second 2 far)
    ∧ (postedBy 1 2 far 4).link = (second 2 far).link ∧ (postedBy 1 2 far 4).num < (second 2 far).num
    ∧ ((reading 0 farRead [postedBy 1 0 uartAt 0, second 0 uartAt]).bridge 0).posted.find? (fun p =>
      p.init = run.initId core0 && p.num % 256 = (2#8 : Byte).toNat && p.addr = uartAt) = some (second 0 uartAt)
    ∧ run.bridgeOn 0 = true ∧ (second 0 uartAt).reason = 4 := by
  decide +kernel

theorem test_barrier_read : run.Awake ∧ run.Reaches core0 .brg_barrier 1 0 false ∧ (run.bridge 1).barriers.contains (run.initId core0) = false
    ∧ (∀ k ∈ linksOf 1, (run.freeReadTag 1 k).isSome = true) ∧ run.bridgeOn 4 = false ∧ run.bridgeOn 1 = true ∧ 2 ∈ linksOf 1 ∧ noTag.freeReadTag 1 2 = none ∧ ((barred []).bridge 1).barriers.contains ((barred []).initId core0) = true
    ∧ (barred []).barrierHeld 1 ((barred []).initId core0) = false
    ∧ (barred [postedBy 1 2 far 4]).barrierHeld 1 ((barred [postedBy 1 2 far 4]).initId core0) = true := by
  unfold State.Awake State.Reaches; decide +kernel

theorem test_bridge_registers : run.Reaches secCoreFw .brg_pel_status 4 0 true ∧ run.Reaches secCoreFw .brg_status 4 0 false
    ∧ run.Reaches secCoreFw .brg_pel_status 4 0 false ∧ bit (1#64 : Word).toNat 0 = true := by
  unfold State.Reaches; decide +kernel

/-- A paired device with the partner authenticated; outbound window 0 of 1 MiB at the start, to the partner's LPDDR5X. -/
def paired : State :=
  let s := { run with boot := { run.boot with strapEn := true }, pair := { run.pair with trained := true },
                      sec := { run.sec with pairAuth := true } }
  (((s.wr (PAIR_OUT_CFG.ENABLE 0) 1).wr (PAIR_OUT_CFG.OFFSET_1M 0) 0).wr (PAIR_OUT_CFG.SIZE_1M 0) 1).wr
    (PAIR_OUT_REMOTE.REMOTE 0) (dramBase / 0x100000)
def outCfg (offset size : Nat) : Nat := 2 ^ 63 + size * 2 ^ 16 + offset

/-- The next MiB is free for a window, up to the end of the space; one that overlaps or is too long is refused. -/
theorem test_window : paired.Awake ∧ paired.Reaches secCoreFw .pair_out_cfg 1 0 true ∧ paired.Reaches secCoreFw .pair_out_remote 7 0 true
    ∧ paired.Reaches secCoreFw .pair_in_base 7 0 true ∧ paired.Reaches secCoreFw .pair_in_cfg 7 0 true
    ∧ ∀ p ∈ [(1, 65535, true), (0, 1, false), (1, 65536, false), (1, 0, false)],
      windowOk (bits (outCfg p.1 p.2.1) 15 0 * 0x100000, bits (outCfg p.1 p.2.1) 32 16 * 0x100000) 0x1000000000
        (paired.otherWindows 1 PAIR_OUT_CFG.ENABLE paired.outRange) = p.2.2 ∧ bit (outCfg p.1 p.2.1) 63 = true := by
  unfold State.Awake State.Reaches; decide +kernel

/-- The last 8 bytes of the window, and 8 bytes that it covers in part. -/
theorem test_outbound : placeOf paired.pins.fittedMiB (pairBase + 0xFFFF8) = .pairWin 0xFFFF8 ∧ paired.outTarget 0xFFFF8 8 = some (dramBase + 0xFFFF8)
    ∧ paired.outTarget 0xFFFFC 8 = none ∧ paired.reachable (startDie core0) (pairBase + 0xFFFF8) = true
    ∧ paired.held core0 (pairBase + 0xFFFF8) 8 true = false ∧ paired.held core0 (pairBase + 0xFFFF8) 8 false = false ∧ paired.pairAvail = true
    ∧ paired.freeReadTag 4 0 = some 0 ∧ core0.kind ≠ .pair ∧ startDie core0 = 0 := by
  decide +kernel

/-- Core 0 holds the lock of the granule, with a reservation or without, or its lock has lapsed. -/
def pairLocked (resv : Bool) : State :=
  let s := paired.setBridge 4 { BridgeX.zero with locks := [⟨paired.initId core0, (pairBase + 0xFFFF8) / 64, 0⟩] }
  if resv then s.reserve core0 (pairBase + 0xFFFF8) else s
def pairLapsed : State := paired.setBridge 4 { BridgeX.zero with lapsed := [⟨paired.initId core0, (pairBase + 0xFFFF8) / 64, 0⟩] }

theorem test_exclusive : ∀ resv, (pairLocked resv).holdsLocks core0 (pairBase + 0xFFFF8) = true ∧ (pairLocked resv).lapsedAt core0 (pairBase + 0xFFFF8) = false
    ∧ (pairLocked resv).held core0 (pairBase + 0xFFFF8) 8 true = false ∧ (pairLocked resv).reserved? core0 (pairBase + 0xFFFF8) = resv
    ∧ (pairLocked resv).freeReadTag 4 0 = some 0 ∧ paired.holdsLocks core0 (pairBase + 0xFFFF8) = false
    ∧ pairLapsed.lapsedAt core0 (pairBase + 0xFFFF8) = true ∧ pairLapsed.held core0 (pairBase + 0xFFFF8) 8 true = false := by
  decide +kernel

def unpaired : State := { paired with pair := { paired.pair with trained := false } }

theorem test_pair_link : paired.Awake ∧ paired.pair.trained = true ∧ unpaired.boot.strapEn = true ∧ unpaired.pair.trained = false
    ∧ unpaired.pairAvail = false ∧ unpaired.rd (BRG_BARRIER.ENTRIES 4) < 64 ∧ unpaired.pair.allowanceOver = false
    ∧ { unpaired with clock := ⟨0, 0, true, 500000000⟩ }.passed 0 (unpaired.rd PAIR_ALIVE.START_10MS * 10000000) = true
    ∧ { unpaired with pair := { unpaired.pair with edgeSeen := true }, clock := ⟨0, 0, true, 5000000⟩ }.passed 0
        (unpaired.rd PAIR_ALIVE.TIMEOUT_US * 1000) = true := by
  unfold State.Awake; decide +kernel

theorem test_die_links : up.Awake ∧ bit up.pwr.linksUp 0 = true ∧ bit up.pwr.linksUp 1 = true ∧ bit up.pwr.linksUp 2 = true
    ∧ bit { up with pwr := { up.pwr with linksUp := 0 } }.pwr.linksUp 2 = false ∧ (up.die 0).powered = true ∧ (up.die 1).powered = true := by
  unfold State.Awake; decide +kernel

/-! ### Queues, the gateway and time: witnesses -/

/-- QMGR_QCFG that enables a ring of 16 entries, disables it, or leaves it on. -/
def ringOn : Nat := 2 ^ 15 + 4 * 2 ^ 8
/-- Initiator secCore selects queue `n`, which is as given. -/
def selecting (n : Nat) (q : QRec) : State := { run.setQueue n q with qsel := [(run.qParty secCoreFw, n)] }
def greedy : QRec := { QRec.zero with minCells := 65535, maxCells := 65535 }
/-- The pool with nothing left: port 0 holds one cell beside. -/
def scarce : State := (selecting 32768 greedy).wr (GW_PORT_CFG.ENABLE 0) 1

theorem test_qcfg : run.Awake ∧ run.Reaches secCoreFw .qmgr_qcfg 0 0 true ∧ run.Reaches secCoreFw .qmgr_qcfg 0 0 false
    ∧ (selecting 32768 greedy).qSelected secCoreFw = 32768 ∧ isNetQueue 32768 = true ∧ isNetQueue 57344 = false ∧ isNetQueue 32767 = false
    ∧ bit ringOn 15 = true ∧ (scarce.queue 32768).enabled = false ∧ 65536 < scarce.reservedBut 32768 14 + (scarce.queue 32768).minCells := by
  unfold State.Awake State.Reaches; decide +kernel

/-- Work queue 8 of the firmware, of 16 entries, with 15 of them filled; mailbox 67 of the Security Core. -/
def belled (cfg : Nat) : State :=
  (run.setQueue 8 { QRec.zero with base := dramBase, cfg := BitVec.ofNat 64 cfg, prod := 15 }).setQueue (reqQueue 67)
    { QRec.zero with base := dramBase, cfg := BitVec.ofNat 64 ringOn, prod := 2 ^ 32 - 1, cons := 2 ^ 32 - 1 }

/-- The last entry can be announced, a further one cannot; nobody else may; the mailbox's count wraps. -/
theorem test_doorbell : (belled ringOn).Awake ∧ (belled ringOn).Reaches secCoreFw .qmgr_doorbell 0 0 true ∧ (belled ringOn).qmgrUp = true
    ∧ (belled ringOn).bellRefused secCoreFw 8 false 16 = none ∧ (belled ringOn).bellRefused secCoreFw 8 false 17 = some 5
    ∧ (belled ringOn).bellRefused core0 8 false 16 = some 5 ∧ isMladnel 8 = false ∧ isMladnel (reqQueue 67) = true
    ∧ (belled ringOn).bellRefused secCoreFw (reqQueue 67) false 0 = none ∧ reqQueue 67 % 2 = 0 ∧ startDie secCoreFw = 0
    ∧ { belled ringOn with pwr := { (belled ringOn).pwr with stopped := [16] } }.qmgrUp = false := by
  unfold State.Awake State.Reaches; decide +kernel

/-- Host transmit queue 33024 holds the entry `e`; port 1 is up, and its queue of class 0 takes frames. -/
def txEntry (len : Nat) (flags : Nat) : List Byte :=
  leBytes 8 (dramBase + 4096) ++ leBytes 2 len ++ leBytes 1 1 ++ leBytes 1 0 ++ leBytes 1 flags ++ List.replicate 19 0#8
def netQueue : QRec := { QRec.zero with cfg := BitVec.ofNat 64 ringOn, maxCells := 100 }
def portUp (p : Nat) (s : State) : State := ((s.wr (GW_PORT_CFG.ENABLE p) 1).wr (GW_PORT_CFG.LINK p) 1).wr (GW_PORT_CFG.MTU p) 1518
def sending (e : List Byte) : State :=
  ((((portUp 1 ready).setQueue (ethQueue 1 0) netQueue).setQueue 33024
    { QRec.zero with base := dramBase, cfg := BitVec.ofNat 64 (ringOn + 8 + 2 * 2 ^ 13), prod := 1 }).writeMem dramBase e)
def afterEntry (e : List Byte) : State := ((sending e).qRead 33024 0).1

/-- The shortest frame, with and without a timestamp, and one too short by a byte. -/
theorem test_host_tx : ∀ p ∈ [(14, 1, true), (14, 3, true), (13, 1, false)], (sending (txEntry p.1 p.2.1)).Awake
    ∧ (sending (txEntry p.1 p.2.1)).gwUp = true ∧ isHostQueue 33024 = true ∧ ((sending (txEntry p.1 p.2.1)).queue 33024).enabled = true
    ∧ ((sending (txEntry p.1 p.2.1)).queue 33024).hostTx = true ∧ ((sending (txEntry p.1 p.2.1)).queue 33024).occupancy ≠ 0
    ∧ Table.get (sending (txEntry p.1 p.2.1)).gw.txWait [] 33024 = [] ∧ (sending (txEntry p.1 p.2.1)).qReadWaits 33024 0 = false
    ∧ ((sending (txEntry p.1 p.2.1)).qRead 33024 0).2 = some (txEntry p.1 p.2.1) ∧ txEntryOk (txEntry p.1 p.2.1) = p.2.2
    ∧ bit (leAt (txEntry p.1 p.2.1) 12 1) 0 = true ∧ txIsCan (txEntry p.1 p.2.1) = false
    ∧ (afterEntry (txEntry p.1 p.2.1)).ctxWaits ((sending (txEntry p.1 p.2.1)).queue 33024).devCtx (dramBase + 4096) p.1 false = false
    ∧ ((afterEntry (txEntry p.1 p.2.1)).ctxRead ((sending (txEntry p.1 p.2.1)).queue 33024).devCtx (dramBase + 4096) p.1).2.isSome = true
    ∧ (sending (txEntry p.1 p.2.1)).portTakes 1 = true ∧ (sending (txEntry p.1 p.2.1)).admits (ethQueue 1 0) hostCells = true := by
  unfold State.Awake; decide +kernel

/-- A classification entry: key type and port, VID or CAN flags, address or identifier, masks, host queue, class and action, flags. -/
def gctEntry (kind port vid : Nat) (key : List Byte) (eth can act flags : Nat) : List Byte :=
  leBytes 1 (2 * kind) ++ leBytes 1 port ++ leBytes 2 vid ++ key ++ leBytes 2 0 ++ leBytes 2 eth ++ leBytes 2 can ++ leBytes 2 0
    ++ leBytes 1 act ++ leBytes 1 flags ++ leBytes 2 0xFFFF ++ leBytes 2 0xFFFF ++ leBytes 8 0
def dest : List Byte := [0x02#8, 1#8, 2#8, 3#8, 4#8, 5#8]
/-- GW_GCT_DATA0-3 hold the entry `e`; bank `b` holds the entries `l`. -/
def gctHolds (b : Nat) (l : List (List Byte)) (e : List Byte) : State :=
  let s := (List.range 4).foldl (fun (u : State) k => u.setReg64 (GW_GCT_DATA k) (leAt e (8 * k) 8)) ready
  s.each l (fun u x => (u.gctPlace b x).1)
def fwdEntry : List Byte := gctEntry 0 0xFF 0 dest 2 0 0 0
def goOp (op : Nat) : Nat := 2 ^ 63 + op * 2 ^ 60

theorem test_gct : (gctHolds 1 [] fwdEntry).Awake ∧ (gctHolds 1 [] fwdEntry).Reaches secCoreFw .gw_gct_ctrl 0 0 true
    ∧ (gctHolds 1 [] fwdEntry).activeBank = 0 ∧ (gctHolds 1 [] fwdEntry).gctData = fwdEntry ∧ entryOk fwdEntry = true
    ∧ (gctHolds 1 [] fwdEntry).keyIndex 1 (keyOf fwdEntry) = none ∧ ((gctHolds 1 [] fwdEntry).freeWay 1 (keyOf fwdEntry)).isSome = true
    ∧ ((gctHolds 1 [fwdEntry] fwdEntry).keyIndex 1 (keyOf fwdEntry)).isSome = true ∧ entryOk (gctEntry 0 0xFF 4096 dest 2 0 0 0) = false
    ∧ (gctHolds 1 [] fwdEntry).gw.copyBusy = false ∧ (∀ op < 5, bit (goOp op) 63 = true ∧ bits (goOp op) 62 60 = op)
    ∧ (gctHolds 1 [] fwdEntry).gctCopyOp.gw.copyBusy = true := by
  unfold State.Awake State.Reaches; decide +kernel

/-- A bucket whose four ways hold other entries. -/
def fullBucket : State :=
  let k := bucketOf (keyOf fwdEntry)
  { gctHolds 1 [] fwdEntry with
    gw := { ready.gw with bank1 := (List.range 4).map (fun w => (4 * k + w, gctEntry 0 w 1 dest 2 0 0 0)) } }

theorem test_gct_full : fullBucket.keyIndex 1 (keyOf fwdEntry) = none ∧ fullBucket.freeWay 1 (keyOf fwdEntry) = none
    ∧ fullBucket.gctData = fwdEntry := by
  decide +kernel

def gatewayContent : GatewayContent := content [] []
def afterGateway : State := { ready with boot := { ready.boot with gwDone := true } }
theorem test_gateway_image : ready.Awake ∧ ready.scRunning = true ∧ ready.boot.gwDone = false ∧ ready.rootOk .viforik = true
    ∧ ready.rootOk (.owner 0) = false ∧ afterGateway.boot.gwDone = true ∧ ready.underTest srcFwAuthFail = false := by
  unfold State.Awake; decide +kernel

/-- Frames from port 0 to an address that goes to port 1, class 0; CAN frames with identifier 5 go from controller 0 to controller 15. -/
def frame0 : EthFrame := ⟨dest ++ List.replicate 8 0#8, true⟩
def can0 : CanFrame := canOf 5 false false false 8
def canKeyBytes : List Byte := leBytes 4 5 ++ leBytes 2 0
def canEntry : List Byte := gctEntry 1 0xFF 0 canKeyBytes 0 0x8000 0 0
def forwarding (eth can : List (List Byte)) : State :=
  let s := (eth ++ can).foldl (fun (u : State) x => (u.gctPlace 0 x).1) (portUp 0 (portUp 1 ready))
  let t := (s.setQueue (ethQueue 1 0) netQueue).setQueue (canQueue 15 0) netQueue
  { t with gw := { t.gw with canOn := [0, 15] } }
def dropEntry : List Byte := gctEntry 0 0xFF 0 dest 2 0 8 0
def found (e : List Byte) : State × Option (List Byte) :=
  (((forwarding [e] []).mibRx 0 18 false).markWays goodVerdict.wayUe).lookup (fun k => ethKey k frame0.bytes (vidOf frame0.bytes)) 0
def canFound (l : List (List Byte)) : State × Option (List Byte) :=
  (((forwarding [] l).mibRx 16 8 false).markWays goodVerdict.wayUe).lookup (fun n => canKey n can0) 16

theorem test_eth_receive : ∀ e ∈ [fwdEntry, dropEntry], (forwarding [e] []).Awake ∧ (forwarding [e] []).ethUp 0 = true
    ∧ (forwarding [e] []).portTakes 0 = true ∧ 14 ≤ frame0.bytes.length ∧ frame0.bytes.length + 4 ≤ (forwarding [e] []).rd (GW_PORT_CFG.MTU 0)
    ∧ goodVerdict.cellUe = false ∧ (found e).2 = some (validEntry e) ∧ ((found e).1.policed (validEntry e) goodVerdict).2 = true
    ∧ (eAction (validEntry e) = 1 ↔ e = dropEntry) ∧ entryOk (validEntry fwdEntry) = true ∧ eFlag (validEntry fwdEntry) 0 = false
    ∧ eFlag (validEntry fwdEntry) 2 = false ∧ frame0.fcsOk = true := by
  unfold State.Awake; decide +kernel

theorem test_can_receive : (forwarding [] [canEntry]).Awake ∧ (forwarding [] [canEntry]).canUp = true
    ∧ (forwarding [] [canEntry]).gw.canOn.contains 0 = true ∧ (forwarding [] [canEntry]).gw.busOff.contains 0 = false
    ∧ (canFound []).2 = none ∧ (canFound [canEntry]).2 = some (validEntry canEntry)
    ∧ ((canFound [canEntry]).1.policed (validEntry canEntry) goodVerdict).2 = true ∧ eAction (validEntry canEntry) ≠ 1
    ∧ entryOk (validEntry canEntry) = true := by
  unfold State.Awake; decide +kernel

/-- Port 1 holds an Ethernet frame for class 7, whose FCS is as given; controller 15 holds a CAN frame. -/
def holding (fcs : Bool) : State :=
  let s := ((portUp 0 (portUp 1 ready)).setHeld (ethQueue 1 7) [3]).setHeld (canQueue 15 3) [4]
  { s.wr (GW_PORT_CFG.CUT_THROUGH 0) 1 with gw := { s.gw with
    canOn := [15], frames := [(3, ethFrame frame0.bytes 0 0 false fcs none), (4, canFrame can0 16 0 false none)] } }

theorem test_transmit : ∀ fcs, (holding fcs).Awake ∧ (holding fcs).ethUp 1 = true ∧ (holding fcs).portTakes 1 = true
    ∧ (holding fcs).heldBy (ethQueue 1 7) = 3 :: [] ∧ (holding fcs).frame? 3 = some (ethFrame frame0.bytes 0 0 false fcs none)
    ∧ (holding fcs).cutPorts 0 1 = true ∧ (holding fcs).canUp = true ∧ (holding fcs).gw.canOn.contains 15 = true
    ∧ (holding fcs).gw.busOff.contains 15 = false ∧ (holding fcs).canHead 15 = some (5, canQueue 15 3, 4)
    ∧ (holding fcs).frame? 4 = some (canFrame can0 16 0 false none) := by
  unfold State.Awake; decide +kernel

theorem test_gateway_off : { ready with pwr := { ready.pwr with stopped := [18, 21] } }.ethUp 1 = false
    ∧ { ready with pwr := { ready.pwr with stopped := [18, 21] } }.canUp = false ∧ ready.Reaches secCoreFw .gw_port_cfg 13 0 true
    ∧ 64 ≤ bits (9216 * 2 ^ 36) 49 36 ∧ bits (9216 * 2 ^ 36) 49 36 ≤ 9216 := by
  unfold State.Reaches; decide +kernel

/-- Vehicle Time disciplined, in a state of the time unit. -/
def timed (st : Nat) (step : Nat) : State := ((run.wr TIME_CTRL.SYNC_EN 1).wr TIME_STATUS.STATE st).wr TIME_CTRL.INIT_STEP step

theorem test_sync : ∀ st ∈ [tsUnsynced, tsLocked, tsHoldover, tsCatchup], (timed st 1).Awake ∧ (timed st 1).on TIME_CTRL.SYNC_EN = true
    ∧ (timed st 1).rd TIME_STATUS.STATE = st ∧ st ≠ tsGrandmaster ∧ (timed st 1).on TIME_CTRL.INIT_STEP = true
    ∧ (timed st 0).on TIME_CTRL.INIT_STEP = false ∧ (timed st 1).Reaches secCoreFw .time_ctrl 0 0 true
    ∧ (timed st 1).rd TIME_CTRL.JUMP_THR_US = 1000 := by
  unfold State.Awake State.Reaches; decide +kernel

/-- Output 7 with a width and a period; its settings as a write of TIME_TTO7_CFG, ENABLE set. -/
def ttoCfg (width period : Nat) : Nat := 1 + width * 2 ^ 4 + period * 2 ^ 32
def ttoState (start now : Nat) : State := { run.wr (TIME_TTO_START.START 7) start with clock := ⟨now, 0, true, now⟩ }
def ttoSet (w : Nat) : State :=
  (ttoState 0 0).plainWrite (TIME_TTO_CFG 7) (RegFam.fields .time_tto_cfg) false w (fun x k => if x.lo = 4 then k ≠ 0 else x.lo ≠ 0)
def ttoOn : State := { (ttoState 1000 1000).wr (TIME_TTO_CFG.ENABLE 7) 1 with time := { run.time with next := [(7, 1000)] } }

theorem test_tto : (ttoState 1000 0).Awake ∧ (ttoState 1000 0).Reaches secCoreFw .time_tto_cfg 7 0 true
    ∧ (ttoState 1000 0).on (TIME_TTO_CFG.ENABLE 7) = false ∧ (ttoState 1000 0).clock.now + 1000 ≤ (ttoState 1000 0).rd (TIME_TTO_START.START 7)
    ∧ (ttoState 1000 1).rd (TIME_TTO_START.START 7) < (ttoState 1000 1).clock.now + 1000
    ∧ ttoOn.on (TIME_TTO_CFG.ENABLE 7) = true ∧ Table.find ttoOn.time.next 7 = some 1000 ∧ bit (1#64 : Word).toNat 0 = true := by
  unfold State.Awake State.Reaches; decide +kernel

theorem test_tto_settings : ∀ p ∈ [(10, 0), (10, 11)], bit (ttoCfg p.1 p.2) 0 = true ∧ (ttoSet (ttoCfg p.1 p.2)).rd (TIME_TTO_CFG.WIDTH_NS 7) = p.1
    ∧ (ttoSet (ttoCfg p.1 p.2)).rd (TIME_TTO_CFG.PERIOD_NS 7) = p.2 := by
  decide +kernel

/-- A queue of the host on a pool that has room for its minimum and a frame; and the ring of a transmit queue where no memory is. -/
def roomy : QRec := { QRec.zero with minCells := 100, maxCells := 200 }
theorem test_qcfg_fits : ∀ n ∈ [32768, 33024], (selecting n roomy).qSelected secCoreFw = n ∧ isNetQueue n = true
    ∧ ((selecting n roomy).queue n).enabled = false ∧ isHostQueue 33024 = true
    ∧ (selecting n roomy).reservedBut n 14 + ((selecting n roomy).queue n).minCells + (if isHostQueue n then hostCells else 0) ≤ 65536 := by
  decide +kernel
def noRing : State :=
  ((portUp 1 ready).setQueue 33024 { QRec.zero with base := 0x800000000000, cfg := BitVec.ofNat 64 (ringOn + 8 + 2 * 2 ^ 13), prod := 1 })
theorem test_host_tx_unread : noRing.Awake ∧ noRing.gwUp = true ∧ (noRing.queue 33024).enabled = true ∧ (noRing.queue 33024).hostTx = true
    ∧ (noRing.queue 33024).occupancy ≠ 0 ∧ Table.get noRing.gw.txWait [] 33024 = [] ∧ noRing.qReadWaits 33024 0 = false
    ∧ (noRing.qRead 33024 0).2 = none := by
  unfold State.Awake; decide +kernel

/-- An image with time settings of a grandmaster. -/
def masterContent : GatewayContent := { content [] [] with time := ⟨true, true, [(3, 50)]⟩ }
theorem test_gateway_time : masterContent.time.syncEn = true ∧ masterContent.time.master = true := by decide

/-- The turn of class 7 is there, of the empty class 0 it is not; a copy of frame 3 that goes cut-through, and one that does not. -/
def cutting (cut : List Nat) : State :=
  let s := holding true
  { s with gw := { s.gw with frames := [(3, { ethFrame frame0.bytes 0 0 false true none with copies := [ethQueue 1 7], cut := cut })] } }
theorem test_turn : ∀ c ∈ [[], [ethQueue 1 7]], (cutting c).Awake ∧ (cutting c).ethUp 1 = true ∧ (cutting c).portTakes 1 = true
    ∧ (cutting c).classTurn 1 7 = true ∧ (cutting c).classTurn 1 0 = false
    ∧ (cutting c).heldBy (ethQueue 1 7) = 3 :: []
    ∧ (cutting c).frame? 3 = some { ethFrame frame0.bytes 0 0 false true none with copies := [ethQueue 1 7], cut := c } := by
  unfold State.Awake; decide +kernel

/-- The gate control list of port 13, of two entries, which waits for its start or is in one of them. -/
def gateList : GateList := ⟨1000, 500, [(0xFF#8, 300), (1#8, 200)]⟩
def gated (now : Nat) (place : Option (Nat × Nat × Nat)) : State :=
  let s := at_ now ready
  { s with gw := { s.gw with gates := [(13, ⟨gateList, 1000, place⟩)] } }
theorem test_gates : ∀ p ∈ [(999, none), (1000, none), (1299, some (0, 1000, 1300)), (1300, some (0, 1000, 1300)), (1500, some (1, 1000, 1500))],
    (gated p.1 p.2).Awake ∧ Table.find (gated p.1 p.2).gw.gates 13 = some ⟨gateList, 1000, p.2⟩ ∧ (gated p.1 p.2).clock.now = p.1
    ∧ Table.find (gated p.1 p.2).gw.gates 0 = none ∧ gateList.entries.length = 2 := by
  unfold State.Awake; decide +kernel

/-- Queues of port 1 hold two frames when its link goes down. -/
def twoHeld : State :=
  let s := (portUp 1 ready).setHeld (ethQueue 1 7) [3, 4]
  { s with gw := { s.gw with frames := [3, 4].map (fun i => (i, { ethFrame frame0.bytes 0 0 false true none with copies := [ethQueue 1 7] })) } }
theorem test_link_frees : twoHeld.Awake ∧ twoHeld.on (GW_PORT_CFG.ENABLE 1) = true ∧ ∀ i ∈ [3, 4], i ∈ twoHeld.heldBy (ethQueue 1 7)
    ∧ twoHeld.frame? i = some { ethFrame frame0.bytes 0 0 false true none with copies := [ethQueue 1 7] } := by
  unfold State.Awake; decide +kernel

/-- A cell error at a CAN controller. -/
theorem test_can_cell : (holding true).Awake ∧ ({ goodVerdict with cellUe := true }).cellUe = true ∧ (holding true).underTest srcGwBufUe = false := by
  unfold State.Awake; decide +kernel

/-- Syncs of a sequenceId after, at and before the last one (it wraps), and the first; the PHY delay of port 3 makes an offset of -50 zero. -/
def synced (seq : Option (BitVec 16)) : State :=
  let s := timed tsUnsynced 1
  { s with time := { s.time with seq := seq }, gw := { s.gw with phy := [(3, 50)] } }
theorem test_sequence : (synced (some 65535#16)).syncNew 0#16 false = true ∧ (synced (some 5#16)).syncNew 5#16 false = false
    ∧ (synced (some 5#16)).syncNew 4#16 false = false ∧ (synced (some 5#16)).syncNew 4#16 true = true ∧ (synced none).syncNew 4#16 false = true
    ∧ (synced none).Awake ∧ ∀ p ∈ [(-50, 0), (-51, -1), (-49, 1)], p.1 + (Table.get (synced none).gw.phy 0 (3 : Fin 14).val : Nat) = (p.2 : Int) := by
  unfold State.Awake; decide +kernel
theorem test_grandmaster : (timed tsGrandmaster 1).Awake ∧ (timed tsGrandmaster 1).rd TIME_STATUS.STATE = tsGrandmaster
    ∧ run.on TIME_CTRL.SYNC_EN = false ∧ (1000001 : Int).natAbs > (timed tsLocked 1).rd TIME_CTRL.JUMP_THR_US * 1000 := by
  unfold State.Awake; decide +kernel

/-! ### The planning engine: witnesses -/

/-- A channel configuration of R204 with the least values of its ranges, `period` us and phase 0. -/
def cfgBytes (period : Nat) : List Byte :=
  leBytes 4 100 ++ leBytes 4 period ++ leBytes 4 0 ++ [0#8, 1#8, 1#8, 0#8] ++ leBytes 4 0 ++ (List.range 4).flatMap (fun _ => leBytes 8 1)
    ++ List.replicate 12 0#8 ++ List.replicate 8 1#8 ++ [0#8, 0#8, 1#8, 0#8] ++ leBytes 4 0 ++ leBytes 4 1 ++ leBytes 4 0
    ++ List.replicate 40 0#8
def epoch (serial number : Nat) : PlanEpoch := ⟨serial, number, true, 0, 0, 0, .uni 0, []⟩
/-- Channel `ch` is configured, enabled, with trigger `trig`; privileged where `mask` says so; an epoch exists where `world` is set. -/
def planned (ch trig mask : Nat) (period : Nat) (world : Bool) : State :=
  let s := (List.range 16).foldl (fun (u : State) k => u.setReg64 (PLAN_CH_CFG ch k) (leAt (cfgBytes period) (8 * k) 8)) ready
  let t := ((s.wr (PLAN_CH_CTRL.ENABLE ch) 1).wr (PLAN_CH_CTRL.TRIGGER ch) trig).wr PLAN_PRIV.MASK mask
  if world then { (t.wr PLAN_STORE_STATUS.WORLD 1).wr PLAN_STORE_STATUS.NEWEST_EPOCH 6 with plan := { t.plan with epochs := [epoch 0 6], nextSerial := 1 } }
  else t
def cycleOf (priv : Bool) (snap : Option Nat) (suspended guarded : Bool) : PlanCycle :=
  ⟨(planned 15 1 0 1000 true).planCfg 15, (planned 15 1 0 1000 true).planStart 15, 5, priv, 0, [], false, snap, suspended, guarded, false⟩
def withCycle (q : PlanCycle) (s : State) : State := s.setChan 15 ⟨some q, none⟩

/-- Sources 0 and 7: a Lesson of slice 0 bound to one is refused to the other. -/
def bound : State := run.setReg64 (PLAN_SRC_LESSON 7) 9
theorem test_bind : bound.Awake ∧ bound.Reaches registrarFw .plan_src_lesson 0 0 true ∧ bound.reg64 (PLAN_SRC_LESSON 7) = 9
    ∧ bound.rd (PLAN_SRC_ADDR.SLICE 7) = bound.rd (PLAN_SRC_ADDR.SLICE 0) := by
  unfold State.Awake State.Reaches; decide +kernel

/-- The batch of tag 9's Lesson is to be copied; the Lesson is bound to source 0, or to none. -/
def copying (enable : Nat) : State :=
  let s := ((withJob { job5 with lesson := 7, state := 7 }).setReg64 (PLAN_SRC_LESSON 0) 7)
  { ((s.wr (PLAN_SRC_ADDR.ENABLE 0) enable).wr (PLAN_SRC_ADDR.SLICE 0) 5).wr (PLAN_SRC_ADDR.ADDR 0) dramBase with plan := { s.plan with copies := [9] } }
theorem test_copy : ∀ e ∈ [0, 1], (copying e).Awake ∧ (copying e).planOn = true ∧ (copying e).plan.copies.contains 9 = true
    ∧ (copying e).plan.staging = none ∧ (copying e).job? 9 = some { job5 with lesson := 7, state := 7 }
    ∧ (copying e).planSource 5 7 = (if e = 1 then some 0 else none) := by
  unfold State.Awake; decide +kernel

/-- A FULL batch without records, with an epoch number. -/
def batch (number flags records : Nat) : List Byte :=
  leBytes 4 number ++ leBytes 4 flags ++ leBytes 8 0 ++ leBytes 8 0 ++ leBytes 4 records ++ List.replicate 36 0#8
def staged (copy : Option (List Byte)) : State := let s := planned 15 1 0 1000 true; { s with plan := { s.plan with staging := some copy } }
def okIs (r : Except Nat PlanEpoch) (p : PlanEpoch → Bool) : Bool := match r with | .ok e => p e | .error _ => false
def errorIs (r : Except Nat PlanEpoch) (n : Nat) : Bool := match r with | .ok _ => false | .error m => m = n
theorem test_apply : (staged none).Awake ∧ (staged none).planOn = true ∧ (staged none).plan.built = none
    ∧ (staged none).plan.staging = some none ∧ (staged none).underTest srcPlanBatchRefused = false
    ∧ okIs ((staged none).judgeBatch (batch 7 1 0)) (fun e => e.number = 7 && e.full) = true
    ∧ okIs ((staged none).judgeBatch (batch 7 0 0)) (fun e => e.number = 7 && !e.full) = true
    ∧ errorIs ((staged none).judgeBatch (batch 6 1 0)) srcPlanEpochStale = true
    ∧ errorIs ((staged none).judgeBatch (batch 7 1 65535)) srcPlanBatchRefused = true
    ∧ errorIs (run.judgeBatch (batch 7 0 0)) srcPlanBatchRefused = true
    ∧ leAt (batch 6 1 0) 0 4 ≤ (staged none).rd PLAN_STORE_STATUS.NEWEST_EPOCH ∧ run.newest = none := by
  unfold State.Awake; decide +kernel

def built (trig : Nat) : State := let s := planned 15 trig 0 1000 true; { s with plan := { s.plan with built := some (epoch 1 7) } }
theorem test_swap : ∀ t ∈ [1, 2], (built t).Awake ∧ (built t).planOn = true ∧ (built t).plan.built = some (epoch 1 7)
    ∧ (epoch 1 7).number < 2 ^ 32 ∧ ((built t).on (PLAN_CH_CTRL.ENABLE 15) = true ∧ (built t).rd (PLAN_CH_CTRL.TRIGGER 15) = t)
    ∧ (built t).planPriv 15 = false ∧ planCfgOk ((built t).planCfg 15) false ((built t).reg64 (PLAN_CH_CTRL 15)) = true
    ∧ ((built t).chan 15).cycle = none ∧ (∀ ch < 15, (built t).on (PLAN_CH_CTRL.ENABLE ch) = false) := by
  unfold State.Awake; decide +kernel

/-- Releases: out of range (a period below 1000 us), due at time 0 and not at 1 us, overrun, without an epoch, on demand, privileged. -/
theorem test_release_channel : ∀ p ∈ [(planned 15 1 0 999 true, false), (planned 15 1 0 1000 true, true), (planned 15 1 0 1000 false, true),
      (withCycle (cycleOf false none false false) (planned 15 1 0 1000 true), true), (planned 15 1 32768 10000 true, true),
      (planned 15 1 32768 9999 true, false)],
    p.1.Awake ∧ p.1.planOn = true ∧ p.1.on (PLAN_CH_CTRL.ENABLE 15) = true ∧ p.1.rd (PLAN_CH_CTRL.TRIGGER 15) = 1 ∧ p.1.planDue 15 = true
    ∧ (at_ 1000 p.1).planDue 15 = false
    ∧ planCfgOk (p.1.planCfg 15) (p.1.planPriv 15) (p.1.reg64 (PLAN_CH_CTRL 15)) = p.2 := by
  unfold State.Awake; decide +kernel

theorem test_release_cases : (planned 15 1 0 1000 true).on PLAN_STORE_STATUS.WORLD = true
    ∧ (planned 15 1 0 1000 false).on PLAN_STORE_STATUS.WORLD = false ∧ ((planned 15 1 0 1000 true).chan 15).cycle = none
    ∧ ((withCycle (cycleOf false none false false) (planned 15 1 0 1000 true)).chan 15).cycle = some (cycleOf false none false false)
    ∧ (planned 15 1 32768 10000 true).planPriv 15 = true ∧ (planned 15 1 0 1000 true).underTest srcPlanOverrun = false := by
  decide +kernel

/-- A START of channel 15: its write leaves the channel enabled with trigger 0. -/
def startWord : Nat := 3
def startAfter (s : State) : State := (s.through registrarFw .plan_ch_ctrl 15 0).planCtrlWrite registrarFw 15 (clearBit startWord 1)
theorem test_start : (planned 15 0 0 0 true).Awake ∧ (planned 15 0 0 0 true).Reaches registrarFw .plan_ch_ctrl 15 0 true ∧ bit startWord 1 = true
    ∧ (planned 15 0 0 0 true).planOn = true ∧ (startAfter (planned 15 0 0 0 true)).on (PLAN_CH_CTRL.ENABLE 15) = true
    ∧ (startAfter (planned 15 0 0 0 true)).rd (PLAN_CH_CTRL.TRIGGER 15) = 0 ∧ (planned 15 0 0 0 true).planPriv 15 = false
    ∧ planCfgOk ((startAfter (planned 15 0 0 0 true)).planCfg 15) false ((startAfter (planned 15 0 0 0 true)).reg64 (PLAN_CH_CTRL 15)) = true
    ∧ ((planned 15 0 0 0 true).chan 15).cycle = none
    ∧ { planned 15 0 0 0 true with pwr := { ready.pwr with stopped := [2] } }.planOn = false := by
  unfold State.Awake State.Reaches; decide +kernel

/-- A mask of two channels is taken, of three it is not. -/
theorem test_plan_registers : run.Reaches secCoreFw .plan_priv 0 0 true ∧ popCount 16 (bits 0x8001 15 0) = 2 ∧ 2 < popCount 16 (bits 0x8003 15 0)
    ∧ run.on PLAN_PRIV.LOCK = false ∧ run.Reaches registrarFw .plan_ch_status 15 0 false := by
  unfold State.Reaches; decide +kernel

/-- Channel 15 runs, or its cycle is suspended; channel 0, privileged, has one pending. -/
def cycling (q : PlanCycle) (running : Option Nat) (behind : Bool) : State :=
  let s := withCycle q (planned 15 1 1 1000 true)
  let t := if behind then s.setChan 0 ⟨some (cycleOf true none false false), none⟩ else s
  { t with plan := { t.plan with running := running } }
theorem test_cycle_start : (cycling (cycleOf false none false false) none true).Awake ∧ (cycling (cycleOf false none false false) none true).planOn = true
    ∧ (cycling (cycleOf false none false false) none true).plan.running = none
    ∧ (cycling (cycleOf false none false false) none true).firstPending = some (0, cycleOf true none false false)
    ∧ (cycling (cycleOf false none false false) none false).firstPending = some (15, cycleOf false none false false)
    ∧ (cycling (cycleOf false none false false) none false).suspendedCycle = none
    ∧ (cycling (cycleOf false none false false) none true).newest = some (epoch 0 6) := by
  unfold State.Awake; decide +kernel

theorem test_cycle_suspend : ∀ b, (cycling (cycleOf false (some 0) false false) (some 15) b).Awake
    ∧ (cycling (cycleOf false (some 0) false false) (some 15) b).plan.running = some 15
    ∧ ((cycling (cycleOf false (some 0) false false) (some 15) b).chan 15).cycle = some (cycleOf false (some 0) false false)
    ∧ (cycling (cycleOf false (some 0) false false) (some 15) b).pendingCycles.any (fun p => p.2.priv) = b := by
  unfold State.Awake; decide +kernel

/-- An uncorrectable word in the node at the root of the newest epoch marks it; the reduction of a cycle with that snapshot can end. -/
theorem test_node_marked : realNode ⟨0, 0, 0⟩ = true ∧ realNode ⟨0, 6, 0⟩ = false
    ∧ ((cycling (cycleOf false (some 0) false false) (some 15) false).markNode ⟨0, 0, 0⟩).newest = some { epoch 0 6 with ue := [(0, 0)] }
    ∧ ((cycling (cycleOf false (some 0) false false) (some 15) false).markNode ⟨0, 0, 0⟩).epoch? 0 = some { epoch 0 6 with ue := [(0, 0)] }
    ∧ ((cycling (cycleOf false (some 0) false false) (some 15) false).markNode ⟨1, 0, 0⟩).newest = some (epoch 0 6) := by
  decide +kernel

theorem test_cycle_resume : ∀ g, (cycling (cycleOf false (some 0) true g) none false).Awake ∧ (cycling (cycleOf false (some 0) true g) none false).planOn = true
    ∧ (cycling (cycleOf false (some 0) true g) none false).pendingCycles.any (fun p => p.2.priv) = false
    ∧ (cycling (cycleOf false (some 0) true g) none false).suspendedCycle = some (15, cycleOf false (some 0) true g)
    ∧ (cycling (cycleOf false (some 0) true g) none false).newest.isSome = true := by
  unfold State.Awake; decide +kernel

/-- The guard point of a cycle with a deadline at 100 us lies at 80 us. -/
theorem test_guard_point : ∀ p ∈ [(false, false), (true, false), (false, true)],
    (at_ 80000 (cycling (cycleOf p.1 (some 0) p.2 false) none false)).Awake
    ∧ ((at_ 80000 (cycling (cycleOf p.1 (some 0) p.2 false) none false)).chan 15).cycle = some (cycleOf p.1 (some 0) p.2 false)
    ∧ (cycleOf p.1 (some 0) p.2 false).deadline = 100000 ∧ (at_ 79999 (cycling (cycleOf p.1 (some 0) p.2 false) none false)).clock.now + 20000 < 100000
    ∧ (at_ 80000 (cycling (cycleOf p.1 (some 0) p.2 false) none false)).newest.isSome = true
    ∧ (at_ 80000 (cycling (cycleOf p.1 (some 0) p.2 false) none false)).underTest srcPlanTimeout = false
    ∧ (at_ 80000 (cycling (cycleOf p.1 (some 0) p.2 false) none false)).underTest srcPlanPrivTimeout = false := by
  unfold State.Awake; decide +kernel

/-- Twice a period of 10 ms. -/
theorem test_plan_stale : ∀ p ∈ [(20000000, true), (19999999, false)], (at_ p.1 (planned 15 1 32768 10000 true)).Awake
    ∧ (at_ p.1 (planned 15 1 32768 10000 true)).procRunning = true ∧ (at_ p.1 (planned 15 1 32768 10000 true)).planPriv 15 = true
    ∧ (at_ p.1 (planned 15 1 32768 10000 true)).on (PLAN_CH_CTRL.ENABLE 15) = true
    ∧ (at_ p.1 (planned 15 1 32768 10000 true)).proc.planStale.contains 15 = false
    ∧ (at_ p.1 (planned 15 1 32768 10000 true)).passed (Table.get (at_ p.1 (planned 15 1 32768 10000 true)).proc.planOut 0 15)
        (2000 * (at_ p.1 (planned 15 1 32768 10000 true)).planPeriod 15) = p.2
    ∧ (at_ p.1 (planned 15 1 32768 10000 true)).on (FCU_SRC_STATE.ASSERTING srcProcPlanStale) = false
    ∧ (at_ p.1 (planned 15 1 32768 10000 true)).underTest srcProcPlanStale = false := by
  unfold State.Awake; decide +kernel

/-- LPDDR5X does not serve yet. -/
def nodram (s : State) : State := { s with boot := { s.boot with dramServing := false } }
theorem test_copy_waits : (copying 1).batchWaits 0 = false ∧ (nodram (copying 1)).batchWaits 0 = true ∧ (nodram (copying 1)).planSource 5 7 = some 0 := by
  decide +kernel

/-- The cycle of channel 15 has its output in LPDDR5X of slice 0, which does not serve: its reduction ends, its guard point passes, or it resumes. -/
def outSet (suspended guarded : Bool) : PlanCycle :=
  let q := cycleOf false (some 0) suspended guarded
  { q with cfg := q.cfg.set 12 dramBase }
def unserved (suspended guarded : Bool) : State :=
  at_ 80000 ((nodram (cycling (outSet suspended guarded) (if suspended then none else some 15) false)).setSlice 0 { Slice.zero with dramSize := 16 })
theorem test_emit_waits : ∀ p ∈ [(false, false), (true, true)], (unserved p.1 p.2).Awake ∧ (unserved p.1 p.2).planOn = true
    ∧ (unserved p.1 p.2).emitWaits 15 (outSet p.1 p.2) = true ∧ ((unserved p.1 p.2).chan 15).cycle = some (outSet p.1 p.2)
    ∧ (outSet p.1 p.2).deadline = 100000 ∧ (unserved true true).suspendedCycle = some (15, outSet true true)
    ∧ (unserved true true).pendingCycles.any (fun p => p.2.priv) = false ∧ (unserved true true).plan.running = none := by
  unfold State.Awake; decide +kernel

/-- A cycle whose candidates were not to be had at its release; LPDDR5X of its slice serves now. -/
def owing : PlanCycle :=
  let q := cycleOf false none false false
  { q with cfg := (q.cfg.set 10 (2 ^ 32)).set 11 dramBase, ctrl := 16, owed := true }
def owes : State := (cycling owing none false).setSlice 0 { Slice.zero with dramSize := 16 }
theorem test_fetch_owed : owes.Awake ∧ owes.planOn = true ∧ owes.firstPending = none ∧ owes.fetchOwed.firstPending.map (·.1) = some 15
    ∧ owes.fetchOwed.newest = some (epoch 0 6) ∧ owes.suspendedCycle = none := by
  unfold State.Awake; decide +kernel

/-- Three epochs: the newest shares its nodes with the one built, the oldest does not with it; a node deeper than the root is in none. -/
def threeEpochs : State :=
  let s := planned 15 1 0 1000 true
  { s with plan := { s.plan with built := some { epoch 2 8 with full := false }, epochs := [epoch 1 7, { epoch 0 6 with full := false }] } }
theorem test_shared_nodes : hasNode (epoch 1 7).tree 0 0 = true ∧ sharedNode (epoch 1 7).tree (epoch 2 8).tree 0 0 = true
    ∧ hasNode (epoch 1 7).tree 1 0 = false ∧ realNode ⟨0, 1, 0⟩ = true
    ∧ (threeEpochs.markNode ⟨0, 0, 0⟩).plan.built.map (·.ue) = some [(0, 0)]
    ∧ (threeEpochs.markNode ⟨0, 0, 0⟩).plan.epochs.map (·.ue) = [[(0, 0)], []]
    ∧ (threeEpochs.markNode ⟨1, 0, 0⟩).plan.epochs.map (·.ue) = [[], [(0, 0)]]
    ∧ (threeEpochs.markNode ⟨1, 0, 0⟩).plan.built.map (·.ue) = some [] := by
  decide +kernel

/-! ### Rubrics: witnesses -/

/-- A signal that Proctor's own registers give, one element; a check of it. -/
def goodRubric : RubricContent := ⟨[[2#8, 0#8] ++ leBytes 2 1 ++ List.replicate 28 0#8], [List.replicate 32 0#8], true⟩
def rubricBytes (queue rest : Nat) : List Byte := leBytes 8 dramBase ++ leBytes 4 64 ++ leBytes 2 queue ++ leBytes 2 rest
def rubricReq (queue rest : Nat) : Req := requestOf 0x0300 0 0 0 (rubricBytes queue rest)
def withRubric (s : State) : State := { s with proc := { s.proc with rubrics := [(15, ⟨[], [], 57344, []⟩)] } }
def fullRubrics : State := { ready with proc := { ready.proc with rubrics := (List.range 16).map (fun i => (i, ⟨[], [], 57344, []⟩)) } }

theorem test_rubric_load : ∀ p ∈ [(8191, 0), (8192, 0), (0, 1)],
    isDue (asked ready 67 (rubricReq p.1 p.2) (rubricBytes p.1 p.2)) 67 0x0300 (rubricReq p.1 p.2) (rubricBytes p.1 p.2) = true
    ∧ leAt (rubricBytes p.1 p.2) 14 2 = p.2 ∧ leAt (rubricBytes p.1 p.2) 12 2 = p.1
    ∧ ((served (asked ready 67 (rubricReq p.1 p.2) (rubricBytes p.1 p.2)) 67 (rubricReq p.1 p.2)).ctxRead
        ((served (asked ready 67 (rubricReq p.1 p.2) (rubricBytes p.1 p.2)) 67 (rubricReq p.1 p.2)).ctx secCoreFw)
        (leAt (rubricBytes p.1 p.2) 0 8) (leAt (rubricBytes p.1 p.2) 8 4)).2.isSome = true := by
  decide +kernel

theorem test_rubric_cases : ready.rootOk .viforik = true ∧ ready.rootOk (.owner 0) = false ∧ rubricOk goodRubric = true
    ∧ rubricOk ⟨[], [List.replicate 32 0#8], true⟩ = false ∧ ready.freeRubric = some 0 ∧ fullRubrics.freeRubric = none := by
  decide +kernel

theorem test_rubric_unload : ∀ i ∈ [15, 14], isDue (asked (withRubric ready) 67 (requestOf 0x0301 0 0 i []) []) 67 0x0301 (requestOf 0x0301 0 0 i []) [] = true
    ∧ (Table.find (served (asked (withRubric ready) 67 (requestOf 0x0301 0 0 i []) []) 67 (requestOf 0x0301 0 0 i [])).proc.rubrics
        (hArg (requestOf 0x0301 0 0 i []).header)).isSome = (i == 15) := by
  decide +kernel

/-! ### Raster: witnesses -/

/-- Seat 0 works on a tile job of a RASTER Lesson; descriptor `op` names the tile at 0x1000 with its depth 4 KiB further, and programs at 0x4000,
the first one VEC with END. -/
def rastW (op : Nat) : List Nat := [8 + op * 16, tensor 0x1000 0 0 4096, tensor 0x4000 0 64 0, 0, 0, 0, 0, 0]
def rastSeat (op clear : Nat) : State :=
  let s := ((syncAt (rastW op)).setLesson 7 (lessonOf (imageOf 1 7 0 4 1 0 0 0) [⟨0, 0, 0, [0, 1], 0, 0, none⟩])).setJob 5
    { jobOf with args := [op + 4 * clear, 0, 0, 0, 0, 0, 0, 0] }
  s.writeMem (lockerBase + 0x4000) ((vecD 0).flatMap (leBytes 8) |>.set 1 1#8)
def rastD (op clear : Nat) : List Nat := (rastSeat op clear).descWords 0
def binRead : Nat × Nat := (rastBin (rastD 0 0), 256 * rastRecords (rastD 0 0))
def rastProgram : ProgRead :=
  ProgRead.of ((rastSeat 0 0).ctxUse ((rastSeat 0 0).ctx ⟨.seat, 0, 0⟩) binRead.1 binRead.2 false) [] ((rastSeat 0 0).shareOf 0).1 (((rastSeat 0 0).shareOf 0).1 + ((rastSeat 0 0).shareOf 0).2)
    ((rastSeat 0 0).shadeProgram 0 (rastD 0 0)) 16

theorem test_rast_issue : ∀ op < 4, ∀ c < 2, (rastSeat op c).AtDesc 0 (rastD op c) ∧ dClass (rastD op c) = 8 ∧ dOp (rastD op c) = op
    ∧ rastOk 0 (rastSeat op c) (rastD op c) = true ∧ rastClear (rastD op c) = decide (c = 1)
    ∧ outside ((rastSeat op c).shareOf 0).2 (rastTileRanges (rastD op c)) = none := by
  intro op h c k
  interval_cases op <;> interval_cases c <;> exact ⟨atDesc (by decide +kernel) (fun _ => rfl), by decide +kernel⟩

/-- The bin can be read; it must wait behind a lock, and its die is off. -/
theorem test_rast_shade : (rastSeat 0 0).binCheck ((rastSeat 0 0).ctx ⟨.seat, 0, 0⟩) binRead.1 binRead.2 false = .ok
    ∧ rastProgram.outside = none ∧ rastProgram.waits = false ∧ rastProgram.words.length = 1 ∧ progOk (rastSeat 0 0) rastProgram.words = true
    ∧ (rastSeat 0 0).Fits 0 (shadeReads (rastD 0 0) ((rastSeat 0 0).shadeProgram 0 (rastD 0 0) - ((rastSeat 0 0).shareOf 0).1) rastProgram.words)
      (shadeWrites (rastD 0 0) rastProgram.words) := by
  unfold State.Fits; decide +kernel

/-- The front end works for slice 0; the command `c` is the one at TAIL, the last of the ring's first round. -/
def rastAtWith (c : List Byte) (f : State → State) : State :=
  let s := ((((ready.setSlice 0 { Slice.zero with dramSize := 16 }).wr DISP_RAST_CTRL.ENABLE 1).wr DISP_RAST_CTRL.LESSON_MASK 1).wr
    DISP_RAST_PTR.TAIL 63).wr DISP_RAST_SPILL.SIZE_4K 2
  f (s.writeMem (dramBase + 63 * 32) c)
def rastAfter (s : State) : State := (s.ctxRead s.rastCtx s.rastAt 32).1
/-- What makes a command ready to be taken, as one check. -/
def isAtRaster (s : State) (c : List Byte) : Bool :=
  !s.boot.inReset && s.rastUp && !s.rastEmpty && !s.rast.skipping && !s.ctxWaits s.rastCtx s.rastAt 32 false
    && (s.ctxRead s.rastCtx s.rastAt 32).2 = some c

theorem atRaster {s : State} {c : List Byte} (h : isAtRaster s c = true) : s.AtRaster c (rastAfter s) := by
  simp only [isAtRaster, Bool.and_eq_true, Bool.not_eq_true', decide_eq_true_eq] at h
  obtain ⟨⟨⟨⟨⟨a, b⟩, d⟩, e⟩, f⟩, g⟩ := h
  exact ⟨a, b, d, e, f, Prod.ext rfl g⟩

/-- PASS_BEGIN of one tile on pipe 3, or on none; DRAW of one triangle; a command of another operation. -/
def beginCmd (pipe w : Nat) : List Byte :=
  [1#8, BitVec.ofNat 8 pipe, 0#8, 0#8] ++ leBytes 2 w ++ leBytes 2 32 ++ leBytes 8 0x10000 ++ leBytes 4 (w * 4) ++ leBytes 4 0 ++ [0#8, 1#8] ++ List.replicate 6 0#8
def drawCmd : List Byte := [2#8, 0#8, 0#8, 0#8, 0#8, 0#8, 0#8, 0#8] ++ leBytes 8 0x1000 ++ leBytes 4 3 ++ List.replicate 12 0#8
def plainCmd (op : Nat) : List Byte := leBytes 32 op
def passOf (stopped : Option (Nat × Nat)) (ending live : Bool) (recs : List RastRec) : RastPass :=
  ⟨beginCmd 0xFF 32, 0, none, none, 0, recs, [(0, { RastTile.zero with live := live })], stopped, ending⟩
def during (p : RastPass) (s : State) : State := s.setPass (some p)

theorem test_raster_commands : ∀ p ∈ [(plainCmd 4, 4), (beginCmd 0xFF 32, 1), (beginCmd 3 32, 1), (drawCmd, 2), (plainCmd 3, 3)],
    isAtRaster (rastAtWith p.1 id) p.1 = true ∧ (rastAtWith p.1 id).rastCmdOk p.1 = true ∧ leAt p.1 0 1 = p.2
    ∧ (rastAtWith p.1 id).rast.pass = none ∧ (rastAtWith p.1 id).rastJobs = false ∧ (rastAtWith p.1 id).rastBusy = false := by
  decide +kernel

/-- A PASS_BEGIN behind a PASS_END is not read; one within a pass, a byte too much and a command without a meaning are errors. -/
theorem test_raster_errors : isAtRaster (rastAtWith (beginCmd 0xFF 32) (during (passOf none true true []))) (beginCmd 0xFF 32) = true
    ∧ (rastAtWith (beginCmd 0xFF 32) (during (passOf none true true []))).rastBusy = true
    ∧ (rastAtWith (beginCmd 0xFF 32) (during (passOf none false true []))).rastBusy = false
    ∧ (rastAtWith (plainCmd 5) id).rastCmdOk (plainCmd 5) = false ∧ (rastAtWith (plainCmd 0x104) id).rastCmdOk (plainCmd 0x104) = false
    ∧ isAtRaster (rastAtWith (plainCmd 5) id) (plainCmd 5) = true ∧ (rastAtWith (plainCmd 5) id).underTest srcRastError = false := by
  decide +kernel

/-- The spill area of 8 KiB takes one tile of 32 x 32 pixels of 4 bytes, not two. -/
theorem test_pass_begin : ∀ w ∈ [32, 33], (passOf none false false []).slot = 0x2000
    ∧ ceilDiv w 32 * 1 * 0x2000 ≤ (rastAfter (rastAtWith (beginCmd 0xFF w) id)).rd DISP_RAST_SPILL.SIZE_4K * 4096 ↔ w = 32 := by
  decide +kernel

/-- The vertices of a triangle without area, and of one that covers pixel (0, 0). -/
def vertices (v : Nat) : List Byte :=
  List.replicate 16 0#8 ++ leBytes 4 v ++ List.replicate 12 0#8 ++ leBytes 4 0 ++ leBytes 4 v ++ List.replicate 8 0#8
def drawing (p : RastPass) (v : Nat) : State := rastAtWith drawCmd (fun s => during p (s.writeMem (dramBase + 0x1000) (vertices v)))
def vertexCheck (p : RastPass) (v : Nat) : Bool :=
  let u := rastAfter (drawing p v)
  isAtRaster (drawing p v) drawCmd && (drawing p v).rastCmdOk drawCmd && !u.ctxWaits u.rastCtx (u.rastAddr (leAt drawCmd 8 8)) (leAt drawCmd 16 4 * dVertexBytes drawCmd) false
    && (u.ctxRead u.rastCtx (u.rastAddr (leAt drawCmd 8 8)) (leAt drawCmd 16 4 * dVertexBytes drawCmd)).2 = some (vertices v)

theorem test_draw : ∀ p ∈ [passOf none false false [], passOf (some (0, 0)) false false [], passOf (some (0, 0)) false true []],
    vertexCheck p 0 = true ∧ vertexCheck p 0x40000000 = true ∧ (drawing p 0).rast.pass = some p ∧ p.ending = false
    ∧ (binTriangles p drawCmd (vertices 0) (dTriangles drawCmd) 0 0).2 = none ∧ dTriangles drawCmd = 1 := by
  decide +kernel

/-- A bin memory without room stops the triangle that covers a pixel before its first record. -/
theorem test_bin_full (r : RastRec) (rs : List RastRec) (h : triangleRecords (passOf none false false rs) drawCmd (vertices 0x40000000) 0 = r :: [])
    (n : rs.length = binCapacity) :
    binTriangles (passOf none false false rs) drawCmd (vertices 0x40000000) 1 0 0 = (passOf none false false rs, some (0, 0)) := by
  simp only [binTriangles, h, List.drop_zero]
  simp [passOf, n]

theorem test_one_record : ∃ r, triangleRecords (passOf none false false []) drawCmd (vertices 0x40000000) 0 = r :: [] :=
  List.length_eq_one_iff.mp (by decide +kernel)

theorem test_pass_end : (rastAtWith (plainCmd 3) (during (passOf none false false []))).rast.pass = some (passOf none false false [])
    ∧ (passOf none false false []).ending = false := by
  decide +kernel

/-- The tile's first job goes to queue 0 of the Lesson resident in slice 5. -/
def tilePass : RastPass := { passOf none true true [] with tiles := [(0, { RastTile.zero with todo := [[1, 0]], lesson := key5 })] }
def submitting : State :=
  during tilePass (((resident image).setQueue 0 { QRec.zero.allotted 5 3 with base := dramBase, cfg := BitVec.ofNat 64 (2 ^ 15 + 2 ^ 22 + 5 * 2 ^ 16 + 3 * 2 ^ 13) }).wr
    DISP_RAST_CTRL.ENABLE 1)

theorem test_tile_submit : submitting.Awake ∧ submitting.rastUp = true ∧ submitting.rast.pass = some tilePass
    ∧ submitting.nextTile tilePass = some (0, { RastTile.zero with todo := [[1, 0]], lesson := key5 }, lessonAt image)
    ∧ (submitting.ctxWrite (submitting.queue 0).devCtx ((submitting.queue 0).entryAddr 0 (submitting.queue 0).prod)
        (submitting.tileRecord tilePass 7 0 [1, 0])).2 = true := by
  unfold State.Awake; decide +kernel

/-- SLICE 63 is for the Registrar alone. -/
theorem test_raster_registers : (rastAtWith (plainCmd 4) id).Reaches registrarFw .disp_rast_ctrl 0 0 true
    ∧ bits (63 * 2 ^ 8) 13 8 ≠ (rastAtWith (plainCmd 4) id).rastSlice ∧ (rastAtWith (plainCmd 4) id).binTaken = false
    ∧ (rastAtWith (plainCmd 4) id).rast.skipping = false ∧ (rastAtWith (plainCmd 4) id).Reaches registrarFw .disp_rast_ptr 0 0 true
    ∧ (rastAtWith (plainCmd 4) id).Reaches registrarFw .disp_rast_status 0 0 false
    ∧ isRegistrar ⟨.apc, 0, 0⟩ = false := by
  unfold State.Reaches; decide +kernel

/-- A limit acts in this period: the next record keeps it; a window asks for nothing meanwhile. -/
theorem test_window_asks : (windowAt false 0).Awake ∧ bits windowOne.mask 7 0 ≠ 0 ∧ (windowAt false 0).pmcRunning = true
    ∧ ((windowAt false 0).die 0).powered = true ∧ (((windowAt false 0).setDie 0 { ready.die 0 with allowed := true }).die 0).allowed = true
    ∧ (windowAt false 0).pwr.acted = false ∧ (windowAt false 0).pwr.actedLast = false ∧ (∀ p ∈ (windowAt false 0).seats, p.2.flight = []) := by
  unfold State.Awake; decide +kernel

/-- A first image is found what the command says; once found, it stays that. -/
theorem test_found : ((withImage image).findImage image .bad none).2 = ⟨image, .bad, none⟩ ∧ (withImage image).found = []
    ∧ ((((withImage image).findImage image .bad none).1).findImage image (.owner 0) none).2 = ⟨image, .bad, none⟩ := by decide +kernel

/-- The Lesson has a Slate region too, which a new level has shut or not. -/
def regionLesson : Lesson := { lessonAt image with places := [⟨0, 0, 0, [0], 0, 1, none⟩] }
def shutDue (level : Nat) : State :=
  let s := home.wr WMARK_SLATE.LEVEL_64K level
  { s with reg := { s.reg with loading := some ⟨5, (loadReq false image).header, secCoreFw, regionLesson⟩ } }
theorem test_region_shut : ∀ p ∈ [(0, false), (1, true)], (shutDue p.1).Awake ∧ (shutDue p.1).regRunning = true ∧ (shutDue p.1).contentWaits regionLesson = false
    ∧ ((shutDue p.1).homes image regionLesson.places).any (fun h => (shutDue p.1).regionShut h.2.2.1 h.2.2.2.1) = p.2
    ∧ (shutDue p.1).underTest srcLessonVerify = false := by
  unfold State.Awake; decide +kernel

/-- The job is a tile job of the pass under way; its batch source is bound to its Lesson. -/
def tileJob : Job := { armedJob with flags := 3, state := 2, seats := [(0, 0)], tile := some ⟨0, 0, 0⟩ }
theorem test_deadline_tile : (at_ 9000 (during (passOf none true true []) (withJob tileJob))).job? 9 = some tileJob
    ∧ ((at_ 9000 (during (passOf none true true []) (withJob tileJob))).passOf 0).isSome = true ∧ tileJob.abortAtDeadline = true
    ∧ tileJob.armed = true ∧ (at_ 9000 (withJob tileJob)).passOf 0 = none
    ∧ ((copying 1).planSource 5 7).isSome = true ∧ (copying 1).planOn = true := by
  decide +kernel

/-! ### Display pipes: witnesses -/

/-- Pipe 3 with its fields at the least values of R230, 5 by 4 clocks in a frame at 25 MHz. -/
def pipeSet : State :=
  let w := fun (s : State) (p : FRef × Nat) => s.wr p.1 p.2
  [(DISP_PIPE_CTRL.PCLK_KHZ 3, 25000), (DISP_PIPE_CTRL.DSC_BPP_X16 3, 128), (DISP_PIPE_TIMING_H.ACTIVE 3, 2), (DISP_PIPE_TIMING_H.SYNC 3, 1),
    (DISP_PIPE_TIMING_H.FRONT 3, 1), (DISP_PIPE_TIMING_H.BACK 3, 1), (DISP_PIPE_TIMING_V.ACTIVE 3, 2), (DISP_PIPE_TIMING_V.SYNC 3, 1),
    (DISP_PIPE_TIMING_V.FRONT 3, 1)].foldl w ready
def pipeOn : State := ((pipeSet.wr (DISP_PIPE_CTRL.ENABLE 3) 1).wr (DISP_PIPE_STATUS.ACTIVE 3) 1).wr (DISP_PIPE_STATUS.LINK_UP 3) 1
/-- A write of the CTRL of pipe 3 that starts it. -/
def pipeWord (bpp : Nat) : Nat := (pipeSet.wr (DISP_PIPE_CTRL.DSC_BPP_X16 3) bpp).reg64 (DISP_PIPE_CTRL 3) + 1
def pipeAfter (bpp : Nat) : State := (pipeSet.through registrarFw .disp_pipe_ctrl 3 0).pipeCtrlWrite 3 (clearBit (pipeWord bpp) 0)

theorem test_pipe : pipeSet.Awake ∧ pipeSet.Reaches registrarFw .disp_pipe_ctrl 3 0 true ∧ pipeSet.on (DISP_PIPE_CTRL.ENABLE 3) = false
    ∧ pipeOn.on (DISP_PIPE_CTRL.ENABLE 3) = true
    ∧ (∀ p ∈ [(128, true), (192, true), (127, false), (193, false)], bit (pipeWord p.1) 0 = true ∧ (pipeAfter p.1).pipeFieldsOk 3 = p.2)
    ∧ pipeOn.Awake ∧ pipeOn.pipeUp 3 = true ∧ pipeOn.on (DISP_PIPE_STATUS.LINK_UP 3) = true
    ∧ pipeOn.Reaches registrarFw .disp_plane_addr 3 3 true ∧ pipeOn.Reaches registrarFw .disp_pipe_status 3 0 false := by
  unfold State.Awake State.Reaches; decide +kernel

/-- Two active lines of 5 clocks at 25 MHz take 400 ns, and a frame of 5 x 4 clocks 800 ns (R228, R231): with 16 ms of RESERVE_US the latch at or past
16 ms is the 21st after the one at 0. -/
theorem test_pixel_time : pipeSet.pixelTime 3 (pipeSet.timingTotal false 3 * 2) = 400 ∧ pipeOn.frameClocks 3 = 20
    ∧ (pipeOn.wr DISP_RAST_CTRL.RESERVE_US 16).targetLatch 3 = some (16000, 20) := by
  decide +kernel

/-- Plane 3 of pipe 3 is enabled, with a buffer posted or one expected; a pass is aimed at this latch, or at the next. -/
def latching (post expect : Nat) (left : Option Nat) : State :=
  let s := ((pipeOn.wr (DISP_PLANE_CFG.ENABLE 3 3) 1).wr (DISP_PLANE_ADDR.POST 3 3) post).wr (DISP_PLANE_ADDR.EXPECT 3 3) expect
  match left with
  | some n => s.setPass (some ⟨beginCmd 3 32, 0, some 1, some n, 0, [], [], none, false⟩)
  | none => s

theorem test_latch : ∀ p ∈ [(1, 0, none), (0, 1, none), (0, 0, some 1), (0, 0, some 2)], (latching p.1 p.2.1 p.2.2).Awake
    ∧ (latching p.1 p.2.1 p.2.2).pipeUp 3 = true ∧ (latching p.1 p.2.1 p.2.2).on (DISP_PLANE_CFG.ENABLE 3 3) = true
    ∧ (latching p.1 p.2.1 p.2.2).on (DISP_PLANE_ADDR.POST 3 3) = (p.1 == 1) ∧ (latching p.1 p.2.1 p.2.2).on (DISP_PLANE_ADDR.EXPECT 3 3) = (p.2.1 == 1)
    ∧ (latching p.1 p.2.1 p.2.2).rast.pass.map (fun x => (x.pipe, x.left)) = p.2.2.map (fun n => (3, some n))
    ∧ (latching p.1 p.2.1 p.2.2).underTest srcFrameRepeat = false := by
  unfold State.Awake; decide +kernel

/-- The plane covers one pixel at (1, 1); its line may be dark already. -/
def shown (dark : List DarkLine) : State :=
  { pipeOn with rast := { pipeOn.rast with cfgNow := [(15, BitVec.ofNat 64 (2 ^ 63 + 2 ^ 36 + 2 ^ 24))], shown := [(15, dramBase)], dark := dark } }
theorem test_underrun : ∀ p ∈ [([], false), ([(⟨15, 1, 1⟩ : DarkLine)], true)], (shown p.1).Awake ∧ (shown p.1).pipeUp 3 = true
    ∧ (shown p.1).rast.dark.any (fun d => d.plane = 4 * 3 + 3 && d.line = 1 && d.from' ≤ 1) = p.2
    ∧ cfgCovers ((shown p.1).planeCfg 3 3) 1 1 = true ∧ cfgCovers ((shown p.1).planeCfg 3 3) 2 1 = false
    ∧ (shown p.1).underTest srcDispUnderrun = false := by
  unfold State.Awake; decide +kernel

/-! ### Boot items, signatures and quizzes: witnesses -/

def booting : State := { home with boot := { home.boot with bootRefusals := [] } }
def wasPlaced (r : Admission) (p : State → Lesson → Bool) : Bool := match r with | .placed s l => p s l | .refused _ _ => false
def wasRefused (r : Admission) (n : Nat) : Bool := match r with | .placed _ _ => false | .refused st _ => st = n

theorem test_boot_items : booting.Awake ∧ booting.scRunning = true ∧ booting.regRunning = true ∧ booting.reg.loading = none
    ∧ booting.procRunning = true ∧ wasPlaced (booting.admitImage 5 image 0 (.owner 0)) (fun s l => !s.contentWaits l) = true
    ∧ wasRefused (booting.admitImage 5 (imageOf 2 7 0 0 1 0 0 0) 0 (.owner 0)) msVersion = true ∧ imFormat image = 1
    ∧ booting.rootOk (.owner 0) = true ∧ booting.rootOk (.owner 1) = false ∧ booting.freeRubric = some 0 ∧ booting.boot.reportMb = none
    ∧ booting.underTest srcLessonVerify = false := by
  unfold State.Awake; decide +kernel

/-- The region of the image is held by a test. -/
def marched : State := home.setCluster 0 { home.cluster 0 with march := { (home.cluster 0).march with held := some (0, 0) } }
theorem test_boot_waits : wasPlaced (marched.admitImage 5 image 0 (.owner 0)) (fun s l => s.contentWaits l) = true := by decide +kernel

/-- A SAFETY image of slice 5 with a pair of Seats, 0 and 8, whose runs have ended with signatures. -/
def safety : List Byte := imageOf 1 7 0 1 1 0 0 373
def safeLesson : Lesson := { lessonAt safety with places := [⟨0, 0, 0, [0], 0, 0, none⟩, ⟨0, 1, 0, [8], 0, 0, none⟩] }
def pairJob : Job := { job5 with state := 2, seats := [(0, 0), (8, 1)], sigEqual := false }
def compared (a b : Nat) (j : Job) : State :=
  let s := (((resident safety).setLesson key5 safeLesson).setJob 9 j)
  let x := fun (n : Nat) => { SeatX.zero with job := some ⟨false, 9, false, 0⟩, ended := true, sig := BitVec.ofNat 64 n }
  (s.setSeat 0 (x a)).setSeat 8 (x b)

theorem test_compare : ∀ b ∈ [3, 4], (compared 3 b pairJob).Awake ∧ (compared 3 b pairJob).job? 9 = some pairJob
    ∧ (compared 3 b pairJob).procRunning = true ∧ (compared 3 b pairJob).compareTested = false ∧ pairJob.voltage = false ∧ pairJob.state < 4
    ∧ (compared 3 b pairJob).compareDue 9 pairJob = some (false, safeLesson, [(0, 0), (8, 1)]) ∧ (compared 3 b pairJob).proc.compareBad = false
    ∧ (seatPairs [(0, 0), (8, 1)]).find? (fun p => ((compared 3 b pairJob).seat p.1).sig ≠ ((compared 3 b pairJob).seat p.2).sig)
        = (if b = 3 then none else some (0, 8))
    ∧ (compared 3 b pairJob).underTest srcSigMismatch = false ∧ pairJob.fb = none := by
  unfold State.Awake; decide +kernel

theorem test_proc_status : run.Awake ∧ run.Reaches proctorFw .proc_status 0 0 false
    ∧ (compared 3 3 { pairJob with voltage := true }).job? 9 = some { pairJob with voltage := true } := by
  unfold State.Awake State.Reaches; decide +kernel

/-- QUIZ_SET with the least and largest period and the largest phase and deferral, and beyond. -/
def quizBytes (period phase defer : Nat) : List Byte := leBytes 8 7 ++ leBytes 4 period ++ leBytes 4 phase ++ leBytes 1 defer ++ List.replicate 7 0#8
def quizHome : State := (resident safety).setLesson key5 safeLesson
def quizReq (p q d : Nat) : Req := requestOf 0x0031 0 5 0 (quizBytes p q d)
theorem test_quiz_set : ∀ p ∈ [(1000, 999, 64), (1000000, 999999, 1), (999, 0, 1), (1000, 1000, 1), (1000, 0, 65), (1000, 0, 0)],
    isDue (asked quizHome 5 (quizReq p.1 p.2.1 p.2.2) (quizBytes p.1 p.2.1 p.2.2)) 5 0x0031 (quizReq p.1 p.2.1 p.2.2) (quizBytes p.1 p.2.1 p.2.2) = true
    ∧ (served (asked quizHome 5 (quizReq p.1 p.2.1 p.2.2) (quizBytes p.1 p.2.1 p.2.2)) 5 (quizReq p.1 p.2.1 p.2.2)).lesson? key5 = some safeLesson
    ∧ leAt (quizBytes p.1 p.2.1 p.2.2) 8 4 = p.1 ∧ leAt (quizBytes p.1 p.2.1 p.2.2) 12 4 = p.2.1 ∧ leAt (quizBytes p.1 p.2.1 p.2.2) 16 1 = p.2.2
    ∧ leAt (quizBytes p.1 p.2.1 p.2.2) 17 7 = 0 := by
  decide +kernel

theorem test_quiz_image : imSafety safety = true ∧ imQuizCycles safety * 100 ≤ 373 * 1000 ∧ 373 * 999 < imQuizCycles (imageOf 1 7 0 1 1 0 0 3727) * 100
    ∧ (withJob job5).lesson? (lessonKey 5 9) = none := by
  decide +kernel

/-- The Lesson in a state of its quizzes: slots every 33.333 ms from phase 0; it waits, runs, has ended, or is overdue. -/
def quizzing (f : Lesson → Lesson) (now : Nat) : State := at_ now (((resident safety).setLesson key5 (f safeLesson)))
def runsQuiz (l : Lesson) : Lesson := { l with quizSeats := [(0, 0)] }
theorem test_quiz_slot : (quizzing id 33333000).Awake ∧ (quizzing id 33333000).lesson? key5 = some safeLesson
    ∧ (quizzing id 33333000).dueEvery safeLesson.quizPeriod safeLesson.quizPhase = true
    ∧ (quizzing id 33332000).dueEvery safeLesson.quizPeriod safeLesson.quizPhase = false ∧ safeLesson.quizSeats = [] ∧ safeLesson.releasing = false := by
  unfold State.Awake; decide +kernel

def pendingQuiz (l : Lesson) : Lesson := { l with quizPending := true }
theorem test_quiz_seat : (quizzing pendingQuiz 0).regRunning = true ∧ ((quizzing pendingQuiz 0).slice 5).running = false ∧ (quizzing pendingQuiz 0).jobs = []
    ∧ ((quizzing pendingQuiz 0).setSeatState 8 1).quizGroup (pendingQuiz safeLesson) = some [(0, 0), (8, 1)]
    ∧ ([(0, 0), (8, 1)].map (·.1)).Nodup ∧ ∃ p ∈ ((quizzing pendingQuiz 0).setJob 9 job5).jobs, p.2.lesson = key5 ∧ p.2.state = 0 := by
  decide +kernel

theorem test_quiz_end : ((quizzing runsQuiz 0).setSeat 0 { SeatX.zero with ended := true }).quizEnded (runsQuiz safeLesson) = true
    ∧ (quizzing runsQuiz 0).procRunning = true
    ∧ safeLesson.quizSince + safeLesson.quizDefer * safeLesson.quizPeriod * 1000 = 266664000 ∧ safeLesson.quizOverdue = false
    ∧ (quizzing id 266664000).clock.now = 266664000 ∧ (quizzing id 266663999).clock.now < 266664000 ∧ (quizzing id 0).underTest srcQuizOverdue = false := by
  decide +kernel

/-! ### Drill and Roll Call: witnesses -/

def drillBytes (a b : Nat) : List Byte := leBytes 2 a ++ leBytes 2 b ++ (List.range 4).flatMap (fun _ => leBytes 2 100)
theorem test_drill_set : ∀ p ∈ [(10, 1000), (9, 1000), (10, 1001)],
    isDue (asked ready 67 (requestOf 0x0032 0 0 0 (drillBytes p.1 p.2)) (drillBytes p.1 p.2)) 67 0x0032 (requestOf 0x0032 0 0 0 (drillBytes p.1 p.2))
      (drillBytes p.1 p.2) = true
    ∧ (List.range 6).all (fun k => 10 ≤ leAt (drillBytes p.1 p.2) (2 * k) 2 && leAt (drillBytes p.1 p.2) (2 * k) 2 ≤ 1000) = (p == (10, 1000)) := by
  decide +kernel

/-- Every cluster controller runs; a step of instance 0 of unit type `u` may start, or runs. -/
def drilled (u : Nat) (running : Bool) : State :=
  ((List.range 16).foldl (fun (t : State) n => t.setCcc n 1) ready).setDrill u 0 ⟨0, 0, 0, running⟩
theorem test_drill_start : ∀ u ∈ [DrillUnit.core, .locker, .slate, .compare, .fcu, .roll], (drilled (drillIndex u) false).Awake
    ∧ (drilled (drillIndex u) false).drillMay (drillIndex u) 0 = true ∧ (drilled (drillIndex u) false).drillFirst (drillIndex u) 0 = true
    ∧ 0 < drillInstances (drillIndex u) ∧ (drilled (drillIndex u) true).drillMay (drillIndex u) 0 = false := by
  unfold State.Awake; decide +kernel

/-- A step of each unit type runs, the last of its pass or an earlier one; its coverage interval of 100 ms ends exactly. -/
def stepping (u step : Nat) : State := at_ 100000000 (ready.setDrill u 0 ⟨0, 0, step, true⟩)
theorem test_drill_end : ∀ u ∈ [DrillUnit.core, .locker, .slate, .compare, .fcu, .roll], (stepping (drillIndex u) 0).Awake
    ∧ ((stepping (drillIndex u) 0).drillPass (drillIndex u) 0).running = true ∧ (stepping (drillIndex u) 0).procRunning = true
    ∧ (stepping (drillIndex u) 0).drillThere (drillIndex u) 0 = true ∧ (stepping (drillIndex u) 0).drillLeft (drillIndex u) 0 ≤ 0
    ∧ 0 < (at_ 99999999 (stepping (drillIndex u) 0)).drillLeft (drillIndex u) 0
    ∧ ((stepping (drillIndex u) (drillSteps (drillIndex u) - 1)).drillPass (drillIndex u) 0).step + 1 = drillSteps (drillIndex u) := by
  unfold State.Awake; decide +kernel

/-- Stream 15 is guarded, with a grid of two by two samples one apart from (1, 1), K of 2, and a counter of one byte. -/
def guarding (prev : Bool) : State :=
  let s := [(ROLL_STR_CFG.ENABLE 15, 1), (ROLL_STR_CFG.K 15, 2), (ROLL_STR_CFG.STALE_US 15, 1000), (ROLL_STR_CFG.EMB_BYTES 15, 1),
    (ROLL_STR_GRID.X0 15, 1), (ROLL_STR_GRID.Y0 15, 1), (ROLL_STR_GRID.STEP_X 15, 1), (ROLL_STR_GRID.STEP_Y 15, 1), (ROLL_STR_GRID.COUNT_X 15, 1),
    (ROLL_STR_GRID.COUNT_Y 15, 1), (ROLL_STR_STATUS.LAST_COUNTER 15, 9)].foldl (fun (s : State) p => s.wr p.1 p.2) run
  { s with proc := { s.proc with rollPrev := if prev then [15] else [] } }
/-- Three lines of `n` pixels, RAW8. -/
def camera (valid : Bool) (n : Nat) : CamFrame := ⟨valid, 0x2A, List.replicate 3 ((List.range n).map (BitVec.ofNat 8)), [9#8]⟩

theorem test_roll : ∀ prev, (guarding prev).Awake ∧ (guarding prev).unitOn 14 = true ∧ (guarding prev).guarded 15 = true
    ∧ (guarding prev).proc.rollPrev.contains 15 = prev ∧ (guarding prev).frameCounter 15 (camera true 3) = (guarding prev, 9)
    ∧ (guarding prev).gridFits 15 (camera true 3) = true ∧ (guarding prev).gridFits 15 (camera true 2) = false
    ∧ (guarding prev).gridSamples 15 (camera true 3) = [1, 2, 1, 2] ∧ (guarding prev).rd (ROLL_STR_STATUS.LAST_COUNTER 15) = 9
    ∧ (guarding prev).underTest srcRollBad = false ∧ (guarding prev).Reaches proctorFw .roll_str_status 15 0 false
    ∧ (guarding prev).Reaches secCoreFw .roll_str_cfg 15 0 true := by
  unfold State.Awake State.Reaches; decide +kernel

theorem test_roll_stale : Table.get (guarding true).proc.staleFrom 0 15 + (guarding true).rd (ROLL_STR_CFG.STALE_US 15) * 1000 = 1000000
    ∧ (at_ 1000000 (guarding true)).clock.now = 1000000 ∧ (at_ 999999 (guarding true)).clock.now < 1000000
    ∧ { run with pwr := { run.pwr with gatedPower := 2 ^ 14 } }.unitOn 14 = false := by
  decide +kernel

/-- The four pixels that RAW10 packs into the bytes 1, 2, 3, 4 and 0xE4: their low bits are 0, 1, 2 and 3. -/
theorem test_raw10 : (List.range 4).map (pixelAt 0x2B [1#8, 2#8, 3#8, 4#8, 0xE4#8]) = [4, 9, 14, 19] := by decide +kernel

/-! ### Accesses: witnesses -/

theorem atRegs {s : State} {w : Initiator} {a n : Nat} (h : s.boot.inReset = false ∧ placeOf s.pins.fittedMiB a = .regs
    ∧ s.arrives w.kind w.index a = true ∧ s.lockWaits (s.initId w) a n = false ∧ s.lateOver a n = false ∧ crossing w a = none
    ∧ s.regUp a = true) : s.AtRegs w a n :=
  let ⟨awake, place, way, free, still, here, on⟩ := h
  ⟨awake, place, way, free, still, here, on⟩
/-- A register of the Hub with RW fields, one of each other code, and one that the Security Core alone may write. -/
def addrOf (f : RegFam) : PAddr := BitVec.ofNat 48 (f.reg 0 0).addr

theorem test_access_codes : ∀ f ∈ [RegFam.disp_rast_spill, .hub_viol_addr, .disp_rast_lesson], run.AtRegs registrarFw (addrOf f).toNat 8
    ∧ regOver (addrOf f).toNat = some (f, 0, 0) ∧ (addrOf f).toNat = (f.reg 0 0).addr ∧ regWidth f = 8
    ∧ run.Reaches registrarFw f 0 0 false := by
  unfold State.Reaches
  intro f h
  fin_cases h <;> exact ⟨atRegs (by decide +kernel), by decide +kernel⟩

theorem test_access_rights : run.Reaches registrarFw .disp_rast_spill 0 0 true ∧ (∀ x ∈ RegFam.proc_status.fields, x.acc = .ro ∨ x.acc = .rc)
    ∧ run.Reaches proctorFw .proc_status 0 0 true ∧ run.rightsOk .plan_priv 0 registrarFw true = false
    ∧ run.rightsOk .plan_priv 0 secCoreFw true = true ∧ registrarFw.kind ≠ .seat := by
  unfold State.Reaches; decide +kernel

theorem test_plan_priv_at : run.AtRegs registrarFw (addrOf .plan_priv).toNat 8 ∧ regOver (addrOf .plan_priv).toNat = some (.plan_priv, 0, 0) :=
  ⟨atRegs (by decide +kernel), by decide +kernel⟩

/-- Offsets without a register: in a block that the spec lists whole, and in the PCIe controller's. -/
theorem test_no_register : ∀ p ∈ [((addrOf .plan_priv).toNat + 0xF00, false), (0x0F200008, true)], regOver p.1 = none ∧ unlisted p.1 = p.2
    ∧ naturally p.1 8 = true ∧ naturally (p.1 + 4) 8 = false ∧ run.pairShut .fw (run.sliceOf registrarFw) p.1 8 true = false := by
  decide +kernel

theorem test_no_register_at : ∀ a ∈ [(addrOf .plan_priv).toNat + 0xF00, 0x0F200008], run.AtRegs registrarFw a 8 := by
  intro a h
  fin_cases h <;> exact atRegs (by decide +kernel)

theorem test_hole : placeOf run.pins.fittedMiB 0x60000 = .hole ∧ run.Awake ∧ core0.kind ≠ .seat := by
  unfold State.Awake; decide +kernel

/-- The last 8 bytes of LPDDR5X, for application core 0, with a reservation and without; the first 8 of the Locker, for Seat 0. -/
def lastOfDram : Nat := dramBase + 65536 * 0x100000 - 8
def theSeat : Initiator := ⟨.seat, 0, 0⟩
def reserving (held : Bool) : State := if held then ready.reserve core0 lastOfDram else ready

theorem test_memory_at : ∀ held write, (reserving held).AtMem core0 lastOfDram 8 write ∧ (seat0 []).AtMem theSeat lockerBase 8 write := by
  intro held write
  refine ⟨⟨?_, Or.inr (Or.inr ⟨lastOfDram - dramBase, ?_⟩), ?_, ?_⟩, ⟨?_, Or.inr (Or.inl ⟨0, 0, ?_⟩), ?_, ?_⟩⟩ <;>
    cases held <;> cases write <;> first | decide +kernel | exact rfl

theorem test_memory_ok : ∀ held write excl, (reserving held).busCheck core0 lastOfDram 8 write excl = .ok ∧ (reserving held).ecc.ce = []
    ∧ (reserving held).ecc.ue = [] ∧ (reserving held).reserved? core0 lastOfDram = held ∧ core0.kind ≠ .pair
    ∧ (seat0 []).busCheck theSeat lockerBase 8 write excl = .ok := by
  decide +kernel

def failsWith (v : Verdict) (reason : Nat) : Bool := match v with | .viol x => x.reason = reason | _ => false
def cccZero : Initiator := ⟨.ccc, 0, 0⟩
/-- The secure partition; a Seat's share end; a die that is off, for its controller and its Seat; LPDDR5X while it trains. -/
theorem test_memory_refused : failsWith ((ready.wr WMARK_DRAM.LEVEL_1M 1).busCheck core0 dramBase 8 true false) 4 = true
    ∧ failsWith ((seat0 []).busCheck theSeat (lockerBase + 0xFFFC) 8 true false) 6 = true
    ∧ ({ seat0 [] with dies := [] }).busCheck theSeat lockerBase 8 true false = .err ∧ theSeat.index < 1024
    ∧ ({ run with dies := [] }).busCheck cccZero slateBase 8 true false = .err ∧ run.busCheck core0 dramBase 8 true false = .waits
    ∧ cccZero.kind ≠ .seat := by
  decide +kernel

/-- The partner behind inbound window 0, which gives it LPDDR5X of slice 0; not authenticated; with the link down. -/
def inbound : State :=
  let s := (paired.wr (PAIR_IN_CFG.ENABLE 0) 1).wr (PAIR_IN_CFG.READ_OK 0) 1
  { (((s.wr (PAIR_IN_CFG.SLICE_VALID 0) 1).wr (PAIR_IN_BASE.BASE 0) (dramBase / 0x100000)).wr (PAIR_IN_CFG.SIZE_1M 0) 16).setSlice 0 { Slice.zero with dramSize := 16 } with
    boot := { s.boot with dramTrained := true, dramServing := true } }
theorem test_partner : inbound.Awake ∧ inbound.boot.strapEn = true ∧ inbound.pair.trained = true ∧ inbound.sec.pairAuth = true
    ∧ ({ inbound with sec := { inbound.sec with pairAuth := false } }).sec.pairAuth = false
    ∧ inbound.busCheck (inbound.partner dramBase 8 false) dramBase 8 false false = .ok ∧ inbound.ecc.ce = [] ∧ inbound.ecc.ue = []
    ∧ crossing (inbound.partner dramBase 8 false) dramBase = none
    ∧ inbound.strictFirst (inbound.sliceOf (inbound.partner dramBase 8 false)) (dramBytes dramBase 8, linkBytes (startDie (inbound.partner dramBase 8 false)) dramBase 8 false) = false
    ∧ placeOf inbound.pins.fittedMiB dramBase = .dram 0 := by
  unfold State.Awake; decide +kernel

theorem test_proc_id : core0.kind = .apc ∧ core0.index = (0 : Fin 24).val ∧ core0.index ≠ (23 : Fin 24).val := by decide

/-- 8 bytes over the end of the Pair Link window; CCC 0 and Seat 0 on their dies; with strict slice 1 ahead on the link; with the lock of CCC 0 held. -/
def lastPair : Nat := 0x3000000000 - 4
def strictLink (s : State) : State :=
  let t := strictAhead s
  t.setSlice 1 { t.slice 1 with linkQuota := 10 }
theorem test_outbound_ways : placeOf paired.pins.fittedMiB lastPair = .pairWin (lastPair - pairBase) ∧ lastPair + 8 > 0x3000000000
    ∧ paired.arrives .ccc 0 (pairBase + 0xFFFF8) = true ∧ paired.arrives core0.kind core0.index (pairBase + 0xFFFF8) = true
    ∧ paired.arrives .seat 0 (pairBase + 0xFFFF8) = true ∧ startDie cccZero ≠ 0 ∧ crossing cccZero (pairBase + 0xFFFF8) = some 2
    ∧ paired.freeReadTag 2 0 = some 0 ∧ paired.pairCarries (dramBase + 0xFFFF8) = true
    ∧ paired.strictFirst (paired.sliceOf cccZero) (dramBytes (pairBase + 0xFFFF8) 8, linkBytes (startDie cccZero) (pairBase + 0xFFFF8) 8 true) = false
    ∧ (strictLink paired).strictFirst (paired.sliceOf cccZero) (dramBytes (pairBase + 0xFFFF8) 8, linkBytes (startDie cccZero) (pairBase + 0xFFFF8) 8 true) = true
    ∧ (noTag.setBridge 4 { BridgeX.zero with reads := (List.range 256).map (fun t => bridgeRead 0 t core0 pairBase .bus) }).held core0 (pairBase + 0xFFFF8) 8 false = true
    ∧ unpaired.pairCarries (dramBase + 0xFFFF8) = false := by
  decide +kernel

/-- An inbound read waits at a Die Bridge, and a read of this device at the Pair Bridge. -/
def pairBusy : State :=
  (paired.setBridge 4 { BridgeX.zero with reads := [bridgeRead 0 0 core0 pairBase .bus] }).setBridge 1
    { BridgeX.zero with reads := [bridgeRead 0 512 ⟨.pair, 0, 0⟩ far .bus] }
theorem test_pair_loss : pairBusy.Awake ∧ pairBusy.pair.trained = true ∧ (∃ r ∈ (pairBusy.bridge 4).reads, r.timedOut = false ∧ r.squashed = false)
    ∧ (∃ k < 4, ∃ r ∈ (pairBusy.bridge k).reads, r.who.kind = .pair ∧ r.kind = .bus ∧ r.timedOut = false ∧ r.squashed = false)
    ∧ pairBusy.underTest srcSliceSquash = false := by
  unfold State.Awake; decide +kernel

/-- The Security Core asks for a gate that the hold denies to the normal world. -/
theorem test_gate_worlds : (ready.wr PMC_SEC_HOLD.ROLL 1).isSecure secCoreFw = true ∧ ready.isSecure core0 = false
    ∧ (ready.wr PMC_SEC_HOLD.ROLL 1).unitHeld (bits 0x30E 3 0) = true ∧ bits 0x201 3 0 = 1 ∧ bit 0x201 8 = false ∧ bit 0x201 9 = true
    ∧ bits 0x201 7 4 = 0 ∧ ready.unitHeld 1 = false := by
  decide +kernel

/-- The bytes of a Rubric's image that cannot be read yet, or not at all; the Security Core in BOOT and FAILED; a Rubric found before. -/
def rubricAsked : State := asked ready 67 (rubricReq 8191 0) (rubricBytes 8191 0)
theorem test_rubric_waits : (nodram rubricAsked).Awake ∧ (nodram rubricAsked).imageWaits 67 0x0300 = true ∧ rubricAsked.imageWaits 67 0x0300 = false
    ∧ (rubricAsked.ctxRead (rubricAsked.ctx secCoreFw) 0x60000 64).2 = none ∧ (rubricAsked.wr SEC_STATE.SC_STATE 3).secAway = some msFault
    ∧ rubricAsked.secAway = none ∧ goodRubric.fits = true
    ∧ ({ rubricAsked with found := [⟨[1#8], .bad, none⟩] }.findImage [1#8] .viforik (some goodRubric)).2 = ⟨[1#8], .bad, none⟩
    ∧ (rubricAsked.findImage [1#8] .viforik (some goodRubric)).2.root = .viforik := by
  unfold State.Awake; decide +kernel

/-- The bin lies behind a lock of another initiator, or on a die that is off. -/
def binLocked : State :=
  (rastSeat 0 0).setBridge 1 { BridgeX.zero with locks := [⟨run.initId core0, binRead.1 / 64, 0⟩] }
theorem test_rast_bins : binLocked.AtDesc 0 (rastD 0 0) ∧ rastOk 0 binLocked (rastD 0 0) = true
    ∧ (binLocked.ctxUse (binLocked.ctx theSeat) binRead.1 binRead.2 false).binCheck (binLocked.ctx theSeat) binRead.1 binRead.2 false = .waits :=
  ⟨atDesc (by decide +kernel) (fun _ => rfl), by decide +kernel⟩
/-- The same on Seat 512 of the other die, with no way to the bin memory. -/
def binAway : State :=
  let s := (((rastSeat 0 0).setCcc 8 1).wr (CLC_SEAT_STATE.STATE 8 0) 3).wr (CLC_SEAT_SHARE.SIZE_4K 8 0) 16
  let t := (s.writeMem (lockerAddr 64 0) ((rastW 0).flatMap (leBytes 8))).writeMem (lockerAddr 64 0x4000) ((vecD 0).flatMap (leBytes 8) |>.set 1 1#8)
  { t.setSeat 512 (t.seat 0) with pwr := { t.pwr with linksUp := 4 } }
def farSeat : Initiator := ⟨.seat, 512, 0⟩
theorem test_rast_away : binAway.AtDesc 512 (rastD 0 0) ∧ rastOk 512 binAway (rastD 0 0) = true
    ∧ (binAway.ctxUse (binAway.ctx farSeat) binRead.1 binRead.2 false).binCheck (binAway.ctx farSeat) binRead.1 binRead.2 false = .err
    ∧ (binAway.seat 512).job = some ⟨false, 5, false, 0⟩ ∧ jobOf.fb = none :=
  ⟨atDesc (by decide +kernel) (fun _ => rfl), by decide +kernel⟩

/-- A march holds the bin memory that one record goes to; and lets it go. -/
def marchNear (s : State) : State := s.setCluster 0 { s.cluster 0 with march := { (s.cluster 0).march with held := some (8, 96) } }
theorem test_bins_wait : (marchNear (rastAtWith (plainCmd 3) id)).binsWait [⟨0, List.replicate 256 0#8⟩] = true
    ∧ (rastAtWith (plainCmd 3) id).binsWait [⟨0, List.replicate 256 0#8⟩] = false
    ∧ binOrder [⟨0, List.replicate 256 0#8⟩] (passOf none false false []).allTiles ≠ [] := by decide +kernel

/-- The tile's record meets memory that does not serve, a write that comes late, and memory that is not there. -/
theorem test_submit_waits : (nodram submitting).Awake ∧ (nodram submitting).rastUp = true
    ∧ (nodram submitting).ctxWaits (submitting.queue 0).devCtx ((submitting.queue 0).entryAddr 0 (submitting.queue 0).prod) ((submitting.queue 0).entryBytes 0) true = true
    ∧ submitting.ctxWaits (submitting.queue 0).devCtx ((submitting.queue 0).entryAddr 0 (submitting.queue 0).prod) ((submitting.queue 0).entryBytes 0) true = false
    ∧ submitting.qLate 0 = 0
    ∧ (submitting.ctxWrite (submitting.queue 0).devCtx 0x800000000000 (submitting.tileRecord tilePass 7 0 [1, 0])).2 = false := by
  unfold State.Awake; decide +kernel

/-- Core 0 reads the last bytes of LPDDR5X, once with all ways non-secure and once with none that is. -/
def allSecure : State := (reserving false).wr APC_LLC_PART.SECURE_WAYS 0xFFFF
theorem test_cache_ways : core0.kind = .apc ∧ placeOf ready.pins.fittedMiB lastOfDram = .dram (lastOfDram - dramBase)
    ∧ 1 ≤ 8 ∧ (lastOfDram - dramBase) % 64 + 8 ≤ 64 ∧ (∃ k < 16, bit (ready.rd APC_LLC_PART.SECURE_WAYS) k = ready.isSecure core0)
    ∧ allSecure.busCheck core0 lastOfDram 8 false false = .ok ∧ (∀ k < 16, bit (allSecure.rd APC_LLC_PART.SECURE_WAYS) k ≠ allSecure.isSecure core0)
    ∧ allSecure.llc = [] ∧ allSecure.ecc.ce = [] ∧ allSecure.ecc.ue = [] := by decide +kernel

/-- The partner, refused: not in a Pair, not authenticated outside channel 27, with the link down. -/
theorem test_partner_shut : run.boot.strapEn = false ∧ run.Awake ∧ pairChannel dramBase = false ∧ unpaired.pair.trained = false ∧ unpaired.Awake := by
  unfold State.Awake; decide +kernel
theorem test_partner_at : inbound.AtMem (inbound.partner dramBase 8 false) dramBase 8 false :=
  ⟨by unfold State.Awake; decide +kernel, Or.inr (Or.inr ⟨0, by decide +kernel⟩), by decide +kernel, by decide +kernel⟩

/-- The registers with a rule of their own, each at its address, with the right to write it; and those that take nothing. -/
def pairDevice : State := { run with boot := { run.boot with strapEn := true } }
def rulesAt (s : State) (w : Initiator) (f : RegFam) (i j : Nat) : Bool :=
  !s.boot.inReset && placeOf s.pins.fittedMiB (f.reg i j).addr = .regs && s.arrives w.kind w.index (f.reg i j).addr && !s.lockWaits (s.initId w) (f.reg i j).addr 8
    && !s.lateOver (f.reg i j).addr 8 && crossing w (f.reg i j).addr = none && s.regUp (f.reg i j).addr && regOver (f.reg i j).addr = some (f, i, j)
    && s.rightsOk f i w true
theorem test_rules_at : ∀ p ∈ [(secCoreFw, RegFam.cfg_pad, 0, 0), (secCoreFw, .apc_llc_part, 0, 0), (secCoreFw, .mlmb_priv_owner, 1, 0),
      (secCoreFw, .gw_admin, 0, 0), (registrarFw, .brg_ctrl, 4, 0), (secCoreFw, .pair_alive, 0, 0), (secCoreFw, .roll_str_grid, 15, 0),
      (secCoreFw, .fcu_src_cfg, 1, 0), (registrarFw, .plan_ch_cfg, 15, 15), (registrarFw, .plan_ch_ctrl, 15, 0), (registrarFw, .qmgr_sel, 0, 0),
      (registrarFw, .qmgr_qbase, 0, 0), (registrarFw, .qmgr_qcells, 0, 0), (secCoreFw, .qmgr_pool, 0, 0),
      (cccZero, .clc_seat_desc_ptr, 0, 0), (cccZero, .clc_seat_padconst, 0, 0)],
    rulesAt pairDevice p.1 p.2.1 p.2.2.1 p.2.2.2 = true := by decide +kernel
/-- When they may be written: a Seat in IDLE and in EMPTY; locks open and closed; a queue that is disabled, and one that is enabled; a mailbox not yet
negotiated; the pool not low. -/
theorem test_rules_when : (pairDevice.wr (CLC_SEAT_STATE.STATE 0 0) 1).seatState 0 = 1 ∧ pairDevice.seatState 0 = 0
    ∧ pairDevice.on (CFG_PAD.LOCK 0) = false ∧ pairDevice.on APC_LLC_PART.LOCK = false ∧ pairDevice.on FCU_CTRL.LOCK = false ∧ (srcReset 1).isSome = true
    ∧ isMladnel 8 = false ∧ (pairDevice.queue 8).enabled = false ∧ ((belled ringOn).queue 8).enabled = true
    ∧ isMladnel (reqQueue 67) = true ∧ pairDevice.on (MLMB_MB_STATUS.NEGOTIATED 67) = false
    ∧ (ready.wr (MLMB_MB_STATUS.NEGOTIATED 67) 1).on (MLMB_MB_STATUS.NEGOTIATED 67) = true
    ∧ isNetQueue 33024 = true ∧ fullQueueRights registrarFw = true ∧ (selecting 33024 roomy).qSelected secCoreFw = 33024
    ∧ pairDevice.gw.poolLow = false ∧ 2 * 5 < scarce.sharedFree ∧ bit (0x3001 : Nat) 1 = false ∧ run.boot.strapEn = false := by
  decide +kernel

/-- A boot item while its image was found before, and one whose Slate region a new level has shut. -/
def bootShut : State := booting.wr WMARK_SLATE.LEVEL_64K 1
theorem test_boot_found : booting.found = [] ∧ (booting.findImage image (.owner 0) none).2 = ⟨image, .owner 0, none⟩
    ∧ (({ booting with found := [⟨image, .bad, none⟩] }).findImage image (.owner 0) none).2.root = .bad
    ∧ goodRubric.fits = true ∧ booting.rootOk .bad = false ∧ bootShut.regionShut slateBase 1 = true ∧ booting.regionShut slateBase 1 = false := by decide +kernel

/-- A tick: nothing is late, no die is halted by a dip, and PWR_EN of a die is high. -/
theorem test_tick : run.pending = [] ∧ run.Awake ∧ run.ecc.late = [] ∧ (∀ d < 2, (run.die d).dipHalt = false) ∧ run.boot.fcuPassed = false
    ∧ ((passedOff id).setPwrEn 1 true).pwrEn 1 = true ∧ ((passedOff id).setPwrEn 1 true).pending = []
    ∧ ({ run with clock := ⟨5, 7, true, 0⟩ }).clock.running = true ∧ ({ run with clock := ⟨5, 7, false, 0⟩ }).clock.running = false := by
  unfold State.Awake; decide +kernel

/-! ### The whole machine: witnesses -/

/-- A command before an empty queue and before another; the clock with the largest rate; reset. -/
theorem test_queue : { run with pending := [.rastNop, .rastNop] }.pending = Instr.rastNop :: [.rastNop] ∧ run.pending = []
    ∧ ({ run with clock := ⟨5, 7, true, 0⟩ }).clock.running = true ∧ State.reset.boot.inReset = true ∧ run.boot.inReset = false := by
  decide +kernel

theorem test_exec_answers : ∃ t, exec .rastNop run = .next t := ⟨_, rfl⟩


end Sys2Proof.Tests
end

section
/-! SUPPORT. Frames of the register file: fields that share no bit, registers that an operation leaves alone, and folds of updates. -/

namespace Sys2Proof.Machine

/-! ### Fields that share no bit -/

/-- A field of a register lies within its 64 bits. -/
def FRef.Inside (f : FRef) : Prop := f.lo ≤ f.hi ∧ f.hi < 64

/-- Two fields share no bit: they lie in registers of different addresses, or in different bits of one register. -/
def FRef.Apart (f g : FRef) : Prop :=
  g.reg.addr ≠ f.reg.addr ∨ (g.reg = f.reg ∧ g.lo ≤ g.hi ∧ (f.hi < g.lo ∨ g.hi < f.lo))

/-- A write to a field leaves every field that shares no bit with it as it was. -/
theorem State.rd_wr_apart (s : State) {f g : FRef} (v : Nat) (hf : f.Inside) (h : f.Apart g) : (s.wr f v).rd g = s.rd g := by
  obtain ⟨hl, hh⟩ := hf
  rcases h with ha | ⟨hr, hg, hd⟩
  · exact s.rd_wr_other f g v ha
  · exact s.rd_wr_field f g v hr hh hl hg hd

theorem State.rd_wr_inside (s : State) {f : FRef} (v : Nat) (hf : f.Inside) : (s.wr f v).rd f = v % f.span :=
  s.rd_wr_same f v hf.2 hf.1

theorem State.rd_lt_span (s : State) (f : FRef) : s.rd f < f.span := Nat.mod_lt _ f.span_pos

/-- A flag reads as it did where its field does. -/
theorem State.on_of_rd {s t : State} {f : FRef} (h : t.rd f = s.rd f) : t.on f = s.on f := by
  unfold State.on; rw [h]

/-- An update under a condition keeps what the update keeps. -/
theorem State.rd_when {s : State} {f : State → State} {g : FRef} (c : Bool) (h : (f s).rd g = s.rd g) : (s.when c f).rd g = s.rd g := by
  unfold State.when; split
  · exact h
  · rfl

/-! ### Registers left alone -/

theorem RegsBut.refl (l : List Reg) (s : State) : RegsBut l s s := fun _ _ => rfl

theorem RegsBut.trans {l : List Reg} {s t u : State} (h : RegsBut l s t) (k : RegsBut l t u) : RegsBut l s u :=
  fun r hr => (k r hr).trans (h r hr)

theorem RegsBut.mono {l m : List Reg} {s t : State} (h : RegsBut l s t) (hl : ∀ q ∈ l, q ∈ m) : RegsBut m s t :=
  fun r hr => h r (fun q hq => hr q (hl q hq))

/-- What leaves the register file as it was leaves every register as it was. -/
theorem RegsBut.of_regs {l : List Reg} {s t : State} (h : t.regs = s.regs) : RegsBut l s t := fun r _ => State.reg64_congr s t r h

theorem RegsBut.setFcu (l : List Reg) (s : State) (x : FcuHid) : RegsBut l s { s with fcu := x } := fun _ _ => rfl

theorem RegsBut.setReg64 (s : State) (r : Reg) (v : Nat) : RegsBut [r] s (s.setReg64 r v) :=
  fun q hq => State.reg64_setReg64_other s r q v (Ne.symm (hq r (List.mem_singleton_self r)))

theorem RegsBut.wr (s : State) (f : FRef) (v : Nat) : RegsBut [f.reg] s (s.wr f v) := RegsBut.setReg64 s _ _

/-- A write to a field of a register of the list. -/
theorem RegsBut.wr_mem {l : List Reg} (s : State) (f : FRef) (v : Nat) (h : f.reg ∈ l) : RegsBut l s (s.wr f v) :=
  (RegsBut.wr s f v).mono (fun q hq => by rw [List.mem_singleton.mp hq]; exact h)

theorem RegsBut.when {l : List Reg} {s : State} (c : Bool) (f : State → State) (h : RegsBut l s (f s)) : RegsBut l s (s.when c f) := by
  unfold State.when; split
  · exact h
  · exact RegsBut.refl l s

theorem RegsBut.ite {l : List Reg} {s t u : State} (c : Prop) [Decidable c] (h : RegsBut l s t) (k : RegsBut l s u) :
    RegsBut l s (if c then t else u) := by split <;> assumption

/-- A fold of updates that each leave the rest alone leaves it alone. -/
theorem RegsBut.each {α : Type} {l : List Reg} (f : State → α → State) (s : State) (xs : List α) (h : ∀ u, ∀ a ∈ xs, RegsBut l u (f u a)) :
    RegsBut l s (s.each xs f) := by
  induction xs generalizing s with
  | nil => exact RegsBut.refl l s
  | cons a t ih =>
    exact (h s a (List.mem_cons_self ..)).trans (ih (f s a) (fun u b hb => h u b (List.mem_cons_of_mem _ hb)))

/-- A field of a register outside the list reads as it did. -/
theorem RegsBut.rd {l : List Reg} {s t : State} (h : RegsBut l s t) (f : FRef) (hf : ∀ q ∈ l, q.addr ≠ f.reg.addr) : t.rd f = s.rd f :=
  State.rd_of_reg64 s t f (h f.reg hf)

/-! ### Folds of updates -/

/-- What every update of a fold preserves holds after the fold. -/
theorem State.each_preserves {α : Type} {P : State → Prop} {f : State → α → State} {xs : List α} {s : State}
    (h : ∀ u, ∀ a ∈ xs, P u → P (f u a)) (hs : P s) : P (s.each xs f) := by
  induction xs generalizing s with
  | nil => exact hs
  | cons a t ih => exact ih (fun u b hb => h u b (List.mem_cons_of_mem _ hb)) (h s a (List.mem_cons_self ..) hs)

/-- What every update of a fold keeps, the fold keeps. -/
theorem State.each_keeps {α β : Type} {q : State → β} {f : State → α → State} {xs : List α} (s : State)
    (h : ∀ u, ∀ a ∈ xs, q (f u a) = q u) : q (s.each xs f) = q s :=
  State.each_preserves (P := fun u => q u = q s) (fun u a ha k => (h u a ha).trans k) rfl

/-- What one update of a fold brings about, and the others preserve, holds after the fold. -/
theorem State.each_establishes {α : Type} {P Q : State → Prop} {f : State → α → State} {xs : List α} {s : State} {a : α} (ha : a ∈ xs)
    (hP : ∀ u, ∀ b ∈ xs, P u → P (f u b)) (hPQ : ∀ u, P u → Q (f u a)) (hQ : ∀ u, ∀ b ∈ xs, Q u → Q (f u b)) (hs : P s) :
    Q (s.each xs f) := by
  obtain ⟨l, r, rfl⟩ := List.append_of_mem ha
  have hl : P (s.each l f) := State.each_preserves (fun u b hb => hP u b (List.mem_append_left _ hb)) hs
  have split : s.each (l ++ a :: r) f = (f (s.each l f) a).each r f := by simp [State.each]
  rw [split]
  exact State.each_preserves (fun u b hb => hQ u b (List.mem_append_right _ (List.mem_cons_of_mem _ hb))) (hPQ _ hl)

end Sys2Proof.Machine
end

section
/-! SUPPORT. The registers of fault collection (11_fault_collection R264-R276): which fields share no bit, and the sources that are set. -/

namespace Sys2Proof.Machine

/-! ### The fields -/

theorem stickyRef_inside (n : Nat) : (stickyRef n).Inside := ⟨Nat.le_refl _, Nat.mod_lt _ (by decide)⟩

theorem ackRef_inside (n : Nat) : (ackRef n).Inside := ⟨Nat.le_refl _, Nat.mod_lt _ (by decide)⟩

@[simp] theorem stickyRef_span (n : Nat) : (stickyRef n).span = 2 := by simp [FRef.span, stickyRef]

@[simp] theorem ackRef_span (n : Nat) : (ackRef n).span = 2 := by simp [FRef.span, ackRef]

@[simp] theorem stickyRef_addr (n : Nat) : (stickyRef n).reg.addr = 0x10000100 + n / 64 * 8 := rfl

@[simp] theorem ackRef_addr (n : Nat) : (ackRef n).reg.addr = 0x10000200 + n / 64 * 8 := rfl

@[simp] theorem srcState_addr (n : Nat) : (FCU_SRC_STATE n).addr = 0x10002000 + n * 8 := rfl

/-- The bits of two sources in the words of one kind differ. -/
theorem wordBit_apart {W : Nat → Reg} (inj : ∀ a b, (W a).addr = (W b).addr → a = b) {n m : Nat} (h : m ≠ n) :
    FRef.Apart ⟨W (n / 64), n % 64, n % 64⟩ ⟨W (m / 64), m % 64, m % 64⟩ := by
  by_cases hk : m / 64 = n / 64
  · refine .inr ⟨congrArg W hk, Nat.le_refl _, ?_⟩
    show n % 64 < m % 64 ∨ m % 64 < n % 64
    omega
  · exact .inl (fun ha => hk (inj _ _ ha))

theorem stickyRef_apart_stickyRef {n m : Nat} (h : m ≠ n) : (stickyRef n).Apart (stickyRef m) :=
  wordBit_apart (W := FCU_SRC_STATUS) (fun a b (hab : 0x10000100 + a * 8 = 0x10000100 + b * 8) => by omega) h

theorem ackRef_apart_ackRef {n m : Nat} (h : m ≠ n) : (ackRef n).Apart (ackRef m) :=
  wordBit_apart (W := FCU_SRC_ACK) (fun a b (hab : 0x10000200 + a * 8 = 0x10000200 + b * 8) => by omega) h

theorem stickyRef_apart_ackRef {n : Nat} (hn : n < 512) (m : Nat) : (stickyRef n).Apart (ackRef m) :=
  .inl (by simp only [stickyRef_addr, ackRef_addr]; omega)

theorem ackRef_apart_stickyRef (n : Nat) {m : Nat} (hm : m < 512) : (ackRef n).Apart (stickyRef m) :=
  .inl (by simp only [stickyRef_addr, ackRef_addr]; omega)

theorem stickyRef_apart_srcState {n m : Nat} {g : FRef} (hn : n < 512) (hg : g.reg = FCU_SRC_STATE m) : (stickyRef n).Apart g :=
  .inl (by rw [hg, srcState_addr, stickyRef_addr]; omega)

theorem ackRef_apart_srcState {n m : Nat} {g : FRef} (hn : n < 512) (hg : g.reg = FCU_SRC_STATE m) : (ackRef n).Apart g :=
  .inl (by rw [hg, srcState_addr, ackRef_addr]; omega)

theorem srcState_apart_stickyRef {n m : Nat} {f : FRef} (hf : f.reg = FCU_SRC_STATE n) (hm : m < 512) : f.Apart (stickyRef m) :=
  .inl (by rw [hf, srcState_addr, stickyRef_addr]; omega)

theorem srcState_apart_ackRef {n m : Nat} {f : FRef} (hf : f.reg = FCU_SRC_STATE n) (hm : m < 512) : f.Apart (ackRef m) :=
  .inl (by rw [hf, srcState_addr, ackRef_addr]; omega)

/-- Fields of the state registers of two sources, or fields of different bits. -/
theorem srcState_apart {n m : Nat} {f g : FRef} (hf : f.reg = FCU_SRC_STATE n) (hg : g.reg = FCU_SRC_STATE m) (hi : g.lo ≤ g.hi)
    (h : m ≠ n ∨ f.hi < g.lo ∨ g.hi < f.lo) : f.Apart g := by
  by_cases hmn : m = n
  · exact .inr ⟨by rw [hf, hg, hmn], hi, h.resolve_left (not_not_intro hmn)⟩
  · exact .inl (by rw [hf, hg, srcState_addr, srcState_addr]; omega)

/-- An address of the FCU's words of status and acknowledgement and of its registers of configuration and state. -/
def inSources (a : Nat) : Prop := 0x10000100 ≤ a ∧ a < 0x10003000

theorem stickyRef_inSources {n : Nat} (hn : n < 512) : inSources (stickyRef n).reg.addr := by
  simp only [inSources, stickyRef_addr]; omega

theorem ackRef_inSources {n : Nat} (hn : n < 512) : inSources (ackRef n).reg.addr := by
  simp only [inSources, ackRef_addr]; omega

theorem srcState_inSources {n : Nat} (hn : n < 512) : inSources (FCU_SRC_STATE n).addr := by
  simp only [inSources, srcState_addr]; omega

theorem summary_addr : FCU_SUMMARY.addr = 0x10000008 := rfl

theorem summary_apart {f g : FRef} (hf : f.reg = FCU_SUMMARY) (hg : inSources g.reg.addr) : f.Apart g :=
  .inl (by rw [hf, summary_addr]; unfold inSources at hg; omega)

theorem apart_summary {f g : FRef} (hf : inSources f.reg.addr) (hg : g.reg = FCU_SUMMARY) : f.Apart g :=
  .inl (by rw [hg, summary_addr]; unfold inSources at hf; omega)

/-! ### The sources that are set -/

/-- A bit of a register's word and the field of that bit alone. -/
theorem State.bit_reg64 (s : State) (r : Reg) (j : Nat) : bit (s.reg64 r) j = s.on ⟨r, j, j⟩ := by
  simp [bit, State.on, State.rd, FRef.of, FRef.span]

theorem stickyRef_word {k j : Nat} (hj : j < 64) : stickyRef (64 * k + j) = ⟨FCU_SRC_STATUS k, j, j⟩ := by
  unfold stickyRef
  rw [show (64 * k + j) / 64 = k by omega, show (64 * k + j) % 64 = j by omega]

/-- The sources that a word names are those of its bits that are set. -/
theorem sourcesOf_eq_map (k w : Nat) : sourcesOf k w = ((List.range 64).filter (bit w)).map (64 * k + ·) := by
  unfold sourcesOf
  induction List.range 64 with
  | nil => rfl
  | cons j t ih => by_cases h : bit w j = true <;> simp [h, ih]

theorem mem_sourcesOf {k w n : Nat} : n ∈ sourcesOf k w ↔ ∃ j < 64, bit w j = true ∧ 64 * k + j = n := by
  simp [sourcesOf_eq_map, and_assoc]

/-- The source of bit `j` is named where the bit is set. -/
theorem mem_sourcesOf_bit {k w j : Nat} (hj : j < 64) : 64 * k + j ∈ sourcesOf k w ↔ bit w j = true := by
  rw [mem_sourcesOf]
  constructor
  · rintro ⟨i, _, hb, hi⟩
    rwa [show j = i by omega]
  · exact fun hb => ⟨j, hj, hb, rfl⟩

theorem sourcesOf_lt {k w n : Nat} (hk : k < 8) (h : n ∈ sourcesOf k w) : n < 512 ∧ n / 64 = k := by
  obtain ⟨j, hj, _, rfl⟩ := mem_sourcesOf.mp h
  omega

/-- The sources that a status word names are those of its 64 whose sticky bit is set. -/
theorem State.mem_sourcesOf_status (s : State) (k n : Nat) :
    n ∈ sourcesOf k (s.reg64 (FCU_SRC_STATUS k)) ↔ n / 64 = k ∧ s.on (stickyRef n) = true := by
  rw [mem_sourcesOf]
  constructor
  · rintro ⟨j, hj, hb, rfl⟩
    refine ⟨by omega, ?_⟩
    rwa [stickyRef_word hj, ← State.bit_reg64]
  · rintro ⟨rfl, set⟩
    exact ⟨n % 64, Nat.mod_lt _ (by decide), (s.bit_reg64 _ _).trans set, by omega⟩

/-- The sources that are set are those whose sticky bit is. -/
theorem State.mem_setSources (s : State) (n : Nat) : n ∈ s.setSources ↔ n < 512 ∧ s.on (stickyRef n) = true := by
  have word : ∀ k, n ∈ (if s.reg64 (FCU_SRC_STATUS k) = 0 then [] else sourcesOf k (s.reg64 (FCU_SRC_STATUS k)))
      ↔ n / 64 = k ∧ s.on (stickyRef n) = true := by
    intro k
    rw [← s.mem_sourcesOf_status]
    split
    · rename_i zero; simp [zero, mem_sourcesOf, bit]
    · rfl
  refine List.mem_flatMap.trans ((exists_congr (fun k => and_congr List.mem_range (word k))).trans ?_)
  constructor
  · rintro ⟨k, hk, rfl, set⟩
    exact ⟨by omega, set⟩
  · rintro ⟨hn, set⟩
    exact ⟨n / 64, by omega, rfl, set⟩

end Sys2Proof.Machine
end

section
/-! SUPPORT. Writes to the registers of fault collection: acknowledging sources (R273) and clearing them (R274). -/

namespace Sys2Proof.Machine

/-! ### A register write that reaches its register -/

/-- The way of a write to its register leaves the register file as it was. -/
@[simp] theorem State.through_regs (s : State) (w : Initiator) (f : RegFam) (i j : Nat) : (s.through w f i j).regs = s.regs :=
  (s.through_parts w f i j).2 .regs (by decide)

@[simp] theorem State.through_fcu (s : State) (w : Initiator) (f : RegFam) (i j : Nat) : (s.through w f i j).fcu = s.fcu :=
  (s.through_parts w f i j).2 .fcu (by decide)

@[simp] theorem State.through_rd (s : State) (w : Initiator) (f : RegFam) (i j : Nat) (g : FRef) : (s.through w f i j).rd g = s.rd g :=
  State.rd_congr s _ g (s.through_regs w f i j)

@[simp] theorem State.through_on (s : State) (w : Initiator) (f : RegFam) (i j : Nat) (g : FRef) : (s.through w f i j).on g = s.on g :=
  State.on_of_rd (s.through_rd w f i j g)

@[simp] theorem State.setBus_rd (s : State) (b : BusReply) (g : FRef) : State.rd { s with bus := b } g = s.rd g := rfl

@[simp] theorem State.setBus_on (s : State) (b : BusReply) (g : FRef) : State.on { s with bus := b } g = s.on g := rfl

/-- A command that writes a register it reaches, out of reset, answers with the effect of the write. -/
theorem answers_regWr {c : Instr} {s : State} {w : Initiator} {f : RegFam} {i j : Nat} {k : State → State} {P : State → Prop}
    (hc : exec c s = .next (s.live (s.regWr w f i j k))) (awake : s.Awake) (reaches : s.Reaches w f i j true)
    (h : P { k (s.through w f i j) with bus := .done }) : Answers c s P :=
  ⟨_, by rw [hc, State.live_awake _ _ awake, State.regWr_reaches reaches], h⟩

/-! ### Acknowledging (R273) -/

theorem State.ackSrc_parts (s : State) (n : Nat) : SameBut [.regs] s (s.ackSrc n) :=
  SameBut.ite _ (SameBut.wr ..) (SameBut.refl ..)

theorem State.ackSrc_regs (s : State) (n : Nat) : RegsBut [FCU_SRC_ACK (n / 64)] s (s.ackSrc n) :=
  RegsBut.ite _ (RegsBut.wr s (ackRef n) 1) (RegsBut.refl _ s)

theorem State.ackSrc_rd (s : State) {n : Nat} {g : FRef} (h : (ackRef n).Apart g) : (s.ackSrc n).rd g = s.rd g := by
  unfold State.ackSrc; split
  · exact s.rd_wr_apart 1 (ackRef_inside n) h
  · rfl

/-- A source is acknowledged from then on if it is set. -/
theorem State.ackSrc_on (s : State) (n : Nat) : (s.ackSrc n).on (ackRef n) = (s.on (ackRef n) || s.on (stickyRef n)) := by
  unfold State.ackSrc; split
  · rename_i h
    have set : (s.wr (ackRef n) 1).on (ackRef n) = true := by simp [State.on, s.rd_wr_inside 1 (ackRef_inside n)]
    simp [h, set]
  · rename_i h; simp [h]

/-- Acknowledging the sources of a list acknowledges those of them that are set. -/
theorem State.each_ackSrc_on (s : State) (l : List Nat) {n : Nat} (hn : n < 512) :
    (s.each l State.ackSrc).on (ackRef n) = (s.on (ackRef n) || (l.contains n && s.on (stickyRef n))) := by
  induction l generalizing s with
  | nil => simp [State.each]
  | cons a t ih =>
    have sticky : (s.ackSrc a).on (stickyRef n) = s.on (stickyRef n) :=
      State.on_of_rd (s.ackSrc_rd (ackRef_apart_stickyRef a hn))
    have step : (s.each (a :: t) State.ackSrc).on (ackRef n)
        = ((s.ackSrc a).on (ackRef n) || (t.contains n && s.on (stickyRef n))) := by rw [← sticky]; exact ih _
    rw [step]
    by_cases h : n = a
    · subst h
      rw [s.ackSrc_on n]
      cases s.on (stickyRef n) <;> simp
    · rw [State.on_of_rd (s.ackSrc_rd (ackRef_apart_ackRef h))]
      simp [h]

theorem State.fcuAckWrite_parts (s : State) (k v : Nat) : SameBut [.regs] s (s.fcuAckWrite k v) :=
  SameBut.each _ State.ackSrc_parts s _

theorem State.fcuAckWrite_regs (s : State) {k : Nat} (v : Nat) (hk : k < 8) : RegsBut [FCU_SRC_ACK k] s (s.fcuAckWrite k v) :=
  RegsBut.each _ s _ (fun u a ha => by rw [← (sourcesOf_lt hk ha).2]; exact u.ackSrc_regs a)

theorem State.fcuAckWrite_on (s : State) {k : Nat} (v : Nat) {j : Nat} (hk : k < 8) (hj : j < 64) :
    (s.fcuAckWrite k v).on (ackRef (64 * k + j)) = (s.on (ackRef (64 * k + j)) || (bit v j && s.on (stickyRef (64 * k + j)))) := by
  have named : (sourcesOf k v).contains (64 * k + j) = bit v j := by
    rw [Bool.eq_iff_iff, List.contains_iff_mem, mem_sourcesOf_bit hj]
  rw [← named]
  exact s.each_ackSrc_on _ (by omega)

/-! ### Clearing (R274) -/

theorem State.clearSrc_parts (s : State) (n : Nat) : SameBut [.regs, .fcu] s (s.clearSrc n) := by
  unfold State.clearSrc
  refine SameBut.ite _ ((SameBut.satAdd ..).mono (by decide)) ?_
  exact (((SameBut.wr ..).trans ((SameBut.wr ..).trans (SameBut.wr ..))).mono (by decide)).trans ((SameBut.setFcu ..).mono (by decide))

theorem State.clearSrc_regs (s : State) (n : Nat) :
    RegsBut [FCU_SRC_STATUS (n / 64), FCU_SRC_ACK (n / 64), FCU_SUMMARY, FCU_SRC_STATE n] s (s.clearSrc n) := by
  unfold State.clearSrc
  refine RegsBut.ite _ (RegsBut.wr_mem s FCU_SUMMARY.CLR_IGNORED _ (by simp [FCU_SUMMARY.CLR_IGNORED])) ?_
  have h1 := RegsBut.wr_mem (l := [FCU_SRC_STATUS (n / 64), FCU_SRC_ACK (n / 64), FCU_SUMMARY, FCU_SRC_STATE n]) s (stickyRef n) 0
    (by simp [stickyRef])
  have h2 := h1.trans (RegsBut.wr_mem _ (ackRef n) 0 (by simp [ackRef]))
  have h3 := h2.trans (RegsBut.wr_mem _ (FCU_SRC_STATE.RAISED_CLASS n) 0 (by simp [FCU_SRC_STATE.RAISED_CLASS]))
  exact h3.trans (RegsBut.setFcu _ _ _)

/-- The isolation stays. -/
theorem State.clearSrc_isolated (s : State) (n : Nat) : (s.clearSrc n).fcu.isolated = s.fcu.isolated := by
  unfold State.clearSrc; split
  · rw [State.satAdd_fcu]
  · dsimp only
    rw [State.wr_fcu, State.wr_fcu, State.wr_fcu]

theorem raisedClass_inside (n : Nat) : (FCU_SRC_STATE.RAISED_CLASS n).Inside := ⟨by show 24 ≤ 25; decide, by show 25 < 64; decide⟩

theorem clrIgnored_inside : FCU_SUMMARY.CLR_IGNORED.Inside := ⟨by decide, by decide⟩

/-- A source that asserts is not cleared, and the clear is counted. -/
theorem State.clearSrc_asserting {s : State} {n : Nat} (h : s.on (FCU_SRC_STATE.ASSERTING n) = true) :
    s.clearSrc n = s.satAdd FCU_SUMMARY.CLR_IGNORED 1 := by
  unfold State.clearSrc; rw [if_pos h]

/-- The registers of a source that does not assert, as a clear leaves them. -/
theorem State.clearSrc_idle {s : State} {n : Nat} (h : s.on (FCU_SRC_STATE.ASSERTING n) = false) :
    (s.clearSrc n).regs = (((s.wr (stickyRef n) 0).wr (ackRef n) 0).wr (FCU_SRC_STATE.RAISED_CLASS n) 0).regs := by
  unfold State.clearSrc; rw [if_neg (by simp [h])]

/-- A field that shares no bit with those that a clear may write reads as it did. -/
theorem State.clearSrc_rd (s : State) {n : Nat} {g : FRef} (hs : (stickyRef n).Apart g) (ha : (ackRef n).Apart g)
    (hr : (FCU_SRC_STATE.RAISED_CLASS n).Apart g) (hc : FCU_SUMMARY.CLR_IGNORED.Apart g) : (s.clearSrc n).rd g = s.rd g := by
  cases h : s.on (FCU_SRC_STATE.ASSERTING n) with
  | true => rw [State.clearSrc_asserting h]; exact s.rd_wr_apart _ clrIgnored_inside hc
  | false =>
    rw [State.rd_congr _ _ g (State.clearSrc_idle h), State.rd_wr_apart _ _ (raisedClass_inside n) hr,
      State.rd_wr_apart _ _ (ackRef_inside n) ha, State.rd_wr_apart _ _ (stickyRef_inside n) hs]

/-- The fields of a state register but RAISED_CLASS stay when a source is cleared, and those of another source's all do. -/
theorem State.clearSrc_srcState (s : State) {a n : Nat} {g : FRef} (ha : a < 512) (hn : n < 512) (hg : g.reg = FCU_SRC_STATE n)
    (hi : g.lo ≤ g.hi) (h : n ≠ a ∨ 25 < g.lo ∨ g.hi < 24) : (s.clearSrc a).rd g = s.rd g :=
  s.clearSrc_rd (stickyRef_apart_srcState ha hg) (ackRef_apart_srcState ha hg) (srcState_apart rfl hg hi h)
    (summary_apart rfl (by rw [hg]; exact srcState_inSources hn))

theorem State.clearSrc_asserts (s : State) {a n : Nat} (ha : a < 512) (hn : n < 512) :
    (s.clearSrc a).on (FCU_SRC_STATE.ASSERTING n) = s.on (FCU_SRC_STATE.ASSERTING n) :=
  State.on_of_rd (s.clearSrc_srcState ha hn rfl (Nat.le_refl 28) (.inr (.inl (by decide : 25 < 28))))

/-- Source `n` is clear: not set, not acknowledged, with no class raised. -/
def State.Cleared (s : State) (n : Nat) : Prop :=
  s.on (stickyRef n) = false ∧ s.on (ackRef n) = false ∧ s.rd (FCU_SRC_STATE.RAISED_CLASS n) = 0

/-- What a clear acts on of source `n` is the same in `s` and `t`. -/
def SameSource (n : Nat) (s t : State) : Prop :=
  t.on (stickyRef n) = s.on (stickyRef n) ∧ t.on (ackRef n) = s.on (ackRef n)
    ∧ t.rd (FCU_SRC_STATE.RAISED_CLASS n) = s.rd (FCU_SRC_STATE.RAISED_CLASS n)

theorem SameSource.trans {n : Nat} {s t u : State} (h : SameSource n s t) (k : SameSource n t u) : SameSource n s u :=
  ⟨k.1.trans h.1, k.2.1.trans h.2.1, k.2.2.trans h.2.2⟩

theorem State.Cleared.of_same {n : Nat} {s t : State} (h : s.Cleared n) (k : SameSource n s t) : t.Cleared n :=
  ⟨k.1.trans h.1, k.2.1.trans h.2.1, k.2.2.trans h.2.2⟩

/-- A source is the same where the fields that it has of the three registers are. -/
theorem SameSource.of_rd {n : Nat} {s t : State} (hs : t.rd (stickyRef n) = s.rd (stickyRef n)) (ha : t.rd (ackRef n) = s.rd (ackRef n))
    (hr : t.rd (FCU_SRC_STATE.RAISED_CLASS n) = s.rd (FCU_SRC_STATE.RAISED_CLASS n)) : SameSource n s t :=
  ⟨State.on_of_rd hs, State.on_of_rd ha, hr⟩

/-- A source that does not assert is clear after its clear. -/
theorem State.clearSrc_cleared {s : State} {n : Nat} (hn : n < 512) (h : s.on (FCU_SRC_STATE.ASSERTING n) = false) :
    (s.clearSrc n).Cleared n := by
  have regs := State.clearSrc_idle h
  refine ⟨?_, ?_, ?_⟩
  · rw [State.on_of_rd (State.rd_congr _ _ _ regs), State.on_of_rd (State.rd_wr_apart _ _ (raisedClass_inside n) (srcState_apart_stickyRef rfl hn)),
      State.on_of_rd (State.rd_wr_apart _ _ (ackRef_inside n) (ackRef_apart_stickyRef n hn))]
    simp [State.on, State.rd_wr_inside _ _ (stickyRef_inside n)]
  · rw [State.on_of_rd (State.rd_congr _ _ _ regs), State.on_of_rd (State.rd_wr_apart _ _ (raisedClass_inside n) (srcState_apart_ackRef rfl hn))]
    simp [State.on, State.rd_wr_inside _ _ (ackRef_inside n)]
  · rw [State.rd_congr _ _ _ regs, State.rd_wr_inside _ _ (raisedClass_inside n), Nat.zero_mod]

/-- The clear of a source leaves every other source as it was. -/
theorem State.clearSrc_other (s : State) {a n : Nat} (ha : a < 512) (hn : n < 512) (h : n ≠ a) : SameSource n s (s.clearSrc a) :=
  .of_rd
    (s.clearSrc_rd (stickyRef_apart_stickyRef h) (ackRef_apart_stickyRef a hn) (srcState_apart_stickyRef rfl hn)
      (summary_apart rfl (stickyRef_inSources hn)))
    (s.clearSrc_rd (stickyRef_apart_ackRef ha n) (ackRef_apart_ackRef h) (srcState_apart_ackRef rfl hn)
      (summary_apart rfl (ackRef_inSources hn)))
    (s.clearSrc_srcState ha hn rfl (by decide : 24 ≤ 25) (.inl h))

/-- The clear of a source that asserts leaves the source as it was. -/
theorem State.clearSrc_ignored {s : State} {n : Nat} (hn : n < 512) (h : s.on (FCU_SRC_STATE.ASSERTING n) = true) :
    SameSource n s (s.clearSrc n) := by
  rw [State.clearSrc_asserting h]
  exact .of_rd (s.rd_wr_apart _ clrIgnored_inside (summary_apart rfl (stickyRef_inSources hn)))
    (s.rd_wr_apart _ clrIgnored_inside (summary_apart rfl (ackRef_inSources hn)))
    (s.rd_wr_apart _ clrIgnored_inside (summary_apart rfl (srcState_inSources hn)))

/-- CLR_IGNORED counts the clear of a source that asserts, and of no other. -/
theorem State.clearSrc_clrIgnored (s : State) {n : Nat} (hn : n < 512) :
    (s.clearSrc n).rd FCU_SUMMARY.CLR_IGNORED
      = min (s.rd FCU_SUMMARY.CLR_IGNORED + b2n (s.on (FCU_SRC_STATE.ASSERTING n))) 65535 := by
  have bound : s.rd FCU_SUMMARY.CLR_IGNORED < 65536 := s.rd_lt_span _
  cases h : s.on (FCU_SRC_STATE.ASSERTING n) with
  | true =>
    rw [State.clearSrc_asserting h]
    unfold State.satAdd
    rw [State.rd_wr_inside _ _ clrIgnored_inside]
    show min (_ + 1) 65535 % 65536 = min (_ + 1) 65535
    omega
  | false =>
    rw [State.rd_congr _ _ _ (State.clearSrc_idle h), State.rd_wr_apart _ _ (raisedClass_inside n) (apart_summary (srcState_inSources hn) rfl),
      State.rd_wr_apart _ _ (ackRef_inside n) (apart_summary (ackRef_inSources hn) rfl),
      State.rd_wr_apart _ _ (stickyRef_inside n) (apart_summary (stickyRef_inSources hn) rfl)]
    show _ = min (_ + 0) 65535
    omega

/-! ### Clearing the sources of a list -/

section
variable {s : State} {l : List Nat} (hl : ∀ a ∈ l, a < 512)
include hl

/-- A source of the list that does not assert is clear. -/
theorem State.each_clearSrc_cleared {n : Nat} (hn : n ∈ l) (h : s.on (FCU_SRC_STATE.ASSERTING n) = false) :
    (s.each l State.clearSrc).Cleared n := by
  refine State.each_establishes (P := fun u => u.on (FCU_SRC_STATE.ASSERTING n) = false)
    (Q := fun u => u.on (FCU_SRC_STATE.ASSERTING n) = false ∧ u.Cleared n) hn ?_ ?_ ?_ h |>.2
  · exact fun u a ha k => (u.clearSrc_asserts (hl a ha) (hl n hn)).trans k
  · exact fun u k => ⟨(u.clearSrc_asserts (hl n hn) (hl n hn)).trans k, State.clearSrc_cleared (hl n hn) k⟩
  · rintro u a ha ⟨k, clear⟩
    refine ⟨(u.clearSrc_asserts (hl a ha) (hl n hn)).trans k, ?_⟩
    by_cases e : n = a
    · subst e; exact State.clearSrc_cleared (hl n hn) k
    · exact clear.of_same (u.clearSrc_other (hl a ha) (hl n hn) e)

/-- A source that is not of the list, or that asserts, stays as it was. -/
theorem State.each_clearSrc_same {n : Nat} (hn : n < 512) (h : n ∉ l ∨ s.on (FCU_SRC_STATE.ASSERTING n) = true) :
    SameSource n s (s.each l State.clearSrc) := by
  refine State.each_preserves
    (P := fun u => u.on (FCU_SRC_STATE.ASSERTING n) = s.on (FCU_SRC_STATE.ASSERTING n) ∧ SameSource n s u) ?_ ⟨rfl, rfl, rfl, rfl⟩ |>.2
  rintro u a ha ⟨k, same⟩
  refine ⟨(u.clearSrc_asserts (hl a ha) hn).trans k, same.trans ?_⟩
  by_cases e : n = a
  · subst e; exact State.clearSrc_ignored hn (k.trans (h.resolve_left (not_not_intro ha)))
  · exact u.clearSrc_other (hl a ha) hn e

/-- CLR_IGNORED counts the sources of the list that assert. -/
theorem State.each_clearSrc_clrIgnored :
    (s.each l State.clearSrc).rd FCU_SUMMARY.CLR_IGNORED
      = min (s.rd FCU_SUMMARY.CLR_IGNORED + (l.filter (fun n => s.on (FCU_SRC_STATE.ASSERTING n))).length) 65535 := by
  induction l generalizing s with
  | nil =>
    have bound : s.rd FCU_SUMMARY.CLR_IGNORED < 65536 := s.rd_lt_span _
    show s.rd FCU_SUMMARY.CLR_IGNORED = min (_ + 0) 65535
    omega
  | cons a t ih =>
    have ha := hl a (List.mem_cons_self ..)
    have ht : ∀ b ∈ t, b < 512 := fun b hb => hl b (List.mem_cons_of_mem _ hb)
    have rest : t.filter (fun n => (s.clearSrc a).on (FCU_SRC_STATE.ASSERTING n)) = t.filter (fun n => s.on (FCU_SRC_STATE.ASSERTING n)) :=
      List.filter_congr (fun b hb => s.clearSrc_asserts ha (ht b hb))
    have step := ih (s := s.clearSrc a) ht
    rw [rest, s.clearSrc_clrIgnored ha] at step
    refine Eq.trans step ?_
    rw [List.filter_cons]
    cases s.on (FCU_SRC_STATE.ASSERTING a) with
    | true => rw [if_pos rfl, List.length_cons, b2n, if_pos rfl]; omega
    | false => rw [if_neg Bool.false_ne_true, b2n, if_neg Bool.false_ne_true]; omega

end

/-! ### The write to FCU_SRC_STATUSk -/

theorem State.fcuStatusWrite_parts (s : State) (k v : Nat) : SameBut [.regs, .fcu] s (s.fcuStatusWrite k v) :=
  SameBut.each _ State.clearSrc_parts s _

theorem State.fcuStatusWrite_isolated (s : State) (k v : Nat) : (s.fcuStatusWrite k v).fcu.isolated = s.fcu.isolated :=
  s.each_keeps (q := fun u => u.fcu.isolated) (fun u a _ => u.clearSrc_isolated a)

section
variable (s : State) {k : Nat} (v : Nat) (hk : k < 8)
include hk

theorem State.fcuStatusWrite_regs :
    RegsBut (FCU_SRC_STATUS k :: FCU_SRC_ACK k :: FCU_SUMMARY :: (List.range 64).map (fun j => FCU_SRC_STATE (64 * k + j)))
      s (s.fcuStatusWrite k v) := by
  refine RegsBut.each _ s _ (fun u a ha => ?_)
  obtain ⟨j, hj, -, hja⟩ := mem_sourcesOf.mp ha
  have state : FCU_SRC_STATE a ∈ (List.range 64).map (fun j => FCU_SRC_STATE (64 * k + j)) :=
    List.mem_map.mpr ⟨j, List.mem_range.mpr hj, by rw [hja]⟩
  have regs := u.clearSrc_regs a
  rw [(sourcesOf_lt hk ha).2] at regs
  refine regs.mono (fun q hq => ?_)
  simp only [List.mem_cons, List.not_mem_nil, or_false] at hq ⊢
  rcases hq with h | h | h | h
  · exact .inl h
  · exact .inr (.inl h)
  · exact .inr (.inr (.inl h))
  · exact .inr (.inr (.inr (h ▸ state)))

theorem State.fcuStatusWrite_srcState {n : Nat} {g : FRef} (hn : n < 512) (hg : g.reg = FCU_SRC_STATE n) (hi : g.lo ≤ g.hi)
    (h : 25 < g.lo ∨ g.hi < 24) : (s.fcuStatusWrite k v).rd g = s.rd g :=
  s.each_keeps (q := fun u => u.rd g) (fun u _ ha => u.clearSrc_srcState (sourcesOf_lt hk ha).1 hn hg hi (.inr h))

/-- The bits of FCU_SUMMARY below CLR_IGNORED stay. -/
theorem State.fcuStatusWrite_summary {g : FRef} (hg : g.reg = FCU_SUMMARY) (hi : g.lo ≤ g.hi) (h : g.hi < 48) :
    (s.fcuStatusWrite k v).rd g = s.rd g := by
  refine s.each_keeps (q := fun u => u.rd g) (fun u a ha => ?_)
  have hn := (sourcesOf_lt hk ha).1
  exact u.clearSrc_rd (apart_summary (stickyRef_inSources hn) hg) (apart_summary (ackRef_inSources hn) hg)
    (apart_summary (srcState_inSources hn) hg) (.inr ⟨hg, hi, .inr h⟩)

theorem State.fcuStatusWrite_cleared {j : Nat} (hj : j < 64) (hb : bit v j = true)
    (h : s.on (FCU_SRC_STATE.ASSERTING (64 * k + j)) = false) : (s.fcuStatusWrite k v).Cleared (64 * k + j) :=
  State.each_clearSrc_cleared (fun _ ha => (sourcesOf_lt hk ha).1) ((mem_sourcesOf_bit hj).mpr hb) h

theorem State.fcuStatusWrite_same {j : Nat} (hj : j < 64)
    (h : bit v j = false ∨ s.on (FCU_SRC_STATE.ASSERTING (64 * k + j)) = true) : SameSource (64 * k + j) s (s.fcuStatusWrite k v) :=
  State.each_clearSrc_same (fun _ ha => (sourcesOf_lt hk ha).1) (by omega)
    (h.imp_left (fun hb hm => by simp [(mem_sourcesOf_bit hj).mp hm] at hb))

theorem State.fcuStatusWrite_clrIgnored :
    (s.fcuStatusWrite k v).rd FCU_SUMMARY.CLR_IGNORED = min (s.rd FCU_SUMMARY.CLR_IGNORED
      + ((List.range 64).filter (fun j => bit v j && s.on (FCU_SRC_STATE.ASSERTING (64 * k + j)))).length) 65535 := by
  have named : ((sourcesOf k v).filter (fun n => s.on (FCU_SRC_STATE.ASSERTING n))).length
      = ((List.range 64).filter (fun j => bit v j && s.on (FCU_SRC_STATE.ASSERTING (64 * k + j)))).length := by
    rw [sourcesOf_eq_map, List.filter_map, List.length_map, List.filter_filter]
    simp only [Function.comp_def, Bool.and_comm]
  rw [← named]
  exact State.each_clearSrc_clrIgnored (fun _ ha => (sourcesOf_lt hk ha).1)

end

end Sys2Proof.Machine
end

section
/-! SUPPORT. One event at the FCU (R267): what it counts, the class that it is raised at, and the fields that it leaves alone. -/

namespace Sys2Proof.Machine

@[simp] theorem State.setFcu_rd (s : State) (x : FcuHid) (g : FRef) : State.rd { s with fcu := x } g = s.rd g := rfl

/-! ### Counting -/

theorem promote_inside (n : Nat) : (FCU_SRC_STATE.PROMOTE n).Inside := ⟨Nat.le_refl 27, by show 27 < 64; decide⟩

theorem winCount_inside (n : Nat) : (FCU_SRC_STATE.WIN_COUNT n).Inside := ⟨by show 32 ≤ 39; decide, by show 39 < 64; decide⟩

theorem events_inside (n : Nat) : (FCU_SRC_STATE.EVENTS n).Inside := ⟨by show 48 ≤ 63; decide, by show 63 < 64; decide⟩

/-- A window of source `n` starts now, with nothing counted (R267): the update that `State.countEvent` makes when a window opens. -/
def State.startWindow (s : State) (n : Nat) : State :=
  let t := s.wr (FCU_SRC_STATE.WIN_COUNT n) 0
  { t with fcu := { t.fcu with winStart := Table.set t.fcu.winStart 0 n t.nowMs } }

/-- Counting an event writes PROMOTE and WIN_COUNT of its source and no other field. -/
theorem State.countEvent_rd (s : State) {n : Nat} {g : FRef} (hp : (FCU_SRC_STATE.PROMOTE n).Apart g)
    (hw : (FCU_SRC_STATE.WIN_COUNT n).Apart g) : (s.countEvent n).1.rd g = s.rd g := by
  have promote : ∀ (u : State) (v : Nat), (u.wr (FCU_SRC_STATE.PROMOTE n) v).rd g = u.rd g := fun u v => u.rd_wr_apart v (promote_inside n) hp
  have count : ∀ (u : State) (v : Nat), (u.wr (FCU_SRC_STATE.WIN_COUNT n) v).rd g = u.rd g := fun u v => u.rd_wr_apart v (winCount_inside n) hw
  have window : ∀ u : State, (u.startWindow n).rd g = u.rd g := fun u => (State.setFcu_rd (u.wr (FCU_SRC_STATE.WIN_COUNT n) 0) _ g).trans (count u 0)
  have first := State.rd_when (f := fun t => t.wr (FCU_SRC_STATE.PROMOTE n) 0) (s.on (FCU_SRC_STATE.PROMOTE n)) (promote s 0)
  unfold State.countEvent
  dsimp only
  generalize s.when (s.on (FCU_SRC_STATE.PROMOTE n)) (fun t => t.wr (FCU_SRC_STATE.PROMOTE n) 0) = p at first ⊢
  have second : ∀ c, (p.when c (fun t => t.startWindow n)).rd g = s.rd g := fun c => (State.rd_when (f := fun t => t.startWindow n) c (window p)).trans first
  split
  · exact first
  · split
    · exact (count _ _).trans ((promote _ _).trans (second _))
    · exact (count _ _).trans (second _)

/-- An event is promoted where PROMOTE of its source is set. -/
theorem State.countEvent_snd (s : State) (n : Nat) : (s.countEvent n).2 = s.on (FCU_SRC_STATE.PROMOTE n) := by
  unfold State.countEvent
  dsimp only
  split
  · rfl
  · split <;> rfl

/-! ### The class -/

/-- Where every source that is set is acknowledged, no event escalates. -/
theorem State.escalates_of_acked {s : State} (h : ∀ u < 512, s.on (stickyRef u) = true → s.on (ackRef u) = true) (c : Nat) :
    s.escalates c = false := by
  refine List.any_eq_false.mpr (fun u hu => ?_)
  obtain ⟨lt, set⟩ := (s.mem_setSources u).mp hu
  simp [h u lt set]

/-- Without escalation, an event is raised at the class of its source, one higher if promoted, at most CRITICAL. -/
theorem State.raisedClass_of_quiet {s : State} (h : ∀ c, s.escalates c = false) (n : Nat) (p : Bool) :
    (s.raisedClass n p).1 = min (s.rd (FCU_SRC_CFG.CLASS n) + b2n p) 3 := by
  simp [State.raisedClass, h, b2n]

/-- The class that an event of source `n` is raised at once it is counted, and whether it escalates (R267). -/
def State.eventClass (s : State) (n : Nat) : Nat × Bool := (s.countEvent n).1.raisedClass n (s.countEvent n).2

theorem State.eventClass_le (s : State) (n : Nat) : (s.eventClass n).1 ≤ 3 := Nat.min_le_right _ _

/-- With every source that is set acknowledged, an event is raised at the class of its source, one higher if promoted. -/
theorem State.eventClass_of_acked (s : State) (n : Nat)
    (acked : ∀ u < 512, s.on (stickyRef u) = true → s.on (ackRef u) = true) :
    (s.eventClass n).1 = min (s.rd (FCU_SRC_CFG.CLASS n) + b2n (s.on (FCU_SRC_STATE.PROMOTE n))) 3 := by
  have sticky : ∀ u < 512, (s.countEvent n).1.on (stickyRef u) = s.on (stickyRef u) := fun u hu =>
    State.on_of_rd (s.countEvent_rd (srcState_apart_stickyRef rfl hu) (srcState_apart_stickyRef rfl hu))
  have ack : ∀ u < 512, (s.countEvent n).1.on (ackRef u) = s.on (ackRef u) := fun u hu =>
    State.on_of_rd (s.countEvent_rd (srcState_apart_ackRef rfl hu) (srcState_apart_ackRef rfl hu))
  have quiet : ∀ c, (s.countEvent n).1.escalates c = false :=
    State.escalates_of_acked (fun u hu => by rw [sticky u hu, ack u hu]; exact acked u hu)
  have config : ∀ f : FRef, f.reg = FCU_SRC_STATE n → f.Apart (FCU_SRC_CFG.CLASS n) := fun f hf =>
    .inl (by rw [hf, srcState_addr]; exact fun (e : 0x10001000 + n * 8 = _) => by omega)
  rw [State.eventClass, State.raisedClass_of_quiet quiet, s.countEvent_snd, s.countEvent_rd (config _ rfl) (config _ rfl)]

/-! ### The record -/

/-- The registers of source `n` after an event raised at class `c` (R267). -/
def State.recordEvent (s : State) (n c : Nat) : State :=
  let s1 := s.wr (FCU_SRC_STATE.RAISED_CLASS n) (if s.on (stickyRef n) then max (s.rd (FCU_SRC_STATE.RAISED_CLASS n)) c else c)
  ((s1.wr (stickyRef n) 1).wr (ackRef n) 0).satAdd (FCU_SRC_STATE.EVENTS n) 1

/-- An event of a source that exists is counted, recorded and logged, and has its reactions. -/
theorem State.takeEvent_eq (s : State) {n : Nat} (h : (srcReset n).isSome = true) :
    s.takeEvent n = (((s.countEvent n).1.recordEvent n (s.eventClass n).1).logEvent n (s.eventClass n).1 (s.countEvent n).2
      (s.eventClass n).2).react n (s.eventClass n).1 := by
  unfold State.takeEvent
  rw [if_neg (by simp [Option.isSome_iff_ne_none.mp h])]
  rfl

/-- The record writes RAISED_CLASS and EVENTS, the sticky bit and the acknowledgement of the source, and no other field. -/
theorem State.recordEvent_rd (s : State) {n : Nat} (c : Nat) {g : FRef} (hr : (FCU_SRC_STATE.RAISED_CLASS n).Apart g)
    (hs : (stickyRef n).Apart g) (ha : (ackRef n).Apart g) (he : (FCU_SRC_STATE.EVENTS n).Apart g) : (s.recordEvent n c).rd g = s.rd g := by
  unfold State.recordEvent State.satAdd
  rw [State.rd_wr_apart _ _ (events_inside n) he, State.rd_wr_apart _ _ (ackRef_inside n) ha, State.rd_wr_apart _ _ (stickyRef_inside n) hs,
    State.rd_wr_apart _ _ (raisedClass_inside n) hr]

theorem State.recordEvent_raisedClass (s : State) {n c : Nat} (hn : n < 512) (hc : c ≤ 3) :
    (s.recordEvent n c).rd (FCU_SRC_STATE.RAISED_CLASS n)
      = if s.on (stickyRef n) then max (s.rd (FCU_SRC_STATE.RAISED_CLASS n)) c else c := by
  have bound : s.rd (FCU_SRC_STATE.RAISED_CLASS n) < 4 := s.rd_lt_span _
  have events : (FCU_SRC_STATE.EVENTS n).Apart (FCU_SRC_STATE.RAISED_CLASS n) :=
    srcState_apart rfl rfl (by decide : 24 ≤ 25) (.inr (.inr (by decide : 25 < 48)))
  unfold State.recordEvent State.satAdd
  rw [State.rd_wr_apart _ _ (events_inside n) events, State.rd_wr_apart _ _ (ackRef_inside n) (ackRef_apart_srcState hn rfl),
    State.rd_wr_apart _ _ (stickyRef_inside n) (stickyRef_apart_srcState hn rfl), State.rd_wr_inside _ _ (raisedClass_inside n)]
  refine Nat.mod_eq_of_lt ?_
  show _ < 4
  split <;> omega

/-! ### The log and the reactions -/

theorem State.logEvent_regs (s : State) (n c : Nat) (p e : Bool) :
    RegsBut [FCU_LOG_PTR, FCU_LOG (s.rd FCU_LOG_PTR.WR_IDX)] s (s.logEvent n c p e) := by
  have pointer : ∀ (u : State) (f : FRef) (v : Nat), f.reg = FCU_LOG_PTR →
      RegsBut [FCU_LOG_PTR, FCU_LOG (s.rd FCU_LOG_PTR.WR_IDX)] u (u.wr f v) :=
    fun u f v hf => RegsBut.wr_mem u f v (by rw [hf]; exact List.mem_cons_self ..)
  unfold State.logEvent
  refine RegsBut.ite _ (pointer _ _ _ rfl) ?_
  dsimp only
  refine RegsBut.trans ?_ (RegsBut.when _ _ (pointer _ _ _ rfl))
  refine RegsBut.trans ?_ (RegsBut.when _ _ (pointer _ _ _ rfl))
  refine RegsBut.trans ?_ (pointer _ _ _ rfl)
  exact (RegsBut.setReg64 _ _ _).mono (fun q hq => List.mem_cons_of_mem _ hq)

theorem State.react_regs (s : State) (n c : Nat) : RegsBut [FCU_SUMMARY] s (s.react n c) := by
  have summary : ∀ (u : State) (f : FRef) (v : Nat), f.reg = FCU_SUMMARY → RegsBut [FCU_SUMMARY] u (u.wr f v) :=
    fun u f v hf => RegsBut.wr_mem u f v (by rw [hf]; exact List.mem_singleton_self _)
  unfold State.react
  dsimp only
  refine RegsBut.trans ?_ (RegsBut.when _ _ ?_)
  · refine RegsBut.trans (RegsBut.setFcu _ s _) (RegsBut.when _ _ (RegsBut.ite _ (summary _ _ _ rfl) ?_))
    exact (summary _ FCU_SUMMARY.SAFE1 1 rfl).trans ((summary _ FCU_SUMMARY.FIRST_CRIT_VALID 1 rfl).trans (summary _ _ _ rfl))
  · exact (summary _ FCU_SUMMARY.ALIVE_STOPPED 1 rfl).trans (RegsBut.of_regs rfl)

/-- The log and the reactions leave the sources' registers alone. -/
theorem State.logged_rd (s : State) (n c : Nat) (p e : Bool) {g : FRef} (hg : inSources g.reg.addr) :
    ((s.logEvent n c p e).react n c).rd g = s.rd g := by
  unfold inSources at hg
  rw [(State.react_regs _ n c).rd g, (s.logEvent_regs n c p e).rd g]
  · simp only [List.mem_cons, List.not_mem_nil, or_false]
    rintro q (rfl | rfl)
    · exact fun (h : 0x10000010 = _) => by omega
    · exact fun (h : 0x10008000 + _ * 8 = _) => by omega
  · simp only [List.mem_singleton]
    rintro q rfl
    exact fun (h : 0x10000008 = _) => by omega

/-! ### The whole event -/

/-- RAISED_CLASS after an event: the class of the event, or a higher one that the source, if it was set, has had before. -/
theorem State.takeEvent_raisedClass (s : State) {n : Nat} (h : (srcReset n).isSome = true) :
    (s.takeEvent n).rd (FCU_SRC_STATE.RAISED_CLASS n)
      = max (if s.on (stickyRef n) then s.rd (FCU_SRC_STATE.RAISED_CLASS n) else 0)
          (s.eventClass n).1 := by
  have hn : n < 512 := srcReset_small n (by simpa using h)
  have sticky : (s.countEvent n).1.on (stickyRef n) = s.on (stickyRef n) :=
    State.on_of_rd (s.countEvent_rd (srcState_apart_stickyRef rfl hn) (srcState_apart_stickyRef rfl hn))
  have raised : (s.countEvent n).1.rd (FCU_SRC_STATE.RAISED_CLASS n) = s.rd (FCU_SRC_STATE.RAISED_CLASS n) :=
    s.countEvent_rd (srcState_apart rfl rfl (by decide : 24 ≤ 25) (.inr (.inr (by decide : 25 < 27))))
      (srcState_apart rfl rfl (by decide : 24 ≤ 25) (.inr (.inr (by decide : 25 < 32))))
  rw [s.takeEvent_eq h, State.logged_rd _ _ _ _ _ (srcState_inSources hn), State.recordEvent_raisedClass _ hn (s.eventClass_le n),
    sticky, raised]
  split
  · rfl
  · exact (Nat.zero_max _).symm

/-- With every source that is set acknowledged, an event does not escalate (R273). -/
theorem State.takeEvent_raisedClass_of_acked (s : State) {n : Nat} (h : (srcReset n).isSome = true)
    (acked : ∀ u < 512, s.on (stickyRef u) = true → s.on (ackRef u) = true) :
    (s.takeEvent n).rd (FCU_SRC_STATE.RAISED_CLASS n)
      = max (if s.on (stickyRef n) then s.rd (FCU_SRC_STATE.RAISED_CLASS n) else 0)
          (min (s.rd (FCU_SRC_CFG.CLASS n) + b2n (s.on (FCU_SRC_STATE.PROMOTE n))) 3) := by
  rw [s.takeEvent_raisedClass h, s.eventClass_of_acked n acked]

/-- An event of a source does not make it assert (R274). -/
theorem State.takeEvent_asserting (s : State) (n : Nat) :
    (s.takeEvent n).on (FCU_SRC_STATE.ASSERTING n) = s.on (FCU_SRC_STATE.ASSERTING n) := by
  cases h : (srcReset n).isSome with
  | false => unfold State.takeEvent; rw [if_pos (by simpa using h)]
  | true =>
    have hn : n < 512 := srcReset_small n (by simpa using h)
    have other : ∀ f : FRef, f.reg = FCU_SRC_STATE n → f.hi < 28 ∨ 28 < f.lo → f.Apart (FCU_SRC_STATE.ASSERTING n) :=
      fun f hf hd => srcState_apart hf rfl (Nat.le_refl 28) (.inr hd)
    rw [s.takeEvent_eq h, State.on_of_rd (State.logged_rd _ _ _ _ _ (srcState_inSources hn))]
    refine State.on_of_rd (Eq.trans (State.recordEvent_rd _ _ (other _ rfl ?_) (stickyRef_apart_srcState hn rfl)
      (ackRef_apart_srcState hn rfl) (other _ rfl ?_)) (s.countEvent_rd (other _ rfl ?_) (other _ rfl ?_)))
    · exact .inl (by decide : 25 < 28)
    · exact .inr (by decide : 28 < 48)
    · exact .inl (by decide : 27 < 28)
    · exact .inr (by decide : 28 < 32)

theorem State.raise_asserting (s : State) (n : Nat) : (s.raise n).on (FCU_SRC_STATE.ASSERTING n) = s.on (FCU_SRC_STATE.ASSERTING n) := by
  unfold State.raise; split
  · rfl
  · exact s.takeEvent_asserting n

/-! ### FCU_EVENT of an event source (R266) -/

/-- Reaction X of an event source names no block. -/
theorem State.isolate_of_event {s : State} {n : Nat} (h : isLevelSrc n = false) : s.isolate n = s := by
  have level : ∀ m, isLevelSrc m = true → n ≠ m := fun m hm e => by rw [e, hm] at h; cases h
  have die : (n = 0x042 || n = 0x043) = false := by simp [level 0x042 (by decide), level 0x043 (by decide)]
  have power : (n = 0x029 || n = 0x02A) = false := by simp [level 0x029 (by decide), level 0x02A (by decide)]
  have cluster : (decide (0x100 ≤ n) && decide (n % 16 = 11)) = false := by
    by_contra hc
    simp only [Bool.not_eq_false, Bool.and_eq_true, decide_eq_true_eq] at hc
    simp [isLevelSrc, hc.1, hc.2] at h
  unfold State.isolate
  simp [die, power, cluster]

/-- An event source follows no condition: each event of it reaches the FCU. -/
theorem State.sourceEvent_of_event {s : State} {n : Nat} (h : isLevelSrc n = false) (holds : Bool) : s.sourceEvent n holds = s.raise n := by
  unfold State.sourceEvent
  simp [h, State.isolate_of_event h]

/-- The events of a command leave an event source that does not assert so. -/
theorem fcuEvent_asserting (s : State) (n : Fin 512) (b : Bool) (h : isLevelSrc n.val = false)
    (idle : s.on (FCU_SRC_STATE.ASSERTING n.val) = false) :
    Answers (.fcuEvent [n] ⟨b, []⟩) s (fun t => t.on (FCU_SRC_STATE.ASSERTING n.val) = false) := by
  refine ⟨_, rfl, ?_⟩
  unfold State.live
  split
  · exact idle
  · refine State.each_preserves (P := fun u => u.on (FCU_SRC_STATE.ASSERTING n.val) = false) (fun u a ha k => ?_) idle
    have only : a = n.val := by
      have := List.mem_of_mem_filter ha
      simpa [eq_comm] using (List.mem_filter.mp this).2
    rw [only, State.sourceEvent_of_event h, State.raise_asserting]
    exact k

end Sys2Proof.Machine
end

section
/-! CLAIMS. Fault collection: acknowledging and clearing (11_fault_collection R273, R274). -/

namespace Sys2Proof.Machine

/-- Settles O10: a write to FCU_SRC_ACKk folds the acknowledgement over the sources that its bits name; an event escalates only to the class of a
source that is set and not acknowledged. -/
theorem acknowledgeSetSourcesOnly : Obligations.AcknowledgeSetSourcesOnly := by
  unfold Obligations.AcknowledgeSetSourcesOnly
  refine ⟨?_, ?_, ?_, ?_⟩
  · intro s w k d awake reaches
    refine answers_regWr rfl awake reaches ⟨rfl, ?_, ?_, ?_⟩
    · exact ((State.fcuAckWrite_parts ..).mono (by decide)).trans ((SameBut.setBus ..).mono (by decide))
    · exact (RegsBut.of_regs (State.through_regs ..)).trans ((State.fcuAckWrite_regs _ _ k.isLt).trans (RegsBut.of_regs rfl))
    · intro j hj
      rw [State.setBus_on, State.fcuAckWrite_on _ _ k.isLt hj, State.through_on, State.through_on]
  · exact fun s n h acked => s.takeEvent_raisedClass_of_acked h acked
  · intro s acked
    refine List.any_eq_false.mpr (fun n hn => ?_)
    simp [acked n hn]
  · exact fun s n h => (s.takeEvent_raised n (by simpa using h)).2

/-- Settles O11: a write to FCU_SRC_STATUSk folds the clear over the sources that its bits name; ASSERTING follows the conditions of level
sources alone. -/
theorem clearLeavesAssertingSources : Obligations.ClearLeavesAssertingSources := by
  unfold Obligations.ClearLeavesAssertingSources
  refine ⟨?_, fun s n _ => s.takeEvent_asserting n, fun s n b h idle => fcuEvent_asserting s n b h idle⟩
  intro s w k d awake reaches
  have hk := k.isLt
  refine answers_regWr rfl awake reaches ⟨rfl, ?_, ?_, ?_, ?_, ?_, ?_, ?_, ?_⟩
  · exact ((State.fcuStatusWrite_parts ..).mono (by decide)).trans ((SameBut.setBus ..).mono (by decide))
  · intro j hj hb idle
    exact State.fcuStatusWrite_cleared _ _ hk hj hb (by rw [State.through_on]; exact idle)
  · intro j hj h
    have same := State.fcuStatusWrite_same (s.through w .fcu_src_status k.val 0) d.toNat hk hj (by rw [State.through_on]; exact h)
    simpa [SameSource] using same
  · simpa using State.fcuStatusWrite_clrIgnored (s.through w .fcu_src_status k.val 0) d.toNat hk
  · intro n hn
    have stays : ∀ g : FRef, g.reg = FCU_SRC_STATE n → g.lo ≤ g.hi → 25 < g.lo ∨ g.hi < 24 →
        ((s.through w .fcu_src_status k.val 0).fcuStatusWrite k.val d.toNat).rd g = s.rd g := fun g hg hi hd =>
      (State.fcuStatusWrite_srcState _ _ hk hn hg hi hd).trans (State.through_rd ..)
    exact ⟨stays _ rfl (by decide : 48 ≤ 63) (.inl (by decide : 25 < 48)), stays _ rfl (by decide : 32 ≤ 39) (.inl (by decide : 25 < 32)),
      stays _ rfl (Nat.le_refl 27) (.inl (by decide : 25 < 27))⟩
  · exact (State.fcuStatusWrite_summary _ _ hk rfl (Nat.le_refl 5) (by decide : 5 < 48)).trans (State.through_rd ..)
  · exact (State.fcuStatusWrite_isolated ..).trans (congrArg FcuHid.isolated (State.through_fcu ..))
  · exact (RegsBut.of_regs (State.through_regs ..)).trans ((State.fcuStatusWrite_regs _ _ hk).trans (RegsBut.of_regs rfl))

end Sys2Proof.Machine
end
